-- ==== Sys2Proof/Word.lean ====
section
/-! DEFINITION. The word types of the model: bytes, byte strings, and tables of numbered things. -/

namespace Sys2Proof

/-- One byte. -/
abbrev Byte := BitVec 8

/-- A byte string, lowest address first; every field of the part is little-endian (R4). -/
abbrev Bytes := List (BitVec 8)

/-- A table of like things keyed by number: the numbers strictly rise, a missing number holds the default. -/
abbrev Tab (α : Type) := List (Nat × α)

end Sys2Proof
end

