-- ==== Sys2Proof/Syntax.lean ====
section
/-! DEFINITION. The commands of the block: one constructor of `Instr` for each row of the operation table, with the
facts that come from outside the block (bytes read, packets, measurements, outcomes of cryptography) as operands.
The types of those operands come first. -/

namespace Sys2Proof

/-- A mailbox (06_mailboxes_and_commands.md): PF mailbox k (0-3), the mailbox of VF v, the management mailbox, the security
processor's mailbox. -/
inductive Mbox where
  | pf (k : Nat)
  | vf (v : Nat)
  | mgmt
  | sec
deriving DecidableEq, Repr

/-- A power domain (15_power_and_clocks.md, Table: Power domains). -/
inductive PowerDomain where
  | column (c : Nat)
  | stack (k : Nat)
  | spine (h : Nat)
  | halfLink (h : Nat)
  | solver (h : Nat)
  | seq (h : Nat)
  | qfe
  | fabric (p : Nat)
deriving DecidableEq, Repr

/-- Whether the image of each firmware slot verifies (R718): an outcome of cryptography (log 8). -/
structure FwFacts where
  ok0 : Bool := true
  ok1 : Bool := true
deriving DecidableEq, Repr

/-- A change of a function's MSI-X masking (R75). -/
inductive MsixChange where
  | vector (v : Nat) (masked : Bool)
  | function (masked : Bool)
  | enable (on : Bool)
deriving DecidableEq, Repr

/-- What a ring read brought back (R61, R91). -/
inductive ReadResult where
  | data (b : Bytes)
  | poisoned
  | refused
deriving DecidableEq, Repr

/-- A packet of the unplanned channel: the header flit's fields (10_mesh_and_half_link.md, Table: UC header flit) and its data, with
what the check codes found on the way (R455-R457). `poison` lists the 32-byte halves of the data that are poisoned;
`ueData` is 0, or 1 + the number of the data flit that an uncorrectable error struck; `hops` and `behind`
are the grid cycles from request to grant and those of them spent behind another partition (R305). -/
structure UcPacket where
  typ : Nat := 0
  flags : Nat := 0
  len : Nat := 0
  nack : Nat := 0
  dest : Nat := 0
  src : Nat := 0
  tag : Nat := 0
  gen : Nat := 0
  part : Nat := 255
  job : Nat := 255
  addr : Nat := 0
  count : Nat := 0
  inl : Bytes := []
  data : Bytes := []
  poison : List Nat := []
  ce : Nat := 0
  ueHead : Bool := false
  ueData : Nat := 0
  hops : Nat := 0
  behind : Nat := 0
deriving DecidableEq, Repr

/-- A flit of the timetabled channel at its last hop: the logical tile it is for and where it is stored. `lane` is the direction
and the Season lane of a Half Link crossing; `err` is 0, or 1 for a corrected and 2 for an uncorrectable check code. -/
structure PlanFlit where
  dst : Nat := 0
  addr : Nat := 0
  data : Bytes := []
  poison : List Nat := []
  lane : Option (Nat × Nat) := none
  onLink : Bool := false
  err : Nat := 0
deriving DecidableEq, Repr

/-- A planned action of a Season (R27): a flit delivered, a message of a planned channel delivered, a flit without its
timetable entry or an entry without its flit (R429), a tile program that missed its offset (R40). -/
inductive PlannedAction where
  | flit (f : PlanFlit)
  | message (tile chan : Nat)
  | stray
  | missed (tile : Nat)
deriving DecidableEq, Repr

/-- What the hardware checks of a tile find while an instruction runs: nothing, a sequencer mismatch (R326), an uncorrectable
error of the instruction fetch (cause 0x06), a corrected (R320) or an uncorrectable (R321) error of the data read, or a residue
mismatch of the matrix engine (R412). It comes from outside: no program decides it (log 8). -/
inductive Upset where
  | none
  | mismatch
  | fetchUe
  | readCe
  | readUe
  | residue
deriving DecidableEq, Repr

/-- How a transfer's request is answered: done; done with a corrected stack error (R503); done with an uncorrectable stack error
(R491); or a NACK (11_device_memory_and_transfers.md, Table: Transfer faults). -/
inductive XferResult where
  | done
  | corrected
  | uncorrectable
  | nackDark
  | nackReset
  | nackRoute
deriving DecidableEq, Repr

/-- A frame of unplanned fabric traffic (12_fabric_and_almanac.md, Table: Unplanned frame). -/
structure Frame where
  typ : Nat := 0
  hops : Nat := 0
  src : Nat := 0
  dst : Nat := 0
  half : Nat := 0
  status : Nat := 0
  sem : Nat := 0
  seq : Nat := 0
  value : BitVec 64 := 0
  aux : BitVec 64 := 0
deriving DecidableEq, Repr

/-- A received or sent fabric slot (12_fabric_and_almanac.md, Table: Slot sideband), with what its check and its FEC found. -/
structure FabSlot where
  slot : Nat := 0
  month : Nat := 0
  kind : Nat := 3
  flow : Nat := 0
  bytes : Nat := 0
  poison : Nat := 0
  credits : Nat := 0
  equinox : Bool := false
  eqCount : Nat := 0
  checkOk : Bool := true
  ce : Nat := 0
  ue : Nat := 0
  payload : Bytes := []
  frames : List Frame := []
deriving DecidableEq, Repr

/-- One task of a Season's tile-program section (kind 0x0001): tile, job entry, entry address and the four registers the
section writes (08_tiles.md). -/
structure TaskExt where
  tile : Nat := 0
  entry : Nat := 0
  pc : Nat := 0
  spillBase : Nat := 0
  spillBytes : Nat := 0
  trapVec : Nat := 0
  semKind : Nat := 0
  progFirst : Nat := 0
  progEnd : Nat := 0
deriving DecidableEq, Repr

/-- One channel that a Season configures (08_tiles.md, Message channels and credits). -/
structure ChanExt where
  tile : Nat := 0
  chan : Nat := 0
  dst : Nat := 0
  dstChan : Nat := 0
  planned : Bool := false
  flits : Nat := 1
  credits : Nat := 1
  slotBase : Nat := 0
  slotCount : Nat := 1
deriving DecidableEq, Repr

/-- What the Season's tile-program and route sections (kinds 0x0001 and 0x0002) say; the spec gives these sections no layout, so
their content comes as an operand (log 9). `outside`: a route leaves what R427 allows (R428); `twice`: a planned resource has two
owners (R30); `dark`: planned traffic meets a tile that is not Awake (R31, R664); `programs`: program bytes per tile. -/
structure SeasonExt where
  outside : Bool := false
  twice : Bool := false
  dark : Bool := false
  tasks : List TaskExt := []
  chans : List ChanExt := []
  programs : List (Nat × Nat × Bytes) := []
  inboxTiles : List (Nat × Nat) := []
deriving DecidableEq, Repr

/-- What SEASON_INSTALL takes from outside: outcomes of cryptography (log 8), the undocumented sections (log 9), and the
decrypted weight payload. -/
structure InstallFacts where
  sigOk : Bool := true
  tagsOk : Bool := true
  ext : SeasonExt := {}
  plain : Bytes := []
deriving DecidableEq, Repr

/-- What a firmware or pattern image declares and whether it verifies (R850, R756; log 8). -/
structure ImageFacts where
  sigOk : Bool := true
  svn : Nat := 0
  minSvn : Nat := 0
  level : Nat := 1
  version : Nat := 0
  written : Bool := true
deriving DecidableEq, Repr

/-- An access to the register space: the function and the BAR it comes through (or the master), its offset, size in bytes,
direction and data. -/
structure RegAccess where
  fn : Nat := 512
  bar : Nat := 2
  off : Nat := 0
  size : Nat := 4
  write : Bool := false
  data : BitVec 64 := 0
  master : Nat := 512
deriving DecidableEq, Repr

/-- The commands: one constructor per row of the operation table. -/
inductive Instr where
  /-- `PERST_RELEASE` (R684): Release of PERST# with PWRGD asserted samples the straps and begins the power-on start sequence. -/
  | perstRelease (pwrgd : Bool) (straps : BitVec 6)
  /-- `PERST_ASSERT` (R907): Assertion of PERST# begins a PERST# reset, which stops all activity within 1 µs. -/
  | perstAssert
  /-- `PWRGD_DEASSERT` (R907): Deassertion of PWRGD while VDD_AON stays in tolerance begins a PERST# reset. -/
  | pwrgdDeassert
  /-- `ROM_BOOT_END` (R702): The end of ROM boot makes the security processor answer the management channel and MCTP, with STARTING for most commands. -/
  | romBootEnd
  /-- `FW_VERIFIED` (R718): The end of firmware verification boots the active slot, or fails over to the other slot, or enters the Failed stage. -/
  | fwVerified (img : FwFacts)
  /-- `CONFIGURATION_READY` (R694): The device becomes configuration ready and stops returning CRS. -/
  | configurationReady
  /-- `COLUMN_POWER_UP` (R685): At start-up or in Spring, the device powers the next tile column, at least 2 ms after the one before. -/
  | columnPowerUp
  /-- `STACK_TRAINING` (R686): The end of one stack's training starts the next stack, retries the stack once, or marks it failed. -/
  | stackTraining (ok : Bool)
  /-- `STACK_INITIALISATION` (R687): After training at a power-on start, every trained stack is written with zero and valid ECC. -/
  | stackInitialisation
  /-- `READINESS` (R690): When every readiness condition holds, the device sets READY, asserts the READY pin and starts Month 0. -/
  | readiness
  /-- `START_FAILED` (R719): A fatal start-up failure puts the device in the Failed stage, which never asserts READY. -/
  | startFailed (cause : Nat)
  /-- `LISTEN_START` (R706): 100 ms after the start of the sequence, every present fabric port enters Listen. -/
  | listenStart
  /-- `CONFIG_REQUEST` (R694): A PCIe configuration request completes with CRS before configuration ready and normally after it. -/
  | configRequest (f off : Nat)
  /-- `PCIE_LINK_DOWN` (R714): A PCIe link-down or hot reset resets the configuration space and continues the internal sequence. -/
  | pcieLinkDown
  /-- `FLR` (R214): Initiate FLR on a VF or on the PF stops fetching, increments the generation and begins the function reset. -/
  | flr (f : Nat)
  /-- `VF_RESET_COMPLETE` (R216): When the VF's ring reads have returned and its translations are invalidated, the VF reset completes and STATE becomes Ready or Unsized. -/
  | vfResetComplete (v : Nat)
  /-- `VF_RESET_TIMEOUT` (R220): A shared engine that has not cleared old-generation work within 60 ms is treated as hung. -/
  | vfResetTimeout (v : Nat)
  /-- `VF_ENABLE_SET` (R205): Setting VF Enable creates NumVFs VFs, within the ARI limit, in the Unsized state. -/
  | vfEnableSet (numVfs : Nat)
  /-- `VF_ENABLE_CLEAR` (R212): Clearing VF Enable resets every VF as an FLR does and removes them. -/
  | vfEnableClear
  /-- `MSIX_MASK_CHANGE` (R75): Unmasking a vector or a function, or setting MSI-X Enable, sends one message for each pending bit and clears it. -/
  | msixMaskChange (f : Nat) (c : MsixChange)
  /-- `LQI_SQ_TAIL` (R58): A write to the SQ tail doorbell sets the new tail, unless the value is out of range or the queue pair is not Active. -/
  | lqiSqTail (f qp val : Nat)
  /-- `LQI_CQ_HEAD` (R947): A write to the CQ head doorbell moves the guest's CQ head when the value is in range. -/
  | lqiCqHead (f qp val : Nat)
  /-- `LQI_CQ_MOD` (R944): A write to the CQ moderation register applies COUNT and TIME at once to unsignalled records. -/
  | lqiCqMod (f qp val : Nat)
  /-- `FETCH_GRANT` (R65): When a fetch slot is free, the QFE grants it to the next ready LC or BE queue and issues the ring read. -/
  | fetchGrant (qfe : Nat)
  /-- `RING_READ_COMPLETION` (R61): A PCIe read completion for SQ slots returns the slots to the QFE buffer and advances LQI_SQ_HEAD past whole packets. -/
  | ringReadCompletion (qfe slot : Nat) (r : ReadResult)
  /-- `RING_READ_TIMEOUT` (R91): A completion timeout on an SQ read puts the queue pair in Error with reason 0x08. -/
  | ringReadTimeout (qfe slot : Nat)
  /-- `PAGE_REQUEST_RESPONSE` (R70): A page-request group response retries the parked access and clears FAULT_WAIT, or is discarded. -/
  | pageRequestResponse (f req : Nat) (ok : Bool)
  /-- `PAGE_REQUEST_TIMEOUT` (R91): A page request unanswered for 1,000,000 calendar ticks puts the queue pair in Error with reason 0x04 or 0x05. -/
  | pageRequestTimeout (f req : Nat)
  /-- `ATS_INVALIDATION` (R72): An ATS invalidation is completed after every ring access under the old translation has completed. -/
  | atsInvalidation (f page : Nat)
  /-- `PACKET_PLACEMENT` (R76): The QFE places the next fetched packet of an SQ into the partition inbox in ring order and starts its timer. -/
  | packetPlacement (f qp : Nat)
  /-- `PKT_NOP` (R114): A NOP packet completes OK with no other effect. -/
  | pktNop (pid : Nat)
  /-- `FENCE` (R118): A FENCE packet holds later packets of its SQ until every earlier packet is final. -/
  | fence (pid : Nat)
  /-- `FENCE_RELEASE` (R118): When every earlier packet of the SQ is final, the FENCE completes OK and placement resumes. -/
  | fenceRelease (f qp : Nat)
  /-- `SEQ_OPEN` (R151): A SEQ_OPEN packet allocates a sequence entry and returns its handle. -/
  | seqOpen (pid : Nat)
  /-- `SEQ_FEED` (R958): A SEQ_FEED packet, or chain, queues an operation that appends items to a sequence. -/
  | seqFeed (pid : Nat)
  /-- `SEQ_STEP` (R153): A SEQ_STEP packet queues an operation of COUNT steps, or one single pass. -/
  | seqStep (pid : Nat)
  /-- `SEQ_CLOSE` (R143): A SEQ_CLOSE packet cancels queued operations and frees the entry and its KV pages. -/
  | seqClose (pid : Nat)
  /-- `SOLVE_SET` (R563): A SOLVE_SET packet uploads a skeleton image and returns its handle. -/
  | solveSet (pid : Nat)
  /-- `SOLVE_DELTA` (R566): A SOLVE_DELTA packet is accepted as a solver problem on a skeleton. -/
  | solveDelta (pid : Nat)
  /-- `SOLVE_DROP` (R144): A SOLVE_DROP packet cancels unstarted problems and releases the skeleton. -/
  | solveDrop (pid : Nat)
  /-- `PARAM_WRITE` (R473): A PARAM_WRITE packet writes parameter slots in ascending order and completes OK. -/
  | paramWrite (pid : Nat)
  /-- `PARAM_READ` (R953): A PARAM_READ packet reads parameter slots into one record. -/
  | paramRead (pid : Nat)
  /-- `SIGNAL` (R125): A SIGNAL packet issues a remote signal to the target named in its ARGS. -/
  | signal (pid : Nat)
  /-- `WAIT` (R119): A WAIT packet holds later packets of its SQ until a local device semaphore reaches THRESHOLD. -/
  | wait (pid : Nat)
  /-- `QUERY_QUEUE_ACCOUNTING` (R963): A QUERY of kind 0x00 returns the queue pair's accounting counters. -/
  | queryQueueAccounting (pid : Nat)
  /-- `QUERY_SEQUENCE` (R155): A QUERY of kind 0x01 returns the state record of the sequence named by OBJECT. -/
  | querySequence (pid : Nat)
  /-- `QUERY_QUOTA_USE` (R197): A QUERY of kind 0x02 returns the function's quotas and use. -/
  | queryQuotaUse (pid : Nat)
  /-- `WEIGHT_CHUNK` (R280): A WEIGHT_CHUNK packet stores one piece of a Season image and weight package for a load. -/
  | weightChunk (pid : Nat)
  /-- `RESERVED_OPCODE_PACKET` (R146): A packet with a reserved opcode completes MALFORMED, DETAIL 0x01, and puts the queue pair in Error. -/
  | reservedOpcodePacket (f qp : Nat)
  /-- `CQ_RECORD_WRITE` (R77): When the CQ has room, the QFE writes the next completion record from the outbox and announces it. -/
  | cqRecordWrite (f qp : Nat)
  /-- `CQ_MOD_TIMER` (R74): TIME calendar ticks after the first unsignalled record, the CQ's vector message is sent. -/
  | cqModTimer (f qp : Nat)
  /-- `SIGNAL_ACK_TIMEOUT` (R126): A fabric signal not acknowledged within 1,000 calendar ticks raises a signal-lost notice. -/
  | signalAckTimeout (sigTag : Nat)
  /-- `PACKET_TIMEOUT` (R131): A packet's per-queue timer reaching T ends it with TIMEOUT, and kills its job if its work was admitted. -/
  | packetTimeout (pid : Nat)
  /-- `STEP_LIMIT_EXPIRY` (R134): A job step or solver problem running past DEVICE_STEP_LIMIT is killed or ended with TIMEOUT, DETAIL 0x03. -/
  | stepLimitExpiry (job : Nat)
  /-- `NOTIFY_RECORD_TIMEOUT` (R219): A NOTIFY record that finds no CQ room within 1,000 calendar ticks is discarded and counted. -/
  | notifyRecordTimeout (f qp : Nat)
  /-- `ADMISSION_CLOSE` (R158): At a service's admission close, the step builder ranks candidates and admits, defers or refuses each. -/
  | admissionClose (job : Nat)
  /-- `WORK_LIST_BUILT` (R170): The step builder finishes writing the step's work list, header last. -/
  | workListBuilt (job : Nat)
  /-- `STEP_BUILDER_BOUND_MISSED` (R183): A work list not written within the bound is treated as a hang of a shared engine. -/
  | stepBuilderBoundMissed (job : Nat)
  /-- `PLANNED_ACTION` (R27): A job's running cycles reach the Season offset of a planned action, which the device issues. -/
  | plannedAction (job : Nat) (a : PlannedAction)
  /-- `PLANNED_TRANSFER_START` (R479): A transfer-schedule entry starts a planned transfer at its step offset. -/
  | plannedTransferStart (job idx : Nat)
  /-- `LAYER_BOUNDARY` (R291): A job reaches the end of a layer, where the device picks the job to run next and handles step-boundary work. -/
  | layerBoundary (job : Nat)
  /-- `JOB_SWITCH_DONE` (R292): A switch between jobs completes after saving and restoring tile contexts, and the incoming job runs. -/
  | jobSwitchDone (job : Nat)
  /-- `WAKE` (R661): A WAKE action of the wake schedule makes a tile Awake within 3,000 grid cycles. -/
  | wake (job idx : Nat)
  /-- `GATE` (R662): A GATE action of the wake schedule makes a tile Dormant, deferred while a non-waiting instruction runs. -/
  | gate (job idx : Nat)
  /-- `COLUMN_ON` (R661): A COLUMN_ON action powers a column, whose tiles become Dormant with cleared store. -/
  | columnOn (job idx : Nat)
  /-- `COLUMN_OFF` (R661): A COLUMN_OFF action powers a column down once the quiet condition holds. -/
  | columnOff (job idx : Nat)
  /-- `COLUMN_POWER_GOOD` (R661): A column reports power-good, and its tiles become Dormant. -/
  | columnPowerGood (col : Nat)
  /-- `COLUMN_POWER_GOOD_TIMEOUT` (R680): A column without power-good 60,000 grid cycles after COLUMN_ON ends the job and sets the column to Retire pending. -/
  | columnPowerGoodTimeout (col : Nat)
  /-- `QUIET_LATE` (R671): A COLUMN_OFF whose quiet condition fails to hold within 4,096 grid cycles is abandoned for the step. -/
  | quietLate (col : Nat)
  /-- `POWER_DOMAIN_OFF` (R670): After the quiet condition has held for one grid cycle, the device switches a power domain off. -/
  | powerDomainOff (d : PowerDomain) (ok : Bool)
  /-- `ADD` (R379): ADD writes ra + rb to rd. -/
  | add (t : Nat) (u : Upset)
  /-- `SUB` (R379): SUB writes ra − rb to rd. -/
  | sub (t : Nat) (u : Upset)
  /-- `AND` (R379): AND writes the bitwise and of ra and rb. -/
  | and (t : Nat) (u : Upset)
  /-- `OR` (R379): OR writes the bitwise or of ra and rb. -/
  | or (t : Nat) (u : Upset)
  /-- `XOR` (R379): XOR writes the bitwise exclusive or of ra and rb. -/
  | xor (t : Nat) (u : Upset)
  /-- `SHL` (R379): SHL shifts ra left by rb[5:0]. -/
  | shl (t : Nat) (u : Upset)
  /-- `SHR` (R379): SHR shifts ra right, logically, by rb[5:0]. -/
  | shr (t : Nat) (u : Upset)
  /-- `SRA` (R379): SRA shifts ra right, arithmetically, by rb[5:0]. -/
  | sra (t : Nat) (u : Upset)
  /-- `MUL` (R379): MUL writes the low 64 bits of ra × rb. -/
  | mul (t : Nat) (u : Upset)
  /-- `MULHU` (R379): MULHU writes the high 64 bits of the unsigned product. -/
  | mulhu (t : Nat) (u : Upset)
  /-- `SLT` (R379): SLT writes whether ra < rb, signed. -/
  | slt (t : Nat) (u : Upset)
  /-- `SLTU` (R379): SLTU writes whether ra < rb, unsigned. -/
  | sltu (t : Nat) (u : Upset)
  /-- `MIN` (R379): MIN writes the signed minimum of ra and rb. -/
  | min (t : Nat) (u : Upset)
  /-- `MAX` (R379): MAX writes the signed maximum of ra and rb. -/
  | max (t : Nat) (u : Upset)
  /-- `MINU` (R379): MINU writes the unsigned minimum of ra and rb. -/
  | minu (t : Nat) (u : Upset)
  /-- `MAXU` (R379): MAXU writes the unsigned maximum of ra and rb. -/
  | maxu (t : Nat) (u : Upset)
  /-- `ADDI` (R380): ADDI adds the sign-extended IMM16 to ra. -/
  | addi (t : Nat) (u : Upset)
  /-- `ANDI` (R380): ANDI ands ra with the zero-extended IMM16. -/
  | andi (t : Nat) (u : Upset)
  /-- `ORI` (R380): ORI ors ra with the zero-extended IMM16. -/
  | ori (t : Nat) (u : Upset)
  /-- `XORI` (R380): XORI takes the exclusive or of ra with the zero-extended IMM16. -/
  | xori (t : Nat) (u : Upset)
  /-- `SHLI` (R379): SHLI shifts ra left by IMM16[5:0]. -/
  | shli (t : Nat) (u : Upset)
  /-- `SHRI` (R379): SHRI shifts ra right, logically, by IMM16[5:0]. -/
  | shri (t : Nat) (u : Upset)
  /-- `SRAI` (R379): SRAI shifts ra right, arithmetically, by IMM16[5:0]. -/
  | srai (t : Nat) (u : Upset)
  /-- `MOVI` (R380): MOVI writes the sign-extended IMM16 to rd. -/
  | movi (t : Nat) (u : Upset)
  /-- `MOVHI` (R380): MOVHI computes rd = (rd << 16) | IMM16. -/
  | movhi (t : Nat) (u : Upset)
  /-- `SLTI` (R380): SLTI writes whether ra < the sign-extended IMM16. -/
  | slti (t : Nat) (u : Upset)
  /-- `LD` (R383): LD loads 8 bytes from tile store, consuming them. -/
  | ld (t : Nat) (u : Upset)
  /-- `LW` (R382): LW loads 4 bytes, zero-extended. -/
  | lw (t : Nat) (u : Upset)
  /-- `LH` (R382): LH loads 2 bytes, zero-extended. -/
  | lh (t : Nat) (u : Upset)
  /-- `LB` (R382): LB loads 1 byte, zero-extended. -/
  | lb (t : Nat) (u : Upset)
  /-- `ST` (R381): ST stores 8 bytes of rd to tile store. -/
  | st (t : Nat) (u : Upset)
  /-- `SW` (R381): SW stores 4 bytes of rd. -/
  | sw (t : Nat) (u : Upset)
  /-- `SH` (R381): SH stores 2 bytes of rd. -/
  | sh (t : Nat) (u : Upset)
  /-- `SB` (R381): SB stores 1 byte of rd. -/
  | sb (t : Nat) (u : Upset)
  /-- `BEQ` (R384): BEQ branches when rd equals ra. -/
  | beq (t : Nat) (u : Upset)
  /-- `BNE` (R384): BNE branches when rd differs from ra. -/
  | bne (t : Nat) (u : Upset)
  /-- `BLT` (R384): BLT branches when rd < ra, signed. -/
  | blt (t : Nat) (u : Upset)
  /-- `BGE` (R384): BGE branches when rd ≥ ra, signed. -/
  | bge (t : Nat) (u : Upset)
  /-- `BLTU` (R384): BLTU branches when rd < ra, unsigned. -/
  | bltu (t : Nat) (u : Upset)
  /-- `BGEU` (R384): BGEU branches when rd ≥ ra, unsigned. -/
  | bgeu (t : Nat) (u : Upset)
  /-- `J` (R384): J jumps by IMM26 instructions. -/
  | j (t : Nat) (u : Upset)
  /-- `CALL` (R329): CALL allocates the next window, passes arguments and jumps by IMM26. -/
  | call (t : Nat) (u : Upset)
  /-- `CALLR` (R385): CALLR calls the address in ra. -/
  | callr (t : Nat) (u : Upset)
  /-- `JR` (R384): JR jumps to the address in ra. -/
  | jr (t : Nat) (u : Upset)
  /-- `RET` (R329): RET returns results and continues at w15 of the window it leaves. -/
  | ret (t : Nat) (u : Upset)
  /-- `TRET` (R331): TRET returns from the trap window and completes the trapping CALL or RET. -/
  | tret (t : Nat) (u : Upset)
  /-- `NOP` (R376): The NOP instruction does nothing for one grid cycle. -/
  | nop (t : Nat) (u : Upset)
  /-- `LOCK` (R340): LOCK opens a locked sequence. -/
  | lock (t : Nat) (u : Upset)
  /-- `UNLOCK` (R342): UNLOCK applies the buffered stores and semaphore changes of a locked sequence at once. -/
  | unlock (t : Nat) (u : Upset)
  /-- `SYNC` (R431): SYNC waits until every earlier posted operation of the tile has been acknowledged. -/
  | sync (t : Nat) (u : Upset)
  /-- `WAITCYC` (R390): WAITCYC waits until the job's step offset reaches ra. -/
  | waitcyc (t : Nat) (u : Upset)
  /-- `WAITCYC_S` (R391): WAITCYC.S waits as WAITCYC does, and faults when the offset has already passed ra. -/
  | waitcycS (t : Nat) (u : Upset)
  /-- `RDOFF` (R327): RDOFF returns the job's step offset in running cycles. -/
  | rdoff (t : Nat) (u : Upset)
  /-- `RDSTEP` (R327): RDSTEP returns the job's step number. -/
  | rdstep (t : Nat) (u : Upset)
  /-- `RDID` (R327): RDID returns the tile's logical name. -/
  | rdid (t : Nat) (u : Upset)
  /-- `RDJOB` (R327): RDJOB returns the job number. -/
  | rdjob (t : Nat) (u : Upset)
  /-- `SPILLW` (R386): SPILLW stores one window to tile store in the trap window. -/
  | spillw (t : Nat) (u : Upset)
  /-- `FILLW` (R387): FILLW loads one window from tile store in the trap window. -/
  | fillw (t : Nat) (u : Upset)
  /-- `SRR` (R392): SRR reads a special register, applying the clear of its RC fields. -/
  | srr (t : Nat) (u : Upset)
  /-- `SRW` (R393): SRW writes TILE_FPCR or clears TILE_STATUS.LOCK_ABORTED. -/
  | srw (t : Nat) (u : Upset)
  /-- `SEM_INC` (R347): SEM.INC adds n to a local semaphore. -/
  | semInc (t : Nat) (u : Upset)
  /-- `SEM_ACQ` (R347): SEM.ACQ waits until a local semaphore holds at least n, then subtracts n. -/
  | semAcq (t : Nat) (u : Upset)
  /-- `SEM_TRY` (R347): SEM.TRY subtracts n when it can and returns 0 or 1. -/
  | semTry (t : Nat) (u : Upset)
  /-- `SEM_INCR` (R396): SEM.INCR posts an increment to another tile's semaphore over the UC. -/
  | semIncr (t : Nat) (u : Upset)
  /-- `SEND` (R350): SEND takes a credit of the channel and sends a message. -/
  | send (t : Nat) (u : Upset)
  /-- `RECV` (R353): RECV waits for a message on a channel and returns its slot address. -/
  | recv (t : Nat) (u : Upset)
  /-- `RELEASE` (R353): RELEASE returns a message slot and sends its credit back to the sender. -/
  | release (t : Nat) (u : Upset)
  /-- `CRED_BORROW` (R354): CRED.BORROW borrows a credit from another channel of the tile. -/
  | credBorrow (t : Nat) (u : Upset)
  /-- `CRED_RETURN` (R398): CRED.RETURN gives a borrowed credit back to its lending channel. -/
  | credReturn (t : Nat) (u : Upset)
  /-- `WATCH` (R399): WATCH reads a parameter slot until its first word equals rb, then copies it into tile store. -/
  | watch (t : Nat) (u : Upset)
  /-- `PREAD` (R400): PREAD copies a parameter slot into tile store. -/
  | pread (t : Nat) (u : Upset)
  /-- `PWRITE` (R401): PWRITE posts a 64-byte write to a parameter slot. -/
  | pwrite (t : Nat) (u : Upset)
  /-- `BLK` (R334): BLK checks a block-operation descriptor and starts the block operation. -/
  | blk (t : Nat) (u : Upset)
  /-- `XFER` (R480): XFER hands a transfer descriptor to the tile transfer unit. -/
  | xfer (t : Nat) (u : Upset)
  /-- `OUTBOX_POST` (R359): OUTBOX.POST hands a result descriptor to the outbox for the owning queue pair's QFE. -/
  | outboxPost (t : Nat) (u : Upset)
  /-- `VADD` (R405): VADD adds two vector registers lane by lane. -/
  | vadd (t : Nat) (u : Upset)
  /-- `VSUB` (R405): VSUB subtracts two vector registers lane by lane. -/
  | vsub (t : Nat) (u : Upset)
  /-- `VMUL` (R405): VMUL multiplies two vector registers lane by lane. -/
  | vmul (t : Nat) (u : Upset)
  /-- `VFMA` (R405): VFMA computes va × vb + vd lane by lane. -/
  | vfma (t : Nat) (u : Upset)
  /-- `VMAX` (R405): VMAX takes the lane-wise maximum. -/
  | vmax (t : Nat) (u : Upset)
  /-- `VMIN` (R405): VMIN takes the lane-wise minimum. -/
  | vmin (t : Nat) (u : Upset)
  /-- `VEXP` (R405): VEXP computes the exponential of each lane. -/
  | vexp (t : Nat) (u : Upset)
  /-- `VLOG` (R405): VLOG computes the logarithm of each lane. -/
  | vlog (t : Nat) (u : Upset)
  /-- `VRSQ` (R405): VRSQ computes the reciprocal square root of each lane. -/
  | vrsq (t : Nat) (u : Upset)
  /-- `VCVTI` (R405): VCVTI converts FP32 lanes to INT32. -/
  | vcvti (t : Nat) (u : Upset)
  /-- `VCVTF` (R405): VCVTF converts INT32 lanes to FP32. -/
  | vcvtf (t : Nat) (u : Upset)
  /-- `VBCAST` (R405): VBCAST copies rs[31:0] into every lane. -/
  | vbcast (t : Nat) (u : Upset)
  /-- `VREDSUM` (R408): VREDSUM sums the 64 lanes in a fixed tree into rs. -/
  | vredsum (t : Nat) (u : Upset)
  /-- `VREDMAX` (R408): VREDMAX takes the maximum of the 64 lanes in a fixed tree. -/
  | vredmax (t : Nat) (u : Upset)
  /-- `VIADD` (R405): VIADD adds INT32 lanes. -/
  | viadd (t : Nat) (u : Upset)
  /-- `VIMUL` (R405): VIMUL multiplies INT32 lanes, low 32 bits. -/
  | vimul (t : Nat) (u : Upset)
  /-- `VLD` (R406): VLD loads and converts a vector from tile store. -/
  | vld (t : Nat) (u : Upset)
  /-- `VST` (R406): VST converts and stores a vector to tile store. -/
  | vst (t : Nat) (u : Upset)
  /-- `WAIT_CONDITION_MET` (R388): The condition of a waiting instruction comes to hold, and the instruction runs its cycle count. -/
  | waitConditionMet (t : Nat) (u : Upset)
  /-- `ROW_GROUP_END` (R336): A block operation finishes a row group, writes its rows, updates ROWS_DONE and takes any pending halt or fault. -/
  | rowGroupEnd (t : Nat) (u : Upset)
  /-- `TRANSFER_REQUEST` (R479): A transfer unit issues the next translated request of a transfer in flight. -/
  | transferRequest (tag : Nat) (walkerUe : Bool)
  /-- `TRANSFER_RESPONSE` (R481): A response to a transfer request advances DONE_BYTES, and the last one notifies the semaphore and returns the tag. -/
  | transferResponse (tag : Nat) (r : XferResult)
  /-- `TRANSFER_NO_RESPONSE` (R485): No response within 65,536 grid cycles of a request kills the job with JOB_LOST, DETAIL 0x03. -/
  | transferNoResponse (tag : Nat)
  /-- `PAGE_TABLE_UPDATE` (R469): A CP change of a page-table entry completes old accesses and then invalidates cached copies. -/
  | pageTableUpdate (part : Nat) (dva : Nat) (pte : BitVec 64)
  /-- `HOLD_REPAIRED` (R487): When every recorded fault is repaired, stopped transfers restart and running cycles resume. -/
  | holdRepaired (part : Nat)
  /-- `HOLD_LIMIT` (R488): A Hold lasting 10,000 calendar ticks kills jobs with unrepaired faults and ends the Hold. -/
  | holdLimit (part : Nat)
  /-- `STACK_CHANNEL_FAIL` (R504): A failed stack channel returns poison for every read and discards writes. -/
  | stackChannelFail (ch : Nat)
  /-- `STACK_REFRESH` (R466): The stack controller refreshes a channel in an unowned gap, or at once when the forced interval has passed. -/
  | stackRefresh (ch : Nat)
  /-- `WATCH_REREAD` (R475): A WATCH without a watch entry re-reads its slot every 1,024 grid cycles. -/
  | watchReread (t : Nat)
  /-- `UC_WRITE` (R431): A UC WRITE request reaches its target and is answered with one response. -/
  | ucWrite (p : UcPacket)
  /-- `UC_READ` (R431): A UC READ request reaches its target and is answered with read data or a NACK. -/
  | ucRead (p : UcPacket)
  /-- `UC_READ_DATA` (R431): Read data returns to the requester. -/
  | ucReadData (p : UcPacket)
  /-- `UC_SEM_INC` (R367): A UC semaphore increment reaches a tile and adds to the semaphore. -/
  | ucSemInc (p : UcPacket)
  /-- `UC_CHAN_MSG` (R351): An unplanned channel message reaches the receiving tile's queue. -/
  | ucChanMsg (p : UcPacket)
  /-- `UC_CHAN_CREDIT` (R353): A returned channel credit reaches the sender. -/
  | ucChanCredit (p : UcPacket)
  /-- `UC_ACK` (R431): An acknowledgement reaches the requester. -/
  | ucAck (p : UcPacket)
  /-- `UC_NACK` (R458): A NACK reaches its requester, which acts by requester kind and NACK code. -/
  | ucNack (p : UcPacket)
  /-- `UC_CFG_READ` (R431): A configuration read reaches its target register. -/
  | ucCfgRead (p : UcPacket)
  /-- `UC_CFG_WRITE` (R431): A configuration write reaches its target register. -/
  | ucCfgWrite (p : UcPacket)
  /-- `UC_CFG_DATA` (R431): Configuration read data returns to the requester. -/
  | ucCfgData (p : UcPacket)
  /-- `HALF_LINK_DOWN` (R459): A Half Link end losing training sets STATE Down and is treated as a shared-engine hang. -/
  | halfLinkDown
  /-- `MONTH_BOUNDARY` (R926): At each Month boundary, the device audits every book and updates the Month-based counts. -/
  | monthBoundary
  /-- `SLOT_SEND` (R509): Every 60 grid cycles, each Up port sends one slot: planned, unplanned frames, SILENT or IDLE. -/
  | slotSend (port : Nat) (supplied : Bool)
  /-- `SLOT_RECEIVE` (R515): A received slot's payload is written to its receive entry's buffer, or counted silent. -/
  | slotReceive (port : Nat) (s : FabSlot)
  /-- `EQUINOX` (R521): An Equinox from the upstream port is measured and the Month phase slewed towards zero. -/
  | equinox (skew : Int) (dm : Nat)
  /-- `EQUINOX_MISSED` (R525): Two consecutive missing Equinoxes on the upstream port select a new upstream port. -/
  | equinoxMissed
  /-- `ADRIFT` (R526): No Equinox on any Member port for 4 periods puts the device Adrift and kills slot-owning jobs. -/
  | adrift
  /-- `SIGNAL_FRAME` (R536): An arriving SIGNAL frame increments a granted device semaphore and is acknowledged. -/
  | signalFrame (port : Nat) (fr : Frame)
  /-- `SIGNAL_ACK` (R538): An arriving SIGNAL_ACK settles an issued signal, raising signal-lost when denied. -/
  | signalAck (port : Nat) (fr : Frame)
  /-- `SEM_READ` (R540): An arriving SEM_READ is answered with SEM_DATA or a denial. -/
  | semRead (port : Nat) (fr : Frame)
  /-- `SEM_DATA` (R540): An arriving SEM_DATA frame is taken by the device. -/
  | semData (port : Nat) (fr : Frame)
  /-- `ALM_CTRL` (R527): An ALM_CTRL frame carries join, leave and hop-count information of the Almanac. -/
  | almCtrl (port : Nat) (fr : Frame)
  /-- `DELAY_REQ` (R711): A DELAY_REQ frame is answered for delay measurement. -/
  | delayReq (port : Nat) (fr : Frame)
  /-- `DELAY_RSP` (R711): A DELAY_RSP frame sets the port's measured delay. -/
  | delayRsp (port : Nat) (fr : Frame)
  /-- `PORT_UP` (R711): A fabric port completes training and becomes Up. -/
  | portUp (port delay : Nat) (foreign : Bool)
  /-- `PORT_DOWN` (R553): A fabric port loses lock or training, goes Down and counts its slots silent. -/
  | portDown (port : Nat)
  /-- `PARTNER_CALL` (R708): A partner's call on a port in Listen is answered within the port's answer window. -/
  | partnerCall (port : Nat)
  /-- `ANSWER_WINDOW` (R707): An answer window of a Listen port opens, and the port answers a present call. -/
  | answerWindow (port : Nat)
  /-- `TRAINING_TIMEOUT` (R709): A port not Up within 500 ms of starting training returns to Listen. -/
  | trainingTimeout (port : Nat)
  /-- `TILE_SOLVER_REQUEST` (R587): A tile's solver request message is accepted as a problem or refused with a reply. -/
  | tileSolverRequest (p : UcPacket)
  /-- `PROBLEM_START` (R582): When a context is free, the solver starts the highest-ranked queued problem and writes its delta. -/
  | problemStart (h : Nat)
  /-- `SOLVER_UNIT` (R581): A solve engine completes one unit of a context, and the last unit returns the result. -/
  | solverUnit (h ctx : Nat) (ue : Option Nat)
  /-- `SOLVER_DEADLINE` (R573): A problem's deadline falls, and the best iterate is returned with PARTIAL. -/
  | solverDeadline (h ctx : Nat)
  /-- `SOLVER_HANG` (R598): A unit running 65,536 grid cycles past its count is treated as a shared-engine hang. -/
  | solverHang (h ctx : Nat)
  /-- `SOURCE_EDGE` (R606): A rising edge of an edge-mode INTC source makes it pending, merges, or is lost. -/
  | sourceEdge (h tgt src : Nat)
  /-- `LEVEL_INPUT_CHANGE` (R609): A level-mode INTC input is asserted or withdrawn. -/
  | levelInputChange (h tgt src : Nat) (active : Bool)
  /-- `INTC_CLAIM` (R614): A CP read of INTC_CLAIM returns and puts in service the lowest eligible source, or 1023. -/
  | intcClaim (h tgt : Nat)
  /-- `INTC_COMPLETE` (R618): A CP write of INTC_COMPLETE ends the service of the named source, or is ignored and logged. -/
  | intcComplete (h tgt num : Nat)
  /-- `INTC_SRC` (R611): A write to a source's INTC_SRC changes its configuration, discards pending edges on disable and clears AUTOMASKED. -/
  | intcSrc (h tgt src : Nat) (w : BitVec 32)
  /-- `HOLDOFF_END` (R623): A group's REMAIN reaches 0, and its sources become eligible again. -/
  | holdoffEnd (h g : Nat)
  /-- `WAKE_LATCH` (R628): An armed wake source rises while the INTC clock is stopped, is latched, and begins Spring in Winter. -/
  | wakeLatch (h src : Nat)
  /-- `L1_2_EXIT` (R655): The PCIe link leaving L1.2 in Winter is a wake event that begins Spring. -/
  | l12Exit
  /-- `SUMMER_REACHED` (R655): At the end of Spring, staged images are reinstalled and the device enters Summer. -/
  | summerReached (facts : List (Nat × InstallFacts))
  /-- `WINTER_ENTRY` (R650): When every job has ended and domains are quiet, the device leaves its domain and enters Winter. -/
  | winterEntry
  /-- `DRAIN_GRACE_EXPIRY` (R307): When a drain's grace expires, remaining work ends with PARTITION_DRAINING and the jobs end. -/
  | drainGraceExpiry (part : Nat)
  /-- `THERMAL_ALERT` (R673): A die crossing its alert temperature asserts ALERT# and writes a HEALTH notice. -/
  | thermalAlert (die temp : Nat)
  /-- `THERMAL_TRIP` (R915): A die reaching its trip temperature stops every clock and asserts THERMTRIP#. -/
  | thermalTrip (die temp : Nat)
  /-- `RAIL_EXCURSION` (R922): A rail outside tolerance for more than 10 µs sets PWR_RAILS and may cause a shared-engine hang. -/
  | railExcursion (rail : Nat)
  /-- `REFCLK_LOST` (R923): REFCLK absent for 10 µs begins a PERST# reset held until REFCLK returns. -/
  | refclkLost
  /-- `REGULATOR_REFILL` (R313): Each calendar tick adds tokens to a regulator, releasing transfers held for tokens. -/
  | regulatorRefill (part res : Nat)
  /-- `SHADOW_COMPARE` (R737): After a compared shadow layer, the device compares pair digests and kills the job on mismatch. -/
  | shadowCompare (job : Nat)
  /-- `PROBE_ROUND_START` (R743): In a probe window, the device starts a probe round on a tile and its checkers. -/
  | probeRoundStart (t pkg : Nat)
  /-- `PROBE_ROUND_END` (R742): When all three digests of a round are known, the device applies the verdict. -/
  | probeRoundEnd (t : Nat) (own c1 c2 : BitVec 64)
  /-- `PROBE_ROUND_TIMEOUT` (R765): A round not finished within 2 × ROUND_CYCLES counts as failed. -/
  | probeRoundTimeout (t : Nat)
  /-- `PROBE_TIMEOUT` (R745): 10,000,000 calendar ticks after acceptance, a PROBE ends and counts unreached tiles. -/
  | probeTimeout (op : Nat)
  /-- `OBSERVATION_TEST` (R748): Every INTERVAL_S seconds, an Observed tile runs an observation test, or counts it missed. -/
  | observationTest (t : Nat) (ran fails : Bool)
  /-- `OBSERVATION_PERIOD_END` (R753): An observation period ending with fewer than 3 failures makes the tile Normal. -/
  | observationPeriodEnd (t : Nat)
  /-- `HEARTBEAT` (R773): CP firmware increments its PWR_HEARTBEAT field. -/
  | heartbeat (cp : Nat)
  /-- `HEARTBEAT_CHECK` (R774): Every 16,000 calendar ticks the monitor checks each CP's heartbeat, counting misses and declaring stalls. -/
  | heartbeatCheck
  /-- `CP_RESTART_END` (R794): The restarted CP's first heartbeat ends the CP restart. -/
  | cpRestartEnd (cp : Nat)
  /-- `CP_RESTART_TIMEOUT` (R771): A CP restart not complete within 200,000 calendar ticks begins a warm device reset. -/
  | cpRestartTimeout (cp : Nat)
  /-- `QUEUE_RESET_COMPLETE` (R780): When old-epoch ring reads have ended, the queue pair is reset to Active or Disabled, or removed. -/
  | queueResetComplete (f qp : Nat)
  /-- `JOB_KILL_COMPLETE` (R782): When the job's tasks have halted and transfers and positions are returned, the kill completes with JOB_ENDED. -/
  | jobKillComplete (job : Nat)
  /-- `KILL_ESCALATION` (R783): A kill not complete after 50,000 calendar ticks begins a partition reset. -/
  | killEscalation (job : Nat)
  /-- `PARTITION_RESET_END` (R784): The end of a partition reset reinstalls the staged image or leaves the partition Empty. -/
  | partitionResetEnd (part : Nat)
  /-- `PARTITION_RESET_TIMEOUT` (R785): A partition reset not past its pre-reinstall steps within 50,000 calendar ticks begins a warm device reset. -/
  | partitionResetTimeout (part : Nat)
  /-- `QFE_HANG` (R797): A QFE holding a fetch slot or record for 100,000 calendar ticks without progress is treated as hung. -/
  | qfeHang (qfe : Nat)
  /-- `WARM_DEVICE_RESET` (R799): A warm device reset begins its flush phase, ending jobs and writing DEVICE_RESET records. -/
  | warmDeviceReset (cause unit index : Nat)
  /-- `FLUSH_PHASE_END` (R800): At the end of the flush phase, the device captures a dump and performs the warm start. -/
  | flushPhaseEnd
  /-- `SP_WATCHDOG` (R861): A security processor not answering its watchdog is treated as a shared-engine hang. -/
  | spWatchdog
  /-- `SEASON_INSTALL` (R281): With every granule received and the key imported, the device checks, verifies and installs the Season. -/
  | seasonInstall (load : Nat) (facts : InstallFacts)
  /-- `MGMT_QUEUE_TIMEOUT` (R255): A queued management command not started within 10,000 calendar ticks returns STARTED and runs as a long operation. -/
  | mgmtQueueTimeout (op : Nat)
  /-- `DUMP_CAPTURE_END` (R803): A capture finishes writing sections and header and sets VALID. -/
  | dumpCaptureEnd
  /-- `TURNOVER_COMPLETE` (R839): After kills and scrubs, the epoch is incremented and tenant turnover ends with SUCCESS. -/
  | turnoverComplete (epochOk : Bool) (badChannels : List Nat)
  /-- `GO` (R225): Writing MB_CTRL.GO in Idle or Done takes the request and sets STATE Busy. -/
  | go (mb : Mbox)
  /-- `ACK` (R230): Writing MB_CTRL.ACK in Done sets STATE Idle. -/
  | ack (mb : Mbox)
  /-- `MB_NOTICE_HEAD` (R266): A write of MB_NOTICE_HEAD in range consumes notice entries. -/
  | mbNoticeHead (mb : Mbox) (val : Nat)
  /-- `CP_REQ` (R887): Writing a bit of DBG_CTRL.CP_REQ raises source 6 at that CP, which captures a dump. -/
  | cpReq (cp : Nat)
  /-- `REGISTER_WRITE` (R11): A write to a register without a row of its own acts by its field types. -/
  | registerWrite (a : RegAccess)
  /-- `MISALIGNED_ACCESS` (R12): A register access that is not a naturally aligned 32- or 64-bit access is discarded or reads 0 and is logged. -/
  | misalignedAccess (a : RegAccess)
  /-- `LOW_HALF_READ` (R13): A 32-bit read of a 64-bit register's low half latches the high half and applies RC clears. -/
  | lowHalfRead (a : RegAccess)
  /-- `HIGH_HALF_READ` (R15): A 32-bit read of the high half returns the latched or current value. -/
  | highHalfRead (a : RegAccess)
  /-- `LOW_HALF_WRITE` (R16): A 32-bit write of a 64-bit register's low half is held. -/
  | lowHalfWrite (a : RegAccess)
  /-- `HIGH_HALF_WRITE` (R14): A 32-bit write of the high half applies the whole register, or is discarded without a held low half. -/
  | highHalfWrite (a : RegAccess)
  /-- `MB_NOTICE_LOST_READ` (R11): A read of MB_NOTICE_LOST returns and clears the count. -/
  | mbNoticeLostRead (mb : Mbox)
  /-- `SEQ_BUILD_READ` (R11): A read of SEQ_BUILD0 or SEQ_BUILD1 returns and clears BUILD_MAX. -/
  | seqBuildRead (h : Nat)
  /-- `PART_SWITCH_MAX_READ` (R11): A read of PART_SWITCH_MAX returns and clears WAIT_MAX. -/
  | partSwitchMaxRead (part : Nat)
  /-- `PART_UC_NACK_READ` (R11): A read of PART_UC_NACK returns and clears its counts. -/
  | partUcNackRead (part : Nat)
  /-- `PART_HOLD_READ` (R11): A read of PART_HOLD returns and clears its counts. -/
  | partHoldRead (part : Nat)
  /-- `PART_MEMERR_READ` (R11): A read of PART_MEMERR returns and clears CE and UE. -/
  | partMemerrRead (part : Nat)
  /-- `PART_SHADOW_STATS_READ` (R11): A read of PART_SHADOW_STATS returns and clears its counts. -/
  | partShadowStatsRead (part : Nat)
  /-- `FAB_HL_ERR_READ` (R11): A read of FAB_HL_ERR returns and clears its counts. -/
  | fabHlErrRead
  /-- `FAB_MESH_NACK_READ` (R11): A read of FAB_MESH_NACKh returns and clears its counts. -/
  | fabMeshNackRead (h : Nat)
  /-- `FAB_MESH_ERR_READ` (R11): A read of FAB_MESH_ERRh returns and clears its counts. -/
  | fabMeshErrRead (h : Nat)
  /-- `FAB_PORT_ERR_READ` (R11): A read of FAB_PORTn_ERR returns and clears its counts. -/
  | fabPortErrRead (port : Nat)
  /-- `FAB_ALM_SKEW_READ` (R11): A read of FAB_ALM_SKEW returns and clears MAX. -/
  | fabAlmSkewRead
  /-- `FAB_JOB_SILENT_READ` (R11): A read of FAB_JOB_SILENTj returns and clears TOTAL. -/
  | fabJobSilentRead (job : Nat)
  /-- `SEQ_SOLVER_STATS_READ` (R11): A read of SEQ_SOLVER_STATSh returns and clears its counts. -/
  | seqSolverStatsRead (h : Nat)
  /-- `SEQ_SOLVER_MAX_READ` (R11): A read of SEQ_SOLVER_MAXh returns and clears LATENCY. -/
  | seqSolverMaxRead (h : Nat)
  /-- `INTC_LOST_COUNT_READ` (R11): A CP read of INTC_LOST_COUNT returns and clears the count. -/
  | intcLostCountRead (h : Nat)
  /-- `INTC_SPURIOUS_READ` (R11): A CP read of INTC_SPURIOUS returns and clears the count. -/
  | intcSpuriousRead (h tgt : Nat)
  /-- `PWR_STATS_READ` (R11): A read of PWR_STATS returns and clears its counts. -/
  | pwrStatsRead
  /-- `PWR_THERMAL_READ` (R11): A read of PWR_THERMAL returns and clears MAX. -/
  | pwrThermalRead
  /-- `PWR_START_READ` (R11): A read of PWR_START returns and clears EARLY_WRITES. -/
  | pwrStartRead
  /-- `PWR_AUDIT_READ` (R11): A read of PWR_AUDIT returns and clears FAILURES. -/
  | pwrAuditRead
  /-- `SEC_VIOLATION_READ` (R11): A read of SEC_VIOLATION returns and clears COUNT. -/
  | secViolationRead
  /-- `DBG_TRACE_PTR_READ` (R11): A read of DBG_TRACE_PTR returns and clears LOST. -/
  | dbgTracePtrRead
  /-- `IDENTIFY` (R48): IDENTIFY returns the likeness, serial and firmware versions, or the LQI version to a VF. -/
  | identify (mb : Mbox)
  /-- `STATUS` (R705): STATUS returns readiness, power state, partition and job counts and the Month count. -/
  | status (mb : Mbox)
  /-- `DEVICE_RESET` (R251): DEVICE_RESET answers SUCCESS and begins a warm device reset 1,000 calendar ticks later. -/
  | deviceReset (mb : Mbox)
  /-- `POWER_STATE_WINTER` (R645): POWER_STATE with TARGET Winter enters Autumn and drains towards Winter. -/
  | powerStateWinter (mb : Mbox)
  /-- `POWER_STATE_SUMMER` (R675): POWER_STATE with TARGET Summer in Summer returns SUCCESS and changes nothing. -/
  | powerStateSummer (mb : Mbox)
  /-- `OPERATION_STATUS` (R241): OPERATION_STATUS returns the state and final code of a long operation. -/
  | operationStatus (mb : Mbox)
  /-- `NOTICE_MASK` (R246): NOTICE_MASK sets the mailbox's notice mask and returns the previous one. -/
  | noticeMask (mb : Mbox)
  /-- `TIME_READ` (R658): TIME_READ returns the Month count and calendar ticks since readiness. -/
  | timeRead (mb : Mbox)
  /-- `SLICE_READ` (R217): SLICE_READ returns a function's quota record and VF state. -/
  | sliceRead (mb : Mbox)
  /-- `VF_QUOTA` (R198): VF_QUOTA sets VF quotas, optionally reclaiming BE sequences to meet lowered quotas. -/
  | vfQuota (mb : Mbox)
  /-- `VF_RESET` (R204): VF_RESET resets a VF as an FLR does, optionally writing VF_RESET records first. -/
  | vfReset (mb : Mbox)
  /-- `PART_CREATE` (R273): PART_CREATE assigns columns, channels and sequence entries to a new partition. -/
  | partCreate (mb : Mbox)
  /-- `PART_DESTROY` (R269): PART_DESTROY frees a partition's resources, killing jobs first with FORCE. -/
  | partDestroy (mb : Mbox)
  /-- `PART_RESET` (R787): PART_RESET begins a partition reset and returns SPARES_MAPPED. -/
  | partReset (mb : Mbox)
  /-- `PART_DRAIN` (R307): PART_DRAIN refuses new work and lets admitted work run until the grace expires. -/
  | partDrain (mb : Mbox)
  /-- `PART_STATUS` (R249): PART_STATUS returns a partition's state and resources. -/
  | partStatus (mb : Mbox)
  /-- `PART_REGULATE` (R303): PART_REGULATE sets the partition's bandwidth regulators. -/
  | partRegulate (mb : Mbox)
  /-- `SEASON_LOAD` (R276): SEASON_LOAD starts a load of a Season image and weight package into an Empty partition. -/
  | seasonLoad (mb : Mbox)
  /-- `SEASON_UNLOAD` (R283): SEASON_UNLOAD returns a Ready partition to Empty, killing jobs first with FORCE. -/
  | seasonUnload (mb : Mbox)
  /-- `JOB_START` (R284): JOB_START starts a job for the lowest-numbered job entry without one. -/
  | jobStart (mb : Mbox)
  /-- `JOB_KILL` (R315): JOB_KILL kills a job, halting its tasks and ending its work. -/
  | jobKill (mb : Mbox)
  /-- `JOB_MODIFY` (R309): JOB_MODIFY changes a job's priority from the next layer boundary. -/
  | jobModify (mb : Mbox)
  /-- `JOB_STATUS` (R249): JOB_STATUS returns a job's state and counters. -/
  | jobStatus (mb : Mbox)
  /-- `SERVICE_VISIBILITY` (R956): SERVICE_VISIBILITY grants or ends a VF's visibility of a service. -/
  | serviceVisibility (mb : Mbox)
  /-- `SERVICE_POSITIONS` (R156): SERVICE_POSITIONS sets a service's LC reserve and class limits. -/
  | servicePositions (mb : Mbox)
  /-- `SERVICE_WITHDRAW` (R956): SERVICE_WITHDRAW withdraws a service and cancels its queued operations. -/
  | serviceWithdraw (mb : Mbox)
  /-- `SERVICE_LIST` (R957): SERVICE_LIST returns service records visible to the function. -/
  | serviceList (mb : Mbox)
  /-- `QUEUE_CREATE` (R62): QUEUE_CREATE creates a queue pair bound to one QFE. -/
  | queueCreate (mb : Mbox)
  /-- `QUEUE_MODIFY` (R130): QUEUE_MODIFY changes a queue pair's timeout and defer limit. -/
  | queueModify (mb : Mbox)
  /-- `QUEUE_RESET` (R778): QUEUE_RESET stops fetching, increments the queue epoch and sets STATE Resetting. -/
  | queueReset (mb : Mbox)
  /-- `QUEUE_DELETE` (R778): QUEUE_DELETE resets the queue pair and then removes it. -/
  | queueDelete (mb : Mbox)
  /-- `SIGNAL_TARGET` (R145): SIGNAL_TARGET writes signal-target entries of a function. -/
  | signalTarget (mb : Mbox)
  /-- `STEP_LIMIT` (R138): STEP_LIMIT sets DEVICE_STEP_LIMIT, or checks the smallest value allowed. -/
  | stepLimit (mb : Mbox)
  /-- `FETCH_RESERVE` (R65): FETCH_RESERVE sets the LC reserve of QFEs. -/
  | fetchReserve (mb : Mbox)
  /-- `HEALTH_READ` (R730): HEALTH_READ returns tiles' health records. -/
  | healthRead (mb : Mbox)
  /-- `SHADOW_SET` (R735): SHADOW_SET selects a partition's shadow fraction and writes SELECT_SLOT. -/
  | shadowSet (mb : Mbox)
  /-- `PROBE` (R745): PROBE runs probe rounds on named tiles. -/
  | probe (mb : Mbox)
  /-- `OBSERVE_ADD` (R755): OBSERVE with ACTION add puts a tile under observation or restarts its period. -/
  | observeAdd (mb : Mbox)
  /-- `OBSERVE_REMOVE` (R755): OBSERVE with ACTION remove makes an Observed tile Normal. -/
  | observeRemove (mb : Mbox)
  /-- `PATTERN_INSTALL` (R756): PATTERN_INSTALL verifies and installs a pattern package into a slot. -/
  | patternInstall (mb : Mbox)
  /-- `PATTERN_LIST` (R759): PATTERN_LIST returns the installed package records. -/
  | patternList (mb : Mbox)
  /-- `DUMP_CAPTURE` (R802): DUMP_CAPTURE starts a capture of the retained dump. -/
  | dumpCapture (mb : Mbox)
  /-- `DUMP_READ` (R804): DUMP_READ returns bytes of the retained dump. -/
  | dumpRead (mb : Mbox)
  /-- `DUMP_CLEAR` (R802): DUMP_CLEAR releases the held dump. -/
  | dumpClear (mb : Mbox)
  /-- `ERRLOG_READ` (R806): ERRLOG_READ returns up to 15 error-log entries in SEQ order. -/
  | errlogRead (mb : Mbox)
  /-- `CP_RESTART` (R794): CP_RESTART restarts one CP or both CPs of a half. -/
  | cpRestart (mb : Mbox)
  /-- `SPARE_MAP_READ` (R788): SPARE_MAP_READ returns the spare state of each column of a half. -/
  | spareMapRead (mb : Mbox)
  /-- `SEC_STATUS` (R842): SEC_STATUS returns the tenancy epoch, lock-out, debug state and session count. -/
  | secStatus (mb : Mbox)
  /-- `TENANT_TURNOVER` (R839): TENANT_TURNOVER begins handing the device to a new tenant. -/
  | tenantTurnover (mb : Mbox)
  /-- `WEIGHT_KEY_IMPORT` (R835): WEIGHT_KEY_IMPORT unwraps a load's content key from an import blob. -/
  | weightKeyImport (mb : Mbox) (unwraps : Bool)
  /-- `HOST_LOCKOUT` (R848): HOST_LOCKOUT closes or opens command groups to the host. -/
  | hostLockout (mb : Mbox)
  /-- `DEBUG_UNLOCK_CHALLENGE` (R866): DEBUG_UNLOCK STEP 0x00 returns a fresh challenge blob. -/
  | debugUnlockChallenge (mb : Mbox)
  /-- `DEBUG_UNLOCK_RESPONSE` (R867): DEBUG_UNLOCK STEP 0x01 checks the owner's signed response and unlocks debug. -/
  | debugUnlockResponse (mb : Mbox) (sigOk : Bool)
  /-- `DEBUG_RELOCK` (R868): DEBUG_UNLOCK STEP 0x02 relocks debug and resumes stopped partitions. -/
  | debugRelock (mb : Mbox)
  /-- `FW_UPDATE` (R851): FW_UPDATE writes a verified image to the inactive firmware slot, possibly a level raise. -/
  | fwUpdate (mb : Mbox)
  /-- `OWNERSHIP_READ` (R268): OWNERSHIP_READ returns the function-ownership table. -/
  | ownershipRead (mb : Mbox)
  /-- `FAB_STATUS` (R711): FAB_STATUS returns port state records. -/
  | fabStatus (mb : Mbox)
  /-- `FAB_PORT` (R710): FAB_PORT enables or disables a fabric port. -/
  | fabPort (mb : Mbox)
  /-- `ALMANAC_JOIN` (R527): ALMANAC_JOIN joins an Almanac domain, ending once in step. -/
  | almanacJoin (mb : Mbox)
  /-- `ALMANAC_LEAVE` (R530): ALMANAC_LEAVE leaves the domain, killing slot-owning jobs first with FORCE. -/
  | almanacLeave (mb : Mbox)
  /-- `SEMAPHORE_GRANT` (R552): SEMAPHORE_GRANT sets or revokes peers' access to device semaphores. -/
  | semaphoreGrant (mb : Mbox)
  /-- `DBG_HALT` (R870): DBG_HALT begins a debug stop of the named tile's partition. -/
  | dbgHalt (mb : Mbox)
  /-- `TILE_HALT` (R871): A tile asked to halt halts at its next instruction boundary, completing the stop when all have halted. -/
  | tileHalt (t : Nat)
  /-- `LOCK_WAIT` (R872): A tile still in a locked sequence 256 grid cycles after the halt request sets LOCK_WAIT. -/
  | lockWait (t : Nat)
  /-- `HALT_TIMEOUT` (R895): A tile neither halted nor waiting after 8,192 grid cycles is treated as hung and its job killed. -/
  | haltTimeout (t : Nat)
  /-- `BREAKPOINT_HIT` (R878): A tile about to issue a breakpointed instruction begins a debug stop instead. -/
  | breakpointHit (t : Nat)
  /-- `DBG_RESUME` (R875): DBG_RESUME releases a stopped partition, or steps it by n instructions. -/
  | dbgResume (mb : Mbox)
  /-- `DBG_PEEK` (R881): DBG_PEEK returns registers or tile-store words without side effects. -/
  | dbgPeek (mb : Mbox)
  /-- `DBG_TAKE` (R882): DBG_TAKE returns one register value and applies its read effect. -/
  | dbgTake (mb : Mbox)
  /-- `DBG_TRACE` (R886): DBG_TRACE turns tracing of one tile on or off. -/
  | dbgTrace (mb : Mbox)
  /-- `MGMT_HANDSHAKE` (R844): A DTLS handshake on the management port opens a management session. -/
  | mgmtHandshake (chainOk : Bool)
  /-- `REQUEST` (R231): A management REQUEST message carries a mailbox request to the management mailbox. -/
  | request (req : List (BitVec 8))
  /-- `BULK` (R843): A BULK message carries image bytes for FW_UPDATE or PATTERN_INSTALL. -/
  | bulk (op off : Nat) (data : List (BitVec 8)) (facts : ImageFacts)
  /-- `ENROLL` (R846): ENROLL writes the owner record while Unowned with the enrollment strap asserted. -/
  | enroll (key : List (BitVec 8)) (written : Bool)
  /-- `OWNER_UPDATE` (R847): OWNER_UPDATE, signed by the current owner, changes or clears ownership. -/
  | ownerUpdate (key : List (BitVec 8)) (sigOk written : Bool)
  /-- `KEEPALIVE` (R845): A KEEPALIVE message keeps the management session active. -/
  | keepalive
  /-- `KEY_EXCHANGE` (R826): SPDM KEY_EXCHANGE opens an attested session. -/
  | keyExchange
  /-- `GET_MEASUREMENTS` (R825): SPDM GET_MEASUREMENTS returns the device's measurements. -/
  | getMeasurements (idx : Nat)
  /-- `END_SESSION` (R827): SPDM END_SESSION destroys the session's keys and its IDE streams' keys. -/
  | endSession (sess : Nat)
  /-- `SPDM_HEARTBEAT_TIMEOUT` (R827): A missed SPDM heartbeat ends the session. -/
  | spdmHeartbeatTimeout (sess : Nat)
  /-- `IDE_CHECK_FAILED` (R828): A received TLP failing its IDE integrity check is discarded and reported. -/
  | ideCheckFailed (stream : Nat) (qfe slot : Nat)
  /-- `LOCK_INTERFACE` (R830): TDISP LOCK_INTERFACE moves a VF's TDI to CONFIG_LOCKED. -/
  | lockInterface (v stream : Nat)
  /-- `START_INTERFACE` (R829): TDISP START_INTERFACE moves a locked TDI to RUN. -/
  | startInterface (v : Nat)
  /-- `STOP_INTERFACE` (R833): TDISP STOP_INTERFACE returns a TDI to CONFIG_UNLOCKED. -/
  | stopInterface (v : Nat)
  /-- `SET_ENDPOINT_ID` (R853): MCTP Set Endpoint ID sets the device's endpoint ID. -/
  | setEndpointId (eid : Nat)
  /-- `GET_ENDPOINT_ID` (R853): MCTP Get Endpoint ID returns the endpoint ID. -/
  | getEndpointId
  /-- `GET_MCTP_VERSION_SUPPORT` (R853): MCTP Get MCTP Version Support returns supported versions. -/
  | getMctpVersionSupport
  /-- `GET_MESSAGE_TYPE_SUPPORT` (R853): MCTP Get Message Type Support returns supported message types. -/
  | getMessageTypeSupport
  /-- `GET_PDR` (R853): PLDM GetPDR returns a platform descriptor record. -/
  | getPdr (rec : Nat)
  /-- `GET_SENSOR_READING` (R853): PLDM GetSensorReading returns a sensor value, or not-ready before readiness. -/
  | getSensorReading (sensor : Nat)
  /-- `GET_STATE_SENSOR_READINGS` (R853): PLDM GetStateSensorReadings returns state sensor values. -/
  | getStateSensorReadings
  /-- `POWER_ON` (R815): VDD_AON comes into tolerance, and the always-on domain starts with the error log, dump, PWR_RESETS, PWR_AUDIT and PWR_RAILS cleared. -/
  | powerOn
  /-- `POWER_CYCLE` (R906): VDD_AON is removed, and every piece of state not kept in fuses or SPI NOR is lost. -/
  | powerCycle
  /-- `REFCLK_RETURN` (R923): REFCLK has been present again for 1 ms, ending the held PERST# reset and starting the power-on start. -/
  | refclkReturn
  /-- `THERMAL_ALERT_END` (R914): A die falls below its alert temperature, and ALERT# is released when no other condition holds. -/
  | thermalAlertEnd (die temp : Nat)
  /-- `ATS_TRANSLATION_COMPLETION` (R946): The host answers an ATS translation request for a ring page, giving a translation or none. -/
  | atsTranslationCompletion (f qp page : Nat) (valid : Bool)
  /-- `INTC_PARITY_ERROR` (R641): The device finds a parity error in an INTC's configuration or state, sets PARITY and stalls both CPs of the half. -/
  | intcParityError (h : Nat)
  /-- `TILE_AWAKE` (R362): A Dormant tile woken by unplanned traffic reaches Awake, and its arrival buffer delivers the held traffic. -/
  | tileAwake (t : Nat)
  /-- `UNPLANNED_WAKE_IDLE` (R362): After 256 grid cycles without traffic, a tile woken by unplanned traffic becomes Dormant again. -/
  | unplannedWakeIdle (t : Nat)
  /-- `FREQUENCY_LOCK` (R519): A joining or relocking member's grid clock locks to the clock recovered from its upstream port. -/
  | frequencyLock
  /-- `IDE_KM` (R826): IDE_KM messages on a secured SPDM session program keys and set a link or selective IDE stream Secure. -/
  | ideKm (sess stream : Nat)
  /-- `SPDM_HEARTBEAT` (R826): An SPDM HEARTBEAT on a session restarts its 10 s heartbeat period. -/
  | spdmHeartbeat (sess : Nat)
  /-- `MANAGEMENT_SESSION_END` (R845): The DTLS management session is closed, and SEC_STATE.MGMT_SESSION clears while outstanding commands run on. -/
  | managementSessionEnd
  /-- `SERVICE_WITHDRAW_GRACE` (R956): The GRACE_MS of an expert SERVICE_WITHDRAW runs out, cancelling the service's remaining work and ending the operation. -/
  | serviceWithdrawGrace (svc : Nat)
  /-- `STORE_CE_PERIOD_END` (R729): A tile's 24-hour period of tile-store corrected errors ends, and STORE_CE restarts at 0. -/
  | storeCePeriodEnd (t : Nat)
deriving DecidableEq, Repr

end Sys2Proof
end

