-- ==== Sys2Proof/Decode.lean ====
section
/-! DEFINITION. The command that a word spells by the table's bits. No row of the operation table gives bits (every row's list of
fields is empty), so no word spells a command (log 22). The tile instructions' own 32-bit encoding is read by the tile, in
Sys2Proof/Machine/Operands.lean. -/

namespace Sys2Proof

/-- The command spelled by the `nbits` bits `w`: none, for the table gives no row any bits. -/
def decodeTableWord (_nbits _w : Nat) : Option Instr := none

end Sys2Proof
end

