-- ==== Sys2Proof/Config.lean ====
section
/-! DEFINITION. The values the spec leaves open. They have no body: nothing proved of the model can rest on one of them. -/

namespace Sys2Proof

/-- Every open value of the part, as a number: the model applies it to the counter `fresh` of the state and keeps the limits the
spec sets on the value (log 7). -/
opaque Config.free : Nat → Nat

/-- The exponential and the logarithm of the vector unit on the FP32 pattern of a lane: 09_tile_instructions.md says which function
is meant and no accuracy (log 16). -/
opaque Config.vexp : BitVec 32 → BitVec 32
opaque Config.vlog : BitVec 32 → BitVec 32

/-- The maximum and the minimum of two FP32 patterns where one is a NaN or they are zeros of different sign (log 16). -/
opaque Config.vmaxOpen : BitVec 32 → BitVec 32 → BitVec 32
opaque Config.vminOpen : BitVec 32 → BitVec 32 → BitVec 32

/-- The INT32 that a NaN, an infinity or an FP32 value outside INT32 converts to (log 16). -/
opaque Config.vcvtiOpen : BitVec 32 → BitVec 32

/-- What the constraint solver computes for a skeleton image with its entries, a METHOD and an ITERATIONS (13_constraint_solver.md names
each method and not the order of its arithmetic; R570 makes it a function of these): value `i` of iterate `k`, the iterate's residual, the pivots
that it flags, and the largest regularisation it uses (log 30). -/
opaque Config.solveValue (image : Bytes) (method iterations k i : Nat) : BitVec 32
opaque Config.solveResidual (image : Bytes) (method iterations k : Nat) : BitVec 32
opaque Config.solvePivots (image : Bytes) (method iterations k : Nat) : Nat
opaque Config.solveLambda (image : Bytes) (method iterations k : Nat) : BitVec 32

/-- Whether a clamp of the input tau changes a returned value of iterate `k` (R579, R580; log 30). -/
opaque Config.solveClamped (image : Bytes) (method iterations k : Nat) : Bool

/-- Byte `i` of a measurement that is a digest or whose raw layout is open, after it has been computed `n` times (log 21). -/
opaque Config.measurement (idx n i : Nat) : BitVec 8

end Sys2Proof
end

