-- ==== Sys2Proof/Machine/State.lean ====
section
/-! DEFINITION. The state of the block: every register, table, queue, counter, mode and pin that the spec gives it, as plain
data. Each field's docstring gives the chapter of spec/ (by its number) and the register or rule that names it. A field without a
reset value in the spec starts at the value shown here, by the log entry that INVENTORY.md names for it. -/

namespace Sys2Proof.Machine

open Sys2Proof

/-- Bytes by address: addresses strictly rise, no listed byte is 0, and an unlisted address reads as 0 (R363, R373, R687; log 4). -/
abbrev Mem := List Host.Cell

/-- The assembly variants (00_scope.md, Table: Variants covered). -/
inductive Variant where
  | A
  | B
  | C
  | D
  | Z
deriving DecidableEq, Repr

/-- The objects that a long operation locks (R248). -/
inductive LockObj where
  | whole
  | part (p : Nat)
  | job (j : Nat)
  | fn (f : Nat)
  | qp (k : Nat)
  | svc (sid : Nat)
  | qfe (q : Nat)
  | port (n : Nat)
  | tile (t : Nat)
  | sem (s : Nat)
  | alm
  | dump
deriving DecidableEq, Repr

/-- What the block sends or answers, as the model shows it (log 13). -/
inductive UpMsg where
  | msix (f v : Nat)
  | cqWrite (f qp slot : Nat) (data : Bytes)
  | ringRead (f qp slot count : Nat)
  | pageReq (f id page : Nat)
  | atsReq (f page : Nat)
  | invDone (f page : Nat)
  | cfgDone (f off : Nat)
  | peerWrite (addr : Nat) (value : BitVec 64)
  | slot (port : Nat) (s : FabSlot)
  | uc (p : UcPacket)
  | response (mb : Mbox) (data : Bytes)
  | notice (mb : Mbox) (data : Bytes)
  | bulkAck (op got : Nat)
  | answer (protocol code : Nat) (data : Bytes)
  | capSvc (f epoch : Nat)
deriving DecidableEq, Repr

/-- One entry of a wake schedule (15_power_and_clocks.md, section kind 0x0004). -/
structure WakeEntry where
  offset : Nat := 0
  tile : Nat := 0
  action : Nat := 0
deriving DecidableEq, Repr

/-- One entry of a transfer schedule: offset, executing tile and transfer descriptor (11_device_memory_and_transfers.md). -/
structure XferEntry where
  offset : Nat := 0
  tile : Nat := 0
  kind : Nat := 0
  flags : Nat := 0
  sem : Nat := 0
  dst : Nat := 0
  localAddr : Nat := 0
  bytes : Nat := 0
  remote : Nat := 0
  reserved : Nat := 0
deriving DecidableEq, Repr


/-- One mailbox's registers and buffers. -/
structure MailRegs where
  /-- MB_CTRL.DONE_IRQ (06 MB_CTRL; 1). -/
  doneIrq : Bool := true
  /-- MB_CTRL.NOTICE_IRQ (06 MB_CTRL; 1). -/
  noticeIrq : Bool := true
  /-- MB_STATUS.STATE: 0 Idle 1 Busy 2 Done (06 MB_STATUS; 2). -/
  state : Nat := 0
  /-- MB_STATUS.NOTICE_LOST (06 R245; 1). -/
  lostBit : Bool := false
  /-- MB_NOTICE_HEAD (06 MB_NOTICE_HEAD; 4). -/
  head : Nat := 0
  /-- MB_NOTICE_TAIL (06 MB_NOTICE_TAIL; 4). -/
  tail : Nat := 0
  /-- MB_NOTICE_LOST (06 MB_NOTICE_LOST; 16). -/
  lostCount : Nat := 0
  /-- MB_NOTICE_MASK (06 MB_NOTICE_MASK; 32). -/
  mask : BitVec 32 := 0x1FFE
  /-- MB_REQ (06 MB_REQ; 512 B). -/
  req : Mem := []
  /-- MB_RSP (06 MB_RSP; 512 B). -/
  rsp : Bytes := []
  /-- notice ring (06 R243, R263; 16 x 32 B). -/
  ring : Tab Bytes := []
  /-- NSEQ of the next notice (06 Notice entry; 16). -/
  nseq : Nat := 0
  /-- request taken and not yet answered (06 R225; 512 B). -/
  taken : Option Bytes := none
  /-- a request taken while a command whose response is discarded still runs (06 R225, R261, R262; 512 B). -/
  queued : Option Bytes := none
  /-- the response of the Busy command is to be discarded (06 R261, R262; 1). -/
  discard : Bool := false
deriving DecidableEq, Repr

/-- One operation record. -/
structure OpRec where
  /-- operation number (06 R240; 16). -/
  op : Nat := 0
  /-- mailbox that issued it (06 R241; -). -/
  mb : Mbox := .mgmt
  /-- command (06 OPERATION_DONE; 16). -/
  opcode : Nat := 0
  /-- ended (06 OPERATION_STATUS; 1). -/
  done : Bool := false
  /-- final code (06 R241; 16). -/
  rc : Nat := 0
  /-- final detail (06 R241; 16). -/
  detail : Nat := 0
deriving DecidableEq, Repr

/-- One error-log entry. -/
structure LogEntry where
  /-- SEQ (18 Error-log entry; 32). -/
  seq : Nat := 0
  /-- KIND (18 Error-log entry; 16). -/
  kind : Nat := 0
  /-- SEVERITY (18 Error-log entry; 8). -/
  severity : Nat := 0
  /-- RUNG (18 Error-log entry; 8). -/
  rung : Nat := 0
  /-- TICK (18 Error-log entry; 64). -/
  tick : Nat := 0
  /-- UNIT (18 Error-log entry; 8). -/
  unit : Nat := 0
  /-- PART (18 Error-log entry; 8). -/
  part : Nat := 255
  /-- INDEX (18 Error-log entry; 16). -/
  index : Nat := 0
  /-- JOB (18 Error-log entry; 8). -/
  job : Nat := 255
  /-- DATA (18 Error-log entry; 64). -/
  data : Nat := 0
deriving DecidableEq, Repr

/-- The retained dump held. -/
structure Dump where
  /-- TRIGGER (18 Dump header; 8). -/
  trigger : Nat := 0
  /-- TICK (18 Dump header; 64). -/
  tick : Nat := 0
  /-- ERRLOG_SEQ (18 Dump header; 32). -/
  errSeq : Nat := 0
  /-- SECTION_MASK (18 Dump header; 32). -/
  mask : Nat := 0
  /-- DUMP_BYTES (18 Dump header; 32). -/
  bytes : Nat := 0
  /-- SKIPPED (18 R802; 16). -/
  skipped : Nat := 0
  /-- DAMAGED (18 R814; 1). -/
  damaged : Bool := false
  /-- LIKENESS (18 Dump header; 64). -/
  likeness : Nat := 0
  /-- FW_VERSION (18 Dump header; 32). -/
  fw : Nat := 0
  /-- free-value base of the sections' bytes (18 Dump sections (log 21); -). -/
  body : Nat := 0
deriving DecidableEq, Repr

/-- A dump capture in progress. -/
structure Capture where
  /-- SECTION_MASK (18 R803; 32). -/
  mask : Nat := 0
  /-- TRIGGER (18 Dump header; 8). -/
  trigger : Nat := 0
  /-- DUMP_CAPTURE operation (18 R803; op). -/
  op : Option Nat := none
deriving DecidableEq, Repr

/-- One column's spare state. -/
structure SpareState where
  /-- ROW (18 Spare state byte; 5). -/
  row : Nat := 31
  /-- the column is routed with failed row ROW (10 R423; 18 R790; 1). -/
  mapped : Bool := false
  /-- STATE: 0 Intact 1 Spare failed 2 Remap pending 3 Remapped 4 Retire pending 5 Retired (18 Spare state byte; 3). -/
  state : Nat := 0
deriving DecidableEq, Repr

/-- The management session. -/
structure MgmtSession where
  /-- tick of the last message (19 R845; tick). -/
  lastTick : Nat := 0
  /-- the session was opened by an owner's chain (19 R844; 1). -/
  enrolled : Bool := false
deriving DecidableEq, Repr

/-- One firmware slot. -/
structure FwSlot where
  /-- it holds an image (19 Firmware slots; 1). -/
  present : Bool := true
  /-- SVN of the image (19 R850; count). -/
  svn : Nat := 0
  /-- minimum SVN the image declares (19 R852; count). -/
  minSvn : Nat := 0
  /-- behaviour level it declares (19 R850; 8). -/
  level : Nat := 1
  /-- FW_VERSION (21 SEC_FW_VERSION; 32). -/
  version : BitVec 32 := 0
  /-- its signature verifies (19 R850; 1). -/
  sigOk : Bool := true
deriving DecidableEq, Repr

/-- An image being received over BULK. -/
structure Upload where
  /-- operation (19 BULK; op). -/
  op : Nat := 0
  /-- opcode: 0x0605 or 0x0806 (19 BULK; 16). -/
  kind : Nat := 0
  /-- image bytes announced (06 FW_UPDATE, PATTERN_INSTALL; 32). -/
  bytes : Nat := 0
  /-- bytes received (19 BULK_ACK; 32). -/
  got : Nat := 0
  /-- image received (19 BULK; bytes). -/
  img : Mem := []
  /-- ACTIVATE_NOW, or slot + 1 (06 FW_UPDATE, PATTERN_INSTALL; 8). -/
  arg : Nat := 0
deriving DecidableEq, Repr

/-- One pattern package slot. -/
structure Package where
  /-- STATE: 0 empty 1 installed 2 installing 3 invalid (17 PATTERN_LIST; 8). -/
  state : Nat := 0
  /-- FLAGS (17 Pattern package header; 16). -/
  flags : Nat := 0
  /-- PACKAGE_ID (17 Pattern package header; 32). -/
  id : Nat := 0
  /-- VERSION (17 Pattern package header; 32). -/
  version : Nat := 0
  /-- ROUND_CYCLES (17 Pattern package header; 32). -/
  roundCycles : Nat := 0
  /-- BYTES (17 PATTERN_LIST; 32). -/
  bytes : Nat := 0
deriving DecidableEq, Repr

/-- One breakpoint register. -/
structure BreakPt where
  /-- ENABLE (20 DBG_BPn; 1). -/
  enable : Bool := false
  /-- TILE (20 DBG_BPn; 16). -/
  tile : Nat := 0
  /-- PC (20 DBG_BPn; 21). -/
  pc : Nat := 0
deriving DecidableEq, Repr

/-- One trace entry. -/
structure TraceEntry where
  /-- KIND (20 Trace entry; 8). -/
  kind : Nat := 0
  /-- JOB (20 Trace entry; 8). -/
  job : Nat := 0
  /-- TILE (20 Trace entry; 16). -/
  tile : Nat := 0
  /-- PC (20 Trace entry; 32). -/
  pc : Nat := 0
  /-- OFFSET (20 Trace entry; 32). -/
  offset : Nat := 0
  /-- DATA (20 Trace entry; 32). -/
  data : Nat := 0
deriving DecidableEq, Repr

/-- One device semaphore's grant. -/
structure SemGrant where
  /-- DEVICE (12 FAB_SEM_GRANTh_s; 12). -/
  device : Nat := 0
  /-- ANY (12 FAB_SEM_GRANTh_s; 1). -/
  any : Bool := false
  /-- SIGNAL (12 FAB_SEM_GRANTh_s; 1). -/
  signal : Bool := false
  /-- READ (12 FAB_SEM_GRANTh_s; 1). -/
  read : Bool := false
deriving DecidableEq, Repr

/-- A probe round in progress on a tile. -/
structure ProbeRound where
  /-- package (17 R740; 32). -/
  pkg : Nat := 0
  /-- SEED (17 R740; 32). -/
  seed : Nat := 0
  /-- round number (17 R740; 16). -/
  round : Nat := 0
  /-- ROUND_CYCLES of the package at the start (17 R740, R764; 17). -/
  cycles : Nat := 4096
  /-- FLAGS of the package at the start (17 R746, R764; 16). -/
  pflags : Nat := 0
  /-- grid cycle of the start (17 R765; cycle). -/
  start : Nat := 0
  /-- PROBE operation, none for an observation or spare test (17 R760; op). -/
  op : Option Nat := none
  /-- first checker (physical) (17 R741; 10). -/
  c1 : Nat := 0
  /-- second checker (physical) (17 R741; 10). -/
  c2 : Nat := 0
deriving DecidableEq, Repr

/-- The quotas of one function's slice. -/
structure Quotas where
  /-- queue-pair quota (05 VF quotas; R221; 16). -/
  qp : Nat := 0
  /-- vector quota (05 R205; 16). -/
  vec : Nat := 1
  /-- sequence-entry quota (05 VF quotas; R221; 16). -/
  seq : Nat := 0
  /-- batch-position share (05 VF quotas; R221; 16). -/
  pos : Nat := 0
  /-- stack-memory quota, 64 KiB pages (05 VF quotas; R221; 32). -/
  mem : Nat := 0
  /-- transfer-tag quota (05 VF quotas; R221; 16). -/
  tag : Nat := 0
  /-- fetch share (05 VF quotas; R221; 8). -/
  fetch : Nat := 0
  /-- solver-skeleton quota (05 VF quotas; R221; 16). -/
  skel : Nat := 0
deriving DecidableEq, Repr

/-- One signal target entry with its counter. -/
structure SigTarget where
  /-- KIND (03 Signal target entry; R149; 8). -/
  kind : Nat := 0
  /-- HALF (03 Signal target entry; 8). -/
  half : Nat := 0
  /-- SEMAPHORE (03 Signal target entry; 16). -/
  sem : Nat := 0
  /-- DEVICE (03 Signal target entry; 16). -/
  device : Nat := 0
  /-- ADDRESS (03 Signal target entry; 64). -/
  addr : Nat := 0
  /-- signal counter of a kind 0x03 entry (03 R149; 64). -/
  counter : BitVec 64 := 0
  /-- signals issued to this target (book 0x0C) (22 book 0x0C; count). -/
  issued : Nat := 0
  /-- signals acknowledged (book 0x0C) (22 book 0x0C; count). -/
  acked : Nat := 0
  /-- signals reported lost (book 0x0C) (22 book 0x0C; count). -/
  lostN : Nat := 0
deriving DecidableEq, Repr

/-- One PCIe function: VF v has key v, the PF key 512. -/
structure Func where
  /-- LQI_VF_STATE.STATE: 0 Off, 1 Unsized, 2 Ready, 3 Resetting (05 LQI_VF_STATE; 3). -/
  state : Nat := 0
  /-- LQI_VF_STATE.RECLAIMING (05 R202; 1). -/
  reclaiming : Bool := false
  /-- LQI_VF_STATE.GEN (05 R221; 16). -/
  gen : BitVec 16 := 0
  /-- quotas (05 VF quotas; record). -/
  quotas : Quotas := {}
  /-- quotas stored for the end of a reset (05 R210; record). -/
  deferred : Option Quotas := none
  /-- RECLAIMED (05 QUERY kind 0x02; 32). -/
  reclaimed : Nat := 0
  /-- RESETS (05 QUERY kind 0x02; 32). -/
  resets : Nat := 0
  /-- tick of the first initiation of a reset in progress (05 R209, R216; tick). -/
  resetAt : Option Nat := none
  /-- the VF_RESET operation in progress (06 VF_RESET; op). -/
  resetOp : Option Nat := none
  /-- old generations whose holdings are charged to partitions (05 R218; list). -/
  orphanGens : List (BitVec 16) := []
  /-- ATS enable (02 R67; 1). -/
  ats : Bool := false
  /-- PRI enable (02 R68; 1). -/
  pri : Bool := false
  /-- MSI-X Enable (02 R75; 1). -/
  msixEnable : Bool := false
  /-- MSI-X Function Mask (02 R75; 1). -/
  msixMask : Bool := false
  /-- vectors whose mask bit is clear (02 R75; set). -/
  vecUnmasked : List Nat := []
  /-- message address and data words of the MSI-X table, by double word (02 Table: VF BAR layout; 32 x 4 x 32). -/
  msixTable : Tab (BitVec 32) := []
  /-- MSI-X pending-bit array (02 R75; 64 bits). -/
  vecPending : List Nat := []
  /-- LQI_CAP_SERVICES.EPOCH (02 R49; 16). -/
  capEpoch : BitVec 16 := 0
  /-- the 64 signal targets (03 R149; 64 x 16 B). -/
  targets : Tab SigTarget := []
  /-- SEC_TDI state: 0 UNLOCKED, 1 LOCKED, 2 RUN, 3 ERROR (19 SEC_TDI_n; R863; 2). -/
  tdi : Nat := 0
  /-- the selective stream the TDI is bound to (19 R829, R832; 2). -/
  tdiStream : Nat := 0
deriving DecidableEq, Repr

/-- PCIe configuration that the rules read. -/
structure PcieCfg where
  /-- NumVFs (05 R221; 16). -/
  numVfs : Nat := 0
  /-- VF Enable (05 R221; 1). -/
  vfEnable : Bool := false
  /-- ARI Capable Hierarchy (05 R187, R955; 1). -/
  ari : Bool := false
  /-- System Page Size 64 KiB (05 R189; 1). -/
  page64K : Bool := false
  /-- the PCIe link is up (16 R714; 1). -/
  linkUp : Bool := false
deriving DecidableEq, Repr

/-- Per-queue accounting. -/
structure Acct where
  /-- PLACED (04 QUERY kind 0x00; R963; 64). -/
  placed : Nat := 0
  /-- ADMITTED (04 QUERY kind 0x00; R963; 64). -/
  admitted : Nat := 0
  /-- DEFERRALS (04 QUERY kind 0x00; R963; 64). -/
  deferrals : Nat := 0
  /-- DEFERRED_RECORDS (04 QUERY kind 0x00; R963; 64). -/
  deferredRecs : Nat := 0
  /-- WAIT_SUM (04 R175, R963; 64). -/
  waitSum : Nat := 0
  /-- WAIT_MAX (04 R175, R963; 32). -/
  waitMax : Nat := 0
  /-- PREEMPTIONS (04 QUERY kind 0x00; R963; 32). -/
  preempts : Nat := 0
  /-- REFUSED_FULL (04 QUERY kind 0x00; R963; 32). -/
  full : Nat := 0
  /-- REFUSED_QUOTA (04 QUERY kind 0x00; R963; 32). -/
  quota : Nat := 0
  /-- REFUSED_CLASS (04 QUERY kind 0x00; R963; 32). -/
  cls : Nat := 0
  /-- REFUSED_DRAINING (04 QUERY kind 0x00; R963; 32). -/
  draining : Nat := 0
  /-- TIMEOUTS (04 QUERY kind 0x00; R963; 32). -/
  timeouts : Nat := 0
  /-- RECORDS_DISCARDED (04 QUERY kind 0x00; R963; 32). -/
  discarded : Nat := 0
  /-- DISPLACEMENTS (04 QUERY kind 0x00; R963; 32). -/
  displaced : Nat := 0
deriving DecidableEq, Repr

/-- A chain being placed on one SQ. -/
structure Chain where
  /-- packet number of the chain's first packet (03 R129, R148; id). -/
  first : Nat := 0
  /-- packets of the chain placed so far (03 R105; 1-64). -/
  count : Nat := 0
  /-- the chain's operation has already ended (03 R950; 1). -/
  ended : Bool := false
deriving DecidableEq, Repr

/-- One queue pair, key 16 x function + number. -/
structure QueuePair where
  /-- LQI_QP_STATUS.CLASS (02 LQI_QP_STATUS; 1). -/
  lc : Bool := false
  /-- created with the BULK option (05 R190, R191; 1). -/
  bulk : Bool := false
  /-- LQI_QP_STATUS.QFE (02 R62; 4). -/
  qfe : Nat := 0
  /-- LQI_QP_STATUS.VECTOR (02 LQI_QP_STATUS; 5). -/
  vector : Nat := 0
  /-- PASID of the rings (02 PASID; R961; 20). -/
  pasid : Option Nat := none
  /-- SQ base address (02 R51; 64). -/
  sqBase : Nat := 0
  /-- CQ base address (02 R51; 64). -/
  cqBase : Nat := 0
  /-- log2 of the SQ size (02 R51; 5). -/
  sqLog : Nat := 6
  /-- log2 of the CQ size (02 R51; 5). -/
  cqLog : Nat := 6
  /-- LQI_QP_STATUS.STATE: 0 Disabled, 1 Active, 2 Error, 3 Resetting (02 LQI_QP_STATUS; 3). -/
  state : Nat := 0
  /-- LQI_QP_STATUS.CQ_FULL (02 R86; 1). -/
  cqFull : Bool := false
  /-- LQI_QP_STATUS.ERR_REASON (02 R91, R96; 8). -/
  errReason : Nat := 0
  /-- LQI_SQ_TAIL (02 R58, R96; 16). -/
  sqTail : Nat := 0
  /-- LQI_CQ_HEAD (02 R96; 16). -/
  cqHead : Nat := 0
  /-- LQI_SQ_HEAD (02 R61, R96; 16). -/
  sqHead : Nat := 0
  /-- the device's own CQ tail (02 R96; 16). -/
  cqTail : Nat := 0
  /-- next phase value (02 R52, R96; 1). -/
  phase : Bool := true
  /-- next SQ slot to fetch (02 R59, R64; 16). -/
  fetchPos : Nat := 0
  /-- SQ slot of the next packet to place (02 R76, R120; 16). -/
  placePos : Nat := 0
  /-- SQ slots held in the QFE buffer and not yet placed (02 QFE buffers; R61; 512 KiB per QFE). -/
  slots : Tab Bytes := []
  /-- page request the pair is parked on (FAULT_WAIT) (02 R68, R69; id). -/
  parked : Option Nat := none
  /-- LQI_CQ_MOD.COUNT (02 LQI_CQ_MOD; 8). -/
  modCount : Nat := 1
  /-- LQI_CQ_MOD.TIME (02 LQI_CQ_MOD; 16). -/
  modTime : Nat := 0
  /-- unsignalled records (02 R74; count). -/
  unsig : Nat := 0
  /-- tick of the first unsignalled record (02 R74, R944; tick). -/
  unsigTick : Nat := 0
  /-- per-queue timeout T (03 R150; 16). -/
  timeoutMs : Nat := 1000
  /-- defer limit (04 R165; 8). -/
  deferLimit : Nat := 0
  /-- queue epoch (18 R778; 8). -/
  epoch : BitVec 8 := 0
  /-- FENCE or WAIT that holds later packets (03 R118, R119; id). -/
  hold : Option Nat := none
  /-- chain being placed (03 R104-R106; record). -/
  chain : Option Chain := none
  /-- SQ slot of the malformed packet at which placement stopped (03 R147; 16). -/
  stopAt : Option Nat := none
  /-- the reset in progress ends Disabled (18 R780; 1). -/
  leaveDisabled : Bool := false
  /-- left Disabled by a function reset: not in use, and QUEUE_CREATE may name it (02 R97; 05 R217; 1). -/
  vacant : Bool := false
  /-- the reset in progress ends in removal (18 R780; 1). -/
  deleting : Bool := false
  /-- accounting counters (04 R963; 80 B). -/
  acct : Acct := {}
deriving DecidableEq, Repr

/-- One queue fetch engine. -/
structure Qfe where
  /-- LC reserve (02 R65; 8). -/
  reserve : Nat := 64
  /-- LC queue pair last granted (02 R943; key). -/
  lastLc : Option Nat := none
  /-- BE queue pair last granted (02 R943; key). -/
  lastBe : Option Nat := none
  /-- grid cycle of the last grant (02 R943; cycle). -/
  lastCycle : Option Nat := none
  /-- tick of the engine's last progress (18 R797; tick). -/
  progress : Nat := 0
deriving DecidableEq, Repr

/-- One held fetch slot, key 128 x QFE + slot. -/
structure FetchSlot where
  /-- queue pair that holds it (02 R65; key). -/
  qp : Nat := 0
  /-- first SQ slot of the request (02 R64; 16). -/
  first : Nat := 0
  /-- SQ slots of the request (02 R64; 1-64). -/
  count : Nat := 0
  /-- generation at the grant (05 R203; 16). -/
  gen : BitVec 16 := 0
  /-- queue epoch at the grant (18 R779; 8). -/
  epoch : BitVec 8 := 0
  /-- the read has returned (02 R61, R300; 1). -/
  back : Bool := false
  /-- tick of the grant (18 R797; tick). -/
  tick : Nat := 0
deriving DecidableEq, Repr

/-- One page request. -/
structure PageReq where
  /-- function (02 R71; key). -/
  fn : Nat := 0
  /-- queue pair parked (02 R68; key). -/
  qp : Nat := 0
  /-- the access was a CQ access (02 R69; 1). -/
  cq : Bool := false
  /-- 4 KiB page of the ring access (02 R68; 52). -/
  page : Nat := 0
  /-- sent, or still queued (02 R71; 1). -/
  sent : Bool := false
  /-- tick at which it was sent (02 error 0x04; tick). -/
  tick : Nat := 0
  /-- order in which the fault struck (02 R71; count). -/
  order : Nat := 0
deriving DecidableEq, Repr

/-- One packet taken from an SQ and not yet forgotten. -/
structure Packet where
  /-- queue pair (03 R99; key). -/
  qp : Nat := 0
  /-- generation tag (05 R203; 16). -/
  gen : BitVec 16 := 0
  /-- queue epoch tag (18 R778; 8). -/
  epoch : BitVec 8 := 0
  /-- header slot (03 Packet header slot; 64 B). -/
  hdr : Bytes := []
  /-- payload, PAYLOAD_BYTES long (03 R101; <= 65,472 B). -/
  payload : Bytes := []
  /-- placement order (02 R76; count). -/
  order : Nat := 0
  /-- tick of placement (04 R175; tick). -/
  placed : Nat := 0
  /-- tick at which the running timer started (03 R129, R130; tick). -/
  timer : Option Nat := none
  /-- the per-queue timeout T in force when it was placed, ms (03 Table: Packet time-outs, R130, R150 (log 46); 16). -/
  limitMs : Nat := 1000
  /-- the opcode's work has been begun (03 R114; 1). -/
  taken : Bool := false
  /-- its work has been admitted (03 R131; 1). -/
  admitted : Bool := false
  /-- its final result is in the outbox or its signal issued (03 R114; 1). -/
  final : Bool := false
  /-- the chain's first packet (03 R129; id). -/
  chainOf : Option Nat := none
  /-- on a chain's first packet: all its packets (03 R958; ids). -/
  chainPkts : List Nat := []
  /-- partition whose inbox took it (02 inbox; 0-7). -/
  part : Option Nat := none
  /-- device virtual address of the payload in the inbox (08 R358; 04 INPUT_VA; 48). -/
  va : Nat := 0
  /-- QFE transfer tag held for it (11 R482; 15). -/
  tag : Option Nat := none
  /-- transient entry of a single-pass SEQ_STEP and its REUSE, freed with the packet's final record (04 single pass; 14 + 18). -/
  entry : Option (Nat × Nat) := none
deriving DecidableEq, Repr

/-- One completion record waiting in an outbox. -/
structure Record where
  /-- packet it answers (03 R114; id). -/
  pkt : Nat := 0
  /-- queue pair (03 record; key). -/
  qp : Nat := 0
  /-- generation tag (05 R203; 16). -/
  gen : BitVec 16 := 0
  /-- queue epoch tag (18 R779; 8). -/
  epoch : BitVec 8 := 0
  /-- RFLAGS.FINAL (03 first slot; 1). -/
  fin : Bool := true
  /-- RFLAGS.SIG_SENT (03 first slot; 1). -/
  sigSent : Bool := false
  /-- RFLAGS.SIG_LOST (03 R125; 1). -/
  sigLost : Bool := false
  /-- STATUS (03 status codes; 16). -/
  status : Nat := 0
  /-- DETAIL (03 detail codes; 8). -/
  detail : Nat := 0
  /-- OPCODE (03 first slot; 8). -/
  opcode : Nat := 0
  /-- TAG (03 first slot; 64). -/
  tag : BitVec 64 := 0
  /-- HANDLE (03 first slot; 32). -/
  handle : Nat := 0
  /-- result stream (03 RESULT_BYTES; <= 64,481 B). -/
  result : Bytes := []
  /-- a granule of the result is poisoned (08 R360; 11 R495; 1). -/
  poisoned : Bool := false
  /-- a NOTIFY record, tick at which it was posted (05 R219; tick). -/
  notify : Option Nat := none
  /-- tick at which it came to the outbox (18 R797; tick). -/
  born : Nat := 0
  /-- QFE transfer tag held for the drain (11 R482; 15). -/
  xtag : Option Nat := none
deriving DecidableEq, Repr

/-- One operation queued on a sequence. -/
structure SeqOp where
  /-- packet, or first packet of the chain (04 R153; id). -/
  pkt : Nat := 0
  /-- opcode: 0x11 feed, 0x12 step, 0x13 close (04 R153; 8). -/
  kind : Nat := 0
  /-- steps or items left (04 continuing; 32). -/
  left : Nat := 0
  /-- consecutive deferrals (04 R164; 16 sat). -/
  consec : Nat := 0
  /-- last DEFERRED DETAIL reported (04 R163; 8). -/
  reason : Nat := 0
  /-- tick of placement (04 R157; tick). -/
  placedAt : Nat := 0
  /-- tick of the first admission (04 R157, R175; tick). -/
  admAt : Option Nat := none
  /-- every packet of its chain is placed (03 R106; 1). -/
  closed : Bool := false
deriving DecidableEq, Repr

/-- One sequence entry. -/
structure SeqEntry where
  /-- 0 Free 1 Open 2 Pending 3 Running 4 Ended 5 Closing (04 R185; 3). -/
  state : Nat := 0
  /-- REUSE (04 R151, R185; 18). -/
  reuse : Nat := 0
  /-- owning function (03 R110; key). -/
  fn : Nat := 0
  /-- generation tag (05 R203; 16). -/
  gen : BitVec 16 := 0
  /-- service (03 R110; 32). -/
  sid : Nat := 0
  /-- partition whose slice holds it (04 slice; 3). -/
  part : Nat := 0
  /-- class of the queue pair of its SEQ_OPEN (05 R198; 1). -/
  lc : Bool := false
  /-- tick of SEQ_OPEN (05 R198; tick). -/
  openAt : Nat := 0
  /-- positions held (04 position count; 32). -/
  positions : Nat := 0
  /-- MAX_TOKENS (04 limits; 32). -/
  maxTok : Nat := 0
  /-- TOKENS_GENERATED (04 QUERY kind 0x01; 32). -/
  tokens : Nat := 0
  /-- KV pages in stream order (04 R168; list). -/
  pages : List Nat := []
  /-- queued operations, head first (04 R153; <= 8). -/
  ops : List SeqOp := []
  /-- END_STATUS (04 R154; 16). -/
  endStatus : Nat := 0
  /-- END_DETAIL (04 R154; 8). -/
  endDetail : Nat := 0
  /-- LAST_REASON (04 QUERY kind 0x01; 8). -/
  reason : Nat := 0
  /-- STEPS_RUN (04 QUERY kind 0x01; 64). -/
  steps : Nat := 0
  /-- entry of a single-pass SEQ_STEP (04 single pass; 1). -/
  transient : Bool := false
  /-- it ran in the previous step (continuing) (04 continuing; 1). -/
  ranPrev : Bool := false
  /-- a SEQ_CLOSE naming it was placed, or it is a reclaim victim (03 R110; 05 R201; 1). -/
  closing : Bool := false
  /-- selected as a reclaim victim (05 R198; 1). -/
  victim : Bool := false
  /-- the result its task posted in the running step (08 R359; record). -/
  posted : Option Record := none
  /-- items it runs in the current step (04 Work-list entry; 16). -/
  stepItems : Nat := 0
  /-- packet whose operation the current step runs, 0 for none (04 R158; id). -/
  stepPkt : Nat := 0
  /-- items it is admitted with to the coming step (04 Work-list entry; 16). -/
  nextItems : Nat := 0
  /-- packet whose operation is admitted to the coming step, 0 for none (04 R158; id). -/
  nextOpPkt : Nat := 0
deriving DecidableEq, Repr

/-- One installed service, by job entry. -/
structure Svc where
  /-- SERVICE_ID (02 Service record; 32). -/
  sid : Nat := 0
  /-- KIND (02 Service record; 16). -/
  kind : Nat := 0
  /-- FLAGS (02 Service record; 16). -/
  flags : Nat := 0
  /-- NAME (02 Service record; 24 B). -/
  name : Bytes := []
  /-- MAX_PKT_SLOTS (02 Service record; 16). -/
  maxPkt : Nat := 0
  /-- MAX_CPL_SLOTS (02 Service record; 16). -/
  maxCpl : Nat := 0
  /-- VERSION (02 Service record; 32). -/
  version : Nat := 0
  /-- POSITIONS (04 Batch positions; 16). -/
  positions : Nat := 0
  /-- LC_RESERVE (04 position settings; 16). -/
  lcReserve : Nat := 0
  /-- LC_LIMIT (04 position settings; 16). -/
  lcLimit : Nat := 0
  /-- BE_LIMIT (04 position settings; 16). -/
  beLimit : Nat := 0
  /-- CHUNK (04 CHUNK; 16). -/
  chunk : Nat := 1
  /-- FEED_KINDS (03 LIMITS; 16). -/
  feedKinds : Nat := 0
  /-- KV_BYTES (04 KV pages; 32). -/
  kvBytes : Nat := 0
  /-- MAX_TOKENS (03 LIMITS; 32). -/
  maxTok : Nat := 0
  /-- PARAM_BASE (07 Job entry; 32). -/
  paramBase : Nat := 0
  /-- PARAM_SLOTS (07 Job entry; 32). -/
  paramSlots : Nat := 0
  /-- WORKLIST_SLOT (04 work lists; 32). -/
  worklist : Nat := 0
  /-- STATE_VA (07 R294; 64). -/
  stateVa : Nat := 0
  /-- STATE_BYTES (07 R294; 32). -/
  stateBytes : Nat := 0
  /-- withdrawn by SERVICE_WITHDRAW (05 R956; 1). -/
  withdrawn : Bool := false
  /-- end tick of a SERVICE_WITHDRAW grace, and its operation (06 SERVICE_WITHDRAW; tick). -/
  grace : Option (Nat × Nat) := none
deriving DecidableEq, Repr

/-- One region of a memory layout. -/
structure Region where
  /-- KIND (11 Region record; 8). -/
  kind : Nat := 0
  /-- PLACE (11 Region record; 8). -/
  place : Nat := 0
  /-- PAGE (11 Region record; 8). -/
  page : Nat := 0
  /-- FLAGS (11 Region record; 8). -/
  flags : Nat := 0
  /-- TILE (11 Region record; 16). -/
  tile : Nat := 0
  /-- TILE_COUNT (11 Region record; 16). -/
  tiles : Nat := 0
  /-- DVA (11 Region record; 48). -/
  dva : Nat := 0
  /-- BYTES (11 Region record; 64). -/
  bytes : Nat := 0
  /-- JOB_ENTRY (11 Region record; 16). -/
  entry : Nat := 0
deriving DecidableEq, Repr

/-- One fabric-slot ownership entry. -/
structure OwnEntry where
  /-- MONTH (12 Ownership entry; 16). -/
  month : Nat := 0
  /-- FIRST_SLOT (12 Ownership entry; 16). -/
  first : Nat := 0
  /-- SLOTS (12 Ownership entry; 16). -/
  slots : Nat := 0
  /-- PORT (12 Ownership entry; 8). -/
  port : Nat := 0
  /-- DIR (12 Ownership entry; 8). -/
  recv : Bool := false
  /-- PEER (12 Ownership entry; 16). -/
  peer : Nat := 0
  /-- FLOW (12 Ownership entry; 16). -/
  flow : Nat := 0
  /-- BYTES (12 Ownership entry; 32). -/
  bytes : Nat := 0
  /-- DVA (12 Ownership entry; 64). -/
  dva : Nat := 0
deriving DecidableEq, Repr

/-- One installed Season. -/
structure Season where
  /-- SEASON_ID (01 Season image header; 64). -/
  id : Nat := 0
  /-- VERSION (01 Season image header; 32). -/
  version : Nat := 0
  /-- TARGET_LIKENESS (01 Season image header; 64). -/
  likeness : Nat := 0
  /-- COLUMN_COUNT (01 Season image header; 32). -/
  columns : Nat := 0
  /-- STEP_CYCLES (01 Season image header; 32). -/
  stepCycles : Nat := 0
  /-- LONGEST_LAYER_CYCLES (01 Season image header; 32). -/
  longest : Nat := 0
  /-- ADMIT_LEAD_CYCLES (01 Season image header; 32). -/
  lead : Nat := 0
  /-- BATCH_POSITIONS (01 Season image header; 16). -/
  batch : Nat := 0
  /-- FLAGS (01 Season image header; 16). -/
  flags : Nat := 0
  /-- HALF_LINK_SHARE (01 Season image header; 32). -/
  hlShare : Nat := 0
  /-- MONTHS_PER_STEP (01 Season image header; 32). -/
  monthsPerStep : Nat := 0
  /-- LAYER_END table (07 section 0x0007; 1-1,024). -/
  layerEnds : List Nat := []
  /-- memory layout regions (11 section 0x0005; 1-256). -/
  regions : List Region := []
  /-- PLANNED_TAGS (11 section 0x0005; 8). -/
  plannedTags : Nat := 0
  /-- LIST_ENTRIES (11 section 0x0005; 32). -/
  listEntries : Nat := 0
  /-- wake schedule (15 section 0x0004; 1-65,536). -/
  wakes : List WakeEntry := []
  /-- transfer schedule (11 section 0x0003; list). -/
  transfers : List XferEntry := []
  /-- PORTS (12 section 0x0006; 16). -/
  ports : Nat := 0
  /-- LAG per port (12 section 0x0006; 12 x 8). -/
  lags : List Nat := []
  /-- DOMAIN (12 section 0x0006; 32). -/
  domain : Nat := 0
  /-- DEVICE (12 section 0x0006; 16). -/
  device : Nat := 0
  /-- ownership entries (12 section 0x0006; 1-4,096). -/
  own : List OwnEntry := []
  /-- FRACTION_MAX (17 Shadow header; 8). -/
  fracMax : Nat := 0
  /-- shadow layers (17 Shadow header; 0-384). -/
  shadow : List Nat := []
  /-- TILE and BUDDY pairs (17 Shadow header; 0-768). -/
  pairs : List (Nat × Nat) := []
  /-- SELECT_SLOT (17 Shadow header; 32). -/
  selectSlot : Nat := 0
  /-- sections whose layout the spec does not give (01 kinds 0x0001, 0x0002 (log 9); operand). -/
  ext : SeasonExt := {}
  /-- SET_DIGEST of the weight package (19 Weight package header; 48 B). -/
  packDigest : Bytes := []
  /-- what the weight package decrypts to under the kept content key (19 R836-R838; 11 R494 (log 25); bytes). -/
  plain : Mem := []
deriving DecidableEq, Repr

/-- One bandwidth regulator. -/
structure Regulator where
  /-- RATE_MBPS (07 PART_REGn; R317; 24). -/
  rate : Nat := 0
  /-- BURST_KIB (07 PART_REGn; 16). -/
  burst : Nat := 0
  /-- tokens in the bucket, bytes (07 R300; 22 book 0x0D; 27). -/
  bucket : Nat := 0
deriving DecidableEq, Repr

/-- Interference measured over the current window, per resource. -/
structure Intf where
  /-- cycles from request to grant (07 R305; count). -/
  f : Nat := 0
  /-- of them, behind another partition (07 R305; count). -/
  w : Nat := 0
deriving DecidableEq, Repr

/-- DBG_STOPp. -/
structure DebugStop where
  /-- STATE: 0 Running 1 Stopping 2 Stopped 3 Stepping (20 DBG_STOPp; 2). -/
  state : Nat := 0
  /-- CAUSE (20 DBG_STOPp; 4). -/
  cause : Nat := 0
  /-- LOCK_WAIT (20 R872; 1). -/
  lockWait : Bool := false
  /-- KILL_PENDING (20 R880; 1). -/
  killPending : Bool := false
  /-- status of the deferred kill (20 R880; 16). -/
  killStatus : Nat := 0
  /-- detail of the deferred kill (20 R880; 8). -/
  killDetail : Nat := 0
  /-- job of the deferred kill (20 R880; 6). -/
  killJob : Nat := 0
  /-- TILE (20 DBG_STOPp; 16). -/
  tile : Nat := 0
  /-- BP (20 DBG_STOPp; 5). -/
  bp : Nat := 0
  /-- PC (20 DBG_STOPp; 21). -/
  pc : Nat := 0
  /-- tile being stepped (20 R876; tile). -/
  stepTile : Nat := 0
  /-- instructions left of DBG_RESUME STEPS (20 R876; 0-4,096). -/
  stepsLeft : Nat := 0
  /-- grid cycle of the halt request (20 R872, R895; cycle). -/
  reqCycle : Nat := 0
deriving DecidableEq, Repr

/-- One partition. -/
structure Part where
  /-- PART_STATUS.SPANNING (07 PART_STATUS; 1). -/
  spanning : Bool := false
  /-- PART_COL_MAP, columns 24h + x ascending (07 PART_COL_MAP; 48). -/
  cols : List Nat := []
  /-- stack channels 16s + c in order of assignment (07 PART_CHAN_LO/HI; R470; 128). -/
  chans : List Nat := []
  /-- first sequence entry of the slice (04 slice; 14). -/
  seqBase : Nat := 0
  /-- entries of the slice (04 slice; 14). -/
  seqLen : Nat := 0
  /-- HL_SHARE (07 R275; GB/s). -/
  hlShare : Nat := 0
  /-- Half Link lanes assigned (10 R440; 15). -/
  lanes : List Nat := []
  /-- partition reset in progress (07 Partition states; 1). -/
  resetting : Bool := false
  /-- PART_DESTROY in progress (07 Partition states; 1). -/
  destroying : Bool := false
  /-- LOAD_ID of the load in progress (07 Loading; 32). -/
  loading : Option Nat := none
  /-- Hold, grid cycle at which it began (11 R485; cycle). -/
  hold : Option Nat := none
  /-- drain in progress: end tick of the grace, and 1 + its operation, 0 in Autumn (07 R307; tick). -/
  drain : Option (Nat × Nat) := none
  /-- the partition is Draining (07 Partition states; 1). -/
  draining : Bool := false
  /-- installed Season (07 Ready; record). -/
  season : Option Season := none
  /-- services of the installed Season, by job entry (02 service records; 1-16). -/
  svcs : Tab Svc := []
  /-- staged image (07 R278; bytes). -/
  staged : Option Mem := none
  /-- IMAGE_BYTES of the staged image (07 R278; 64). -/
  stagedBytes : Nat := 0
  /-- a content key is kept (19 R838; 1). -/
  contentKey : Bool := false
  /-- the mailbox whose SEASON_UNLOAD with FORCE waits for its kills (07 Loading; 06 R248; -). -/
  unloading : Option Mbox := none
  /-- PART_STATUS.RUN_JOB and RUN_VALID (07 PART_STATUS; 7). -/
  runJob : Option Nat := none
  /-- switch in progress: incoming job, start cycle (07 R292; -). -/
  switch : Option (Nat × Nat) := none
  /-- PART_INTF.INDEX (07 R305, R317; 16). -/
  index : Nat := 0
  /-- PART_INTF.WINDOWS (07 R306; 16). -/
  windows : Nat := 0
  /-- PART_INTF_DETAIL ratios, by resource (07 R306; 4 x 16). -/
  detail : Tab Nat := []
  /-- interference of the current window, by resource (07 R305; record). -/
  intf : Tab Intf := []
  /-- PART_SWITCH_MAX (07 PART_SWITCH_MAX; 32). -/
  switchMax : Nat := 0
  /-- the four regulators (07 PART_REGn; R317; 4 x 64). -/
  regs : Tab Regulator := []
  /-- PART_UC_NACK.DARK (10 PART_UC_NACK; 16). -/
  nackDark : Nat := 0
  /-- PART_UC_NACK.RESET (10 PART_UC_NACK; 16). -/
  nackReset : Nat := 0
  /-- PART_UC_NACK.NO_ROUTE (10 PART_UC_NACK; 16). -/
  nackRoute : Nat := 0
  /-- PART_XFAULT_VA (11 PART_XFAULT_VA; R505; 48). -/
  xfVa : Nat := 0
  /-- PART_XFAULT_INFO (11 PART_XFAULT_INFO; R505; 64). -/
  xfInfo : BitVec 64 := 0
  /-- PART_HOLD.HOLDS (11 PART_HOLD; 16). -/
  holds : Nat := 0
  /-- PART_HOLD.MAX_TICKS (11 PART_HOLD; 16). -/
  maxTicks : Nat := 0
  /-- PART_HOLD.FAULTS (11 PART_HOLD; 16). -/
  faults : Nat := 0
  /-- PART_MEMERR.CE (11 PART_MEMERR; 16). -/
  memCe : Nat := 0
  /-- PART_MEMERR.UE (11 PART_MEMERR; 16). -/
  memUe : Nat := 0
  /-- PART_MEMERR.RETIRED (11 R503; 16). -/
  retired : Nat := 0
  /-- PART_SHADOW.FRACTION (17 R769; 3). -/
  fraction : Nat := 0
  /-- PART_SHADOW.TABLE_VALID (17 PART_SHADOW; 1). -/
  tableValid : Bool := false
  /-- PART_SHADOW_STATS.COMPARES (17 PART_SHADOW_STATS; R769; 32). -/
  compares : Nat := 0
  /-- PART_SHADOW_STATS.MISMATCHES (17 R738, R769; 16). -/
  mismatches : Nat := 0
  /-- PART_SHADOW_STATS.LAST_LAYER (17 PART_SHADOW_STATS; 10). -/
  lastLayer : Nat := 0
  /-- 2 MiB weight ranges awaiting restore (RELOAD) (07 R316; 11 R494; list). -/
  reload : List Nat := []
  /-- page table, level 1 (11 R467, R505; 8,192 x 64). -/
  l1 : Tab (BitVec 64) := []
  /-- page tables of levels 2 and 3 in CP memory, by address / 8 (11 R467, R505; x 64). -/
  tables : Tab (BitVec 64) := []
  /-- KV free list (11 R478, R505; list). -/
  kvFree : List Nat := []
  /-- unrepaired recoverable faults: the stopped transfer's tag, or 32768 + job + 64 x DVA page for an access without one (11 R485; list). -/
  faulted : List Nat := []
  /-- tick at which the partition reset began (18 R785; tick). -/
  resetAt : Nat := 0
  /-- operation of the reset, destroy or drain in progress (06 R239; op). -/
  resetOp : Option Nat := none
  /-- the steps before the reinstall have ended (18 R785; 1). -/
  resetDone : Bool := false
  /-- the reset in progress applies spare changes (18 R787; 1). -/
  remap : Bool := false
  /-- a partition reset waits for a column's transition: with spare changes, operation (15 R677; record). -/
  resetDue : Option (Bool × Option Nat) := none
  /-- DBG_STOPp (20 DBG_STOPp; 64). -/
  stop : DebugStop := {}
deriving DecidableEq, Repr

/-- One job. -/
structure Job where
  /-- partition (07 Jobs; 3). -/
  part : Nat := 0
  /-- job entry (07 Jobs; 4). -/
  entry : Nat := 0
  /-- priority (07 priority; 3). -/
  prio : Nat := 4
  /-- SILENT_MONTHS (06 JOB_START; 8). -/
  silentMonths : Nat := 3
  /-- 1 Idle 2 Running 3 Waiting 4 Killing (07 Job states; 8). -/
  state : Nat := 1
  /-- step offset in running cycles (07 R288; 32). -/
  offset : Nat := 0
  /-- step number (04 Work-list header STEP; 64). -/
  step : Nat := 0
  /-- layer in progress (07 layer table; 10). -/
  layer : Nat := 0
  /-- its previous layer boundary was a seam at which it held (07 R298; 1). -/
  heldSeam : Bool := false
  /-- SEAM_OVERRUNS (07 R297; 32). -/
  overruns : Nat := 0
  /-- STEPS (06 JOB_STATUS; 64). -/
  steps : Nat := 0
  /-- PREEMPTIONS (07 R296; 64). -/
  preempts : Nat := 0
  /-- an admission close is held in the next grid cycle (07 R290; 1). -/
  closeDue : Bool := false
  /-- the admission close of the coming step has been held (04 admission close; 1). -/
  closed : Bool := false
  /-- running cycles until an Idle job is ready (07 R290; 32). -/
  readyIn : Option Nat := none
  /-- grid cycle at which it became ready and waits for the tiles (07 R295; cycle). -/
  readyAt : Option Nat := none
  /-- running cycles it has waited for the tiles since it became ready (07 R295, PART_SWITCH_MAX; 32). -/
  waited : Nat := 0
  /-- tick at which the step in flight began (03 R134; tick). -/
  stepStart : Option Nat := none
  /-- entries holding a position in the step in flight (04 batch position; list). -/
  occupied : List Nat := []
  /-- entries admitted to the coming step, in rank order (04 R158; list). -/
  admitted : List Nat := []
  /-- LC positions of the step in flight (22 book 0x08; 16). -/
  lcAdm : Nat := 0
  /-- LC_LIMIT at the running step's close (22 R929; 16). -/
  lcLimitAt : Nat := 0
  /-- work list being built, grid cycle at which the close fell (04 R170; cycle). -/
  build : Option Nat := none
  /-- a solver job (13 R558; 1). -/
  solver : Bool := false
  /-- STATUS of a kill (07 R315; 16). -/
  killStatus : Nat := 0
  /-- DETAIL of a kill (07 R315; 8). -/
  killDetail : Nat := 0
  /-- tick at which the kill began (18 R783; tick). -/
  killAt : Nat := 0
  /-- the JOB_KILL operation (06 JOB_KILL; op). -/
  killOp : Option Nat := none
  /-- domain Month of the first step (12 R518; 64). -/
  startMonth : Nat := 0
  /-- Months since the job started (12 R546; count). -/
  fabMonths : Nat := 0
  /-- silent-slot counts, by peer (12 R543; <= 32 x 8). -/
  peers : Tab Nat := []
  /-- receive slots heard in this Month: port, slot (12 R541, R543; list). -/
  slotsIn : List (Nat × Nat) := []
  /-- FAB_JOB_SILENT.TOTAL (12 FAB_JOB_SILENTj; 16). -/
  silentTotal : Nat := 0
  /-- wake-schedule entries already started in this step (15 R661; list). -/
  wakeIdx : List Nat := []
  /-- transfer-schedule entries already started in this step (11 R479; list). -/
  xferIdx : List Nat := []
  /-- the shadow layer that ended last has been compared (17 R737; 1). -/
  compared : Bool := false
  /-- columns left powered for the rest of the step (15 R671; list). -/
  lateCols : List Nat := []
deriving DecidableEq, Repr

/-- One load in progress. -/
structure Load where
  /-- partition (07 load; 3). -/
  part : Nat := 0
  /-- SOURCE (06 SEASON_LOAD; 8). -/
  source : Nat := 0
  /-- VERIFY_ONLY (06 SEASON_LOAD; 1). -/
  verifyOnly : Bool := false
  /-- IMAGE_BYTES (06 SEASON_LOAD; 64). -/
  bytes : Nat := 0
  /-- bytes received (07 R280; bytes). -/
  img : Mem := []
  /-- granules received (07 R281; list). -/
  got : List Nat := []
  /-- no room for a staged image: bytes in OFFSET order only (07 R279; 1). -/
  inOrder : Bool := false
  /-- next byte expected (07 R279; 64). -/
  nextOff : Nat := 0
  /-- content key imported (19 R834; 1). -/
  key : Bool := false
  /-- SET_DIGEST of the imported blob (19 R835; 48 B). -/
  setDigest : Bytes := []
  /-- operation (06 R239; 16). -/
  op : Nat := 0
  /-- the load is ending under an override or abort (19 R857; 1). -/
  dark : Bool := false
deriving DecidableEq, Repr

/-- One message channel of a tile. -/
structure Channel where
  /-- configured (08 R373; 1). -/
  conf : Bool := false
  /-- destination tile (384h + 16x + y) (08 channel; 10). -/
  dst : Nat := 0
  /-- destination channel (08 channel; 6). -/
  dstChan : Nat := 0
  /-- path: planned or UC (08 channel; 1). -/
  planned : Bool := false
  /-- message size in flits (08 channel; 7). -/
  flits : Nat := 1
  /-- configured credit count (08 channel; count). -/
  credits : Nat := 0
  /-- credits available (08 R350; count). -/
  avail : Nat := 0
  /-- receiver's queue in its tile store (08 channel; 21). -/
  slotBase : Nat := 0
  /-- message slots of that queue (08 channel; count). -/
  slotCount : Nat := 0
  /-- next queue slot to be filled (08 channel; count). -/
  slotHead : Nat := 0
  /-- messages waiting: slot address, sending tile (08 R351; list). -/
  queue : List (Nat × Nat) := []
  /-- received messages held until RELEASE (08 R353; list). -/
  held : List (Nat × Nat) := []
  /-- messages of the planned path in flight, with their poisoned halves (08 R351; 22 book 0x0A; list). -/
  wire : List (Bytes × List Nat) := []
  /-- UC messages in flight (22 book 0x0A; count). -/
  flying : Nat := 0
  /-- credits returning (22 book 0x0A; count). -/
  returning : Nat := 0
  /-- credits borrowed, by lending channel (08 R354; count). -/
  borrowed : Tab Nat := []
  /-- credits lent (22 book 0x0A; count). -/
  lent : Nat := 0
deriving DecidableEq, Repr

/-- An open locked sequence. -/
structure LockState where
  /-- address of the LOCK (08 R345; 21). -/
  pc : Nat := 0
  /-- instructions executed inside (08 R341; 0-16). -/
  count : Nat := 0
  /-- buffered stores, oldest first (08 R342; bytes). -/
  stores : List Host.Cell := []
  /-- buffered semaphore changes, oldest first: s for an increment, 32 + s for a decrement (08 R342; list). -/
  sems : List (Nat × Nat) := []
  /-- g0-g7 and windows as they were at LOCK (08 R345; regs). -/
  saved : Tab (BitVec 64) := []
  /-- breakpoint met inside, taken at UNLOCK: index, address (20 R879; 5 + 21). -/
  bp : Option (Nat × Nat) := none
deriving DecidableEq, Repr

/-- One context-store entry. -/
structure Context where
  /-- program counter (08 Context store; R292; 21). -/
  pc : Nat := 0
  /-- g0-g7 and the window at depth 0 (08 Context store; 24 x 64). -/
  regs : Tab (BitVec 64) := []
  /-- TILE_WSTATE.DEPTH (08 Context store; 12). -/
  depth : Nat := 0
  /-- TILE_WSTATE.LOW (08 Context store; 12). -/
  low : Nat := 0
  /-- TILE_SPILL_BASE of the entry (08 Other tile registers; 32). -/
  spillBase : BitVec 32 := 0
  /-- TILE_SPILL_BYTES of the entry (08 Other tile registers; 32). -/
  spillBytes : BitVec 32 := 0
  /-- TILE_TRAP_VEC of the entry (08 Other tile registers; 32). -/
  trapVec : BitVec 32 := 0
  /-- TILE_SEM_KIND of the entry (08 Other tile registers; 32). -/
  semKind : BitVec 32 := 0
  /-- a task runs on the tile for this entry (08 R356; 1). -/
  live : Bool := false
  /-- the task has not run yet: registers, windows and vector registers are 0 (08 R356; 09 R420; 1). -/
  fresh : Bool := false
deriving DecidableEq, Repr

/-- One tile, by physical index 408h + 17x + py. -/
structure Tile where
  /-- TILE_STATUS.POWER: 0 Dormant 1 Awake 2 Dark (08 TILE_STATUS; 15 Tile states; 2). -/
  power : Nat := 2
  /-- TILE_STATUS.RUN: 0 running 1 waiting 2 halted by debug 3 halted by fault (08 TILE_STATUS; 2). -/
  run : Nat := 0
  /-- IN_TRAP (08 TILE_STATUS; 1). -/
  inTrap : Bool := false
  /-- IN_BLOCK (08 TILE_STATUS; 1). -/
  inBlk : Bool := false
  /-- LOCK_ABORTED (08 R345; 1). -/
  lockAborted : Bool := false
  /-- TILE_STATUS.JOB, while a task runs (08 TILE_STATUS; 6). -/
  job : Option Nat := none
  /-- TILE_STATUS.PC (08 TILE_STATUS; 32). -/
  pc : Nat := 0
  /-- TILE_FAULT.CAUSE (08 TILE_FAULT; 8). -/
  cause : BitVec 8 := 0
  /-- TILE_FAULT.DETAIL (08 TILE_FAULT; 8). -/
  fdetail : BitVec 8 := 0
  /-- TILE_FAULT.PC (08 TILE_FAULT; 32). -/
  faultPc : BitVec 32 := 0
  /-- TILE_WSTATE.DEPTH (08 TILE_WSTATE; 12). -/
  depth : Nat := 0
  /-- TILE_WSTATE.LOW (08 TILE_WSTATE; 12). -/
  low : Nat := 0
  /-- TILE_BLK_PROG.ROWS_DONE (08 TILE_BLK_PROG; 13). -/
  rowsDone : Nat := 0
  /-- TILE_BLK_PROG.ROWS_TOTAL (08 TILE_BLK_PROG; 13). -/
  rowsTotal : Nat := 0
  /-- TILE_BLK_PROG.DESC_ADDR (08 TILE_BLK_PROG; 21). -/
  descAddr : Nat := 0
  /-- TILE_FPCR as sampled when BLK issued (09 R402; 32). -/
  blkFpcr : BitVec 32 := 1
  /-- TILE_SPILL_BASE (08 Other tile registers; 32). -/
  spillBase : BitVec 32 := 0
  /-- TILE_SPILL_BYTES (08 Other tile registers; 32). -/
  spillBytes : BitVec 32 := 0
  /-- TILE_TRAP_VEC (08 Other tile registers; 32). -/
  trapVec : BitVec 32 := 0
  /-- TILE_SEM_KIND (08 Other tile registers; 32). -/
  semKind : BitVec 32 := 0
  /-- TILE_SEM_HELD mask (08 R349; 32). -/
  semHeld : BitVec 32 := 0
  /-- TILE_SEM_HELD job (08 R349; 6). -/
  semJob : Nat := 0
  /-- TILE_CRED_LOANED count (08 R354; 16). -/
  loaned : Nat := 0
  /-- TILE_CRED_LOANED job (08 R354; 6). -/
  loanJob : Nat := 0
  /-- TILE_ECC.CE (08 R320; 16). -/
  ce : Nat := 0
  /-- TILE_ECC.UE (08 TILE_ECC; 16). -/
  ue : Nat := 0
  /-- TILE_FPCR (08 TILE_FPCR; 32). -/
  fpcr : BitVec 32 := 1
  /-- TILE_DIGEST by job entry e: the current layer at e, the layer that ended last at 16 + e, the one before at 32 + e (17 R733; 64). -/
  digest : Tab (BitVec 64) := []
  /-- g0-g7 at 0-7, w n of window k at 8 + 16k + n (08 Registers and windows; R420; 136 x 64). -/
  regs : Tab (BitVec 64) := []
  /-- v0-v15, lane i of v at 64v + i (08 vector unit; R420; 1,024 x 32). -/
  vregs : Tab (BitVec 32) := []
  /-- tile store (08 Tile store; R373; 2 MiB). -/
  store : Mem := []
  /-- poison bits, by 32-byte granule (08 Tile store; R363; 65,536). -/
  poison : Tab Bool := []
  /-- tile semaphores (08 R347, R373; 32 x 16). -/
  sems : Tab Nat := []
  /-- message channels (08 R373; 64). -/
  chans : Tab Channel := []
  /-- open locked sequence (IN_LOCK) (08 R340; record). -/
  lock : Option LockState := none
  /-- context store, by job entry (08 Context store; R373; 16 x 256 B). -/
  ctx : Tab Context := []
  /-- address of the trapping CALL or RET (08 R330, R331; 21). -/
  trapPc : Nat := 0
  /-- target of the trapping CALL, none for a RET (08 R331; 21). -/
  trapJump : Option Nat := none
  /-- the breakpoint at the program counter has been taken; the next issue passes it (20 R878; 1). -/
  bpPassed : Bool := false
  /-- posted operations not yet acknowledged (SYNC) (09 SYNC; count). -/
  posted : Nat := 0
  /-- arrival buffer (10 R434, R362; 4 flits). -/
  arrivals : List UcPacket := []
  /-- parameter slot of a registered watch (11 R474; 16). -/
  watch : Option Nat := none
  /-- halt request, its grid cycle (20 R870; cycle). -/
  haltReq : Option Nat := none
  /-- a deferred GATE (15 R662; 1). -/
  gateDue : Bool := false
  /-- woken by unplanned traffic, cycle of the last traffic (15 R362; cycle). -/
  ucWoken : Option Nat := none
  /-- a WAKE is in progress (15 R661; 1). -/
  waking : Bool := false
  /-- traced, with its FILTER (20 R885; 32). -/
  trace : Option (BitVec 32) := none
  /-- trace queue (20 R885; 16 entries). -/
  traceQ : List TraceEntry := []
  /-- probe round in progress (17 R740; record). -/
  probe : Option ProbeRound := none
  /-- Hold (by its first grid cycle) in which the row group in progress has ended (11 R486; cycle). -/
  blkPause : Option Nat := none
  /-- the block operation was halted: its descriptor is checked again (09 R403; 1). -/
  blkAgain : Bool := false
  /-- fault cause that waits for the row group's end (08 R337; 8). -/
  blkEngine : Option Nat := none
deriving DecidableEq, Repr

/-- One transfer in flight, by tag. -/
structure Xfer where
  /-- partition (11 transfer; 3). -/
  part : Nat := 0
  /-- job concerned (11 Transfer faults; 6). -/
  job : Nat := 0
  /-- executing tile (logical), none for a QFE (11 transfer; 10). -/
  tile : Option Nat := none
  /-- function on whose behalf a QFE tag is held (11 R484; key). -/
  fn : Nat := 0
  /-- generation tag (05 R203; 16). -/
  gen : BitVec 16 := 0
  /-- KIND (11 Transfer descriptor; 8). -/
  kind : Nat := 0
  /-- FLAGS (11 Transfer descriptor; 8). -/
  flags : Nat := 0
  /-- SEM (11 Transfer descriptor; 8). -/
  sem : Nat := 0
  /-- TILE of a PUSH (logical index) (11 Transfer descriptor; 10). -/
  dst : Nat := 0
  /-- LOCAL_ADDR (11 Transfer descriptor; 21). -/
  localAddr : Nat := 0
  /-- BYTES (11 Transfer descriptor; 22). -/
  bytes : Nat := 0
  /-- REMOTE (11 Transfer descriptor; 48). -/
  remote : Nat := 0
  /-- started by the transfer schedule (11 R479; 1). -/
  planned : Bool := false
  /-- DONE_BYTES (11 R481; 22). -/
  done : Nat := 0
  /-- bytes requested (11 R479; 22). -/
  issued : Nat := 0
  /-- grid cycle of the oldest unanswered request (11 no response; cycle). -/
  reqCycle : Nat := 0
  /-- DPA of the request in flight (11 R469; 40). -/
  dpa : Nat := 0
deriving DecidableEq, Repr

/-- One solver problem, queued or started. -/
structure Problem where
  /-- skeleton index (13 R566; 12). -/
  skel : Nat := 0
  /-- SOLVE_DELTA packet, none for a tile request (13 problem; id). -/
  pkt : Option Nat := none
  /-- requesting tile (13 R586; 10). -/
  tile : Nat := 0
  /-- requesting tile's job (13 R587; 6). -/
  job : Nat := 0
  /-- channel on which a tile request came (13 R586; 6). -/
  chan : Nat := 0
  /-- TAG of a tile request (13 Tile solver request; 16). -/
  tag : Nat := 0
  /-- function (13 R582; key). -/
  fn : Nat := 0
  /-- generation tag (05 R203; 16). -/
  gen : BitVec 16 := 0
  /-- class (13 R582; 1). -/
  lc : Bool := true
  /-- METHOD (13 Methods; 8). -/
  method : Nat := 0
  /-- ITERATIONS (13 Methods; 16). -/
  iters : Nat := 0
  /-- grid cycle at which the deadline falls (13 R573; cycle). -/
  deadline : Option Nat := none
  /-- acceptance, grid cycle (13 acceptance; cycle). -/
  accepted : Nat := 0
  /-- acceptance, calendar tick (13 R583; tick). -/
  acceptedTick : Nat := 0
  /-- delta (13 delta; <= 4,032 B). -/
  delta : Bytes := []
  /-- the delta arrived poisoned (13 R597; 1). -/
  dpoison : Bool := false
  /-- solve engine (13 R581; 4). -/
  engine : Nat := 0
  /-- start, grid cycle (13 SOLVE_CYCLES; cycle). -/
  startAt : Nat := 0
  /-- start, calendar tick (03 R134; tick). -/
  startTick : Nat := 0
  /-- units completed after the delta write (13 unit; 16). -/
  unit : Nat := 0
  /-- the delta has been written (13 R567; 1). -/
  delivered : Bool := false
  /-- BEST_ITERATION (13 R571; 16). -/
  best : Nat := 0
  /-- residual of the best iterate (13 R571; 32). -/
  bestRes : BitVec 32 := 0
  /-- values of the best iterate (13 R571; list). -/
  bestVals : List (BitVec 32) := []
  /-- result FLAGS so far (13 R577, R580; 8). -/
  flags : Nat := 0
  /-- PIVOTS (13 R577; 16). -/
  pivots : Nat := 0
  /-- LAMBDA (13 R577; 32). -/
  lambda : BitVec 32 := 0
  /-- grid cycle at which the unit in progress began (13 R598; cycle). -/
  unitAt : Nat := 0
  /-- the packet has been ended; the result is discarded (05 R203; 1). -/
  ended : Bool := false
deriving DecidableEq, Repr

/-- One resident skeleton. -/
structure Skeleton where
  /-- allocated (13 R602; 1). -/
  used : Bool := false
  /-- REUSE (13 R560, R602; 18). -/
  reuse : Nat := 0
  /-- owning function (13 R563; key). -/
  fn : Nat := 0
  /-- generation tag (05 R203; 16). -/
  gen : BitVec 16 := 0
  /-- solver service (13 R563; 32). -/
  sid : Nat := 0
  /-- partition of the service (13 R601; 3). -/
  part : Nat := 0
  /-- 1 KiB blocks occupied (13 blocks; count). -/
  blocks : Nat := 0
  /-- skeleton image, structure and entry space (13 Skeleton header; <= 16,384 B). -/
  image : Bytes := []
  /-- poisoned entries of the entry space (13 R595; list). -/
  badEntries : List Nat := []
  /-- a structure granule is poisoned (13 R595; 1). -/
  badBody : Bool := false
  /-- queued problems, in acceptance order (13 R566; <= 8). -/
  queue : List Problem := []
  /-- SOLVE_DROP waiting for a started problem (03 R144; id). -/
  dropping : Option Nat := none
deriving DecidableEq, Repr

/-- One constraint solver. -/
structure Solver where
  /-- skeletons, by index (13 R602; 4,096). -/
  skels : Tab Skeleton := []
  /-- contexts held, by number (13 R602; 256). -/
  ctxs : Tab Problem := []
  /-- context last served, by engine (13 R581; 16 x 8). -/
  lastCtx : Tab Nat := []
  /-- context whose unit is in progress, by engine (13 R581; 16 x 8). -/
  busy : Tab Nat := []
  /-- SEQ_SOLVER_STATS.PARTIAL (13 SEQ_SOLVER_STATSh; 16). -/
  partials : Nat := 0
  /-- SEQ_SOLVER_STATS.PIVOT (13 SEQ_SOLVER_STATSh; 16). -/
  pivot : Nat := 0
  /-- SEQ_SOLVER_STATS.POISONED (13 SEQ_SOLVER_STATSh; 16). -/
  poisoned : Nat := 0
  /-- SEQ_SOLVER_MAX.LATENCY (13 SEQ_SOLVER_MAXh; 32). -/
  latency : Nat := 0
deriving DecidableEq, Repr

/-- One interrupt source. -/
structure IntSource where
  /-- ENABLE (14 INTC_SRC_s; 1). -/
  enable : Bool := false
  /-- MODE (14 INTC_SRC_s; 1). -/
  edge : Bool := false
  /-- WAKE (14 INTC_SRC_s; 1). -/
  wake : Bool := false
  /-- TARGET (14 INTC_SRC_s; 1). -/
  target : Nat := 0
  /-- GROUP (14 INTC_SRC_s; 5). -/
  group : Nat := 0
  /-- pending event of an edge-mode source (14 R606; 1). -/
  pend : Bool := false
  /-- LOST (14 R608; 1). -/
  lost : Bool := false
  /-- AUTOMASKED (14 R626; 1). -/
  masked : Bool := false
  /-- RECLAIMS (14 R625; 11). -/
  reclaims : Nat := 0
  /-- level of the input (14 R609; 1). -/
  input : Bool := false
  /-- grid cycle of the last edge distinguished (14 R612; cycle). -/
  edgeAt : Option Nat := none
  /-- a complete found RECLAIMS at 1,024: not pending after it (14 R640; 1). -/
  held : Bool := false
deriving DecidableEq, Repr

/-- One interrupt controller. -/
structure Intc where
  /-- INTC_STATUS.BAD_COMPLETEt (14 R619; 2). -/
  bad : List Nat := []
  /-- INTC_STATUS.AUTOMASK (14 R626; 1). -/
  automask : Bool := false
  /-- INTC_STATUS.PARITY (14 R641; 1). -/
  parity : Bool := false
  /-- INTC_LOST_COUNT (14 R608; 16). -/
  lostCount : Nat := 0
  /-- INTC_WAKE, sources latched (14 R628, R644; 64). -/
  latch : List Nat := []
  /-- HOLDOFF, by group (14 INTC_GROUP_g; 32 x 16). -/
  holdoff : Tab Nat := []
  /-- REMAIN, by group (14 R622; 32 x 16). -/
  remain : Tab Nat := []
  /-- source in service, by target (14 INTC_INSERVICE; R644; 2 x 11). -/
  service : Tab Nat := []
  /-- INTC_SPURIOUS, by target (14 R615; 2 x 16). -/
  spurious : Tab Nat := []
  /-- sources: private 64t + s, shared 64 + s (14 INTC_SRC_s; 1,148). -/
  srcs : Tab IntSource := []
deriving DecidableEq, Repr

/-- One fabric port. -/
structure Port where
  /-- FAB_PORTn_STATUS.STATE (12 FAB_PORTn_STATUS; R554; 3). -/
  state : Nat := 0
  /-- disabled by FAB_PORT (06 FAB_PORT; 1). -/
  disabled : Bool := false
  /-- FOREIGN (12 FAB_PORTn_STATUS; 1). -/
  foreign : Bool := false
  /-- PEER (12 FAB_PORTn_STATUS; 12). -/
  peer : Nat := 0
  /-- hop count to the root the peer advertises (12 upstream port; 4). -/
  hops : Nat := 0
  /-- domain of the peer, as it advertises it (12 Member, FOREIGN; 32). -/
  peerDomain : Option Nat := none
  /-- FAB_PORTn_DELAY (12 FAB_PORTn_DELAY; 20). -/
  delay : Nat := 0
  /-- FAB_PORTn_ERR.CE (12 FAB_PORTn_ERR; 16). -/
  ce : Nat := 0
  /-- FAB_PORTn_ERR.UE (12 FAB_PORTn_ERR; 16). -/
  ue : Nat := 0
  /-- UE codewords since Up (FAB_STATUS) (12 FAB_STATUS; 32). -/
  ueSinceUp : Nat := 0
  /-- uncorrectable codewords in this Month (12 Fabric failures; count). -/
  ueMonth : Nat := 0
  /-- FAB_PORTn_ERR.SILENT (12 FAB_PORTn_ERR; 16). -/
  silent : Nat := 0
  /-- FAB_PORTn_ERR.DISCARD (12 R532; 16). -/
  discard : Nat := 0
  /-- a partner's call is present (16 R708; 1). -/
  call : Bool := false
  /-- tick at which training began (16 R709; tick). -/
  trainAt : Nat := 0
  /-- port queue: partition or 8 for engines, frame (12 R531, R533; list). -/
  queue : List (Nat × Frame) := []
  /-- frame credits held (12 R531, R554; 10). -/
  credits : Nat := 512
  /-- frames sent and not yet credited (12 R534; 10). -/
  sentUncred : Nat := 0
  /-- frames in the receive buffer (12 R534, R554; 10). -/
  rx : Nat := 0
  /-- credits to be returned in the next slots (12 Slot sideband; 10). -/
  owed : Nat := 0
  /-- next slot to send (12 R509; 10). -/
  slot : Nat := 0
  /-- partition last served (12 R533; 3). -/
  lastPart : Nat := 0
  /-- a DELAY_REQ awaiting its answer, grid cycle (16 R711; cycle). -/
  chanDelay : Option Nat := none
deriving DecidableEq, Repr

/-- One issued fabric signal that is not settled. -/
structure Sig where
  /-- issuing function (03 R126; key). -/
  fn : Nat := 0
  /-- target index (03 R126; 6). -/
  target : Nat := 0
  /-- the packet's TAG (03 R126; 64). -/
  tag : BitVec 64 := 0
  /-- tick of the issue (03 R126; tick). -/
  tick : Nat := 0
  /-- generation tag (05 R203; 16). -/
  gen : BitVec 16 := 0
  /-- port of its route (12 R539; 4). -/
  port : Nat := 0
deriving DecidableEq, Repr

/-- One fabric signal that waits for a new route (R539): it is issued later. -/
structure HeldSig where
  /-- function (12 R539; key). -/
  fn : Nat := 0
  /-- target index (12 R539; 6). -/
  target : Nat := 0
  /-- SIG_COUNT (12 R539; 16). -/
  count : Nat := 0
  /-- the packet's TAG (12 R539; 03 R951; 64). -/
  tag : BitVec 64 := 0
  /-- partition whose work it is (12 R533; 3). -/
  part : Option Nat := none
  /-- generation tag (05 R203; 16). -/
  gen : BitVec 16 := 0
deriving DecidableEq, Repr

/-- The Almanac and the device semaphores. -/
structure Alm where
  /-- FAB_ALM_STATUS.STATE (12 FAB_ALM_STATUS; R554; 3). -/
  state : Nat := 0
  /-- ROOT (12 FAB_ALM_STATUS; 1). -/
  root : Bool := false
  /-- UPSTREAM (12 FAB_ALM_STATUS; 4). -/
  upstream : Nat := 15
  /-- HOPS (12 FAB_ALM_STATUS; 4). -/
  hops : Nat := 0
  /-- DEVICE (12 FAB_ALM_STATUS; 12). -/
  device : Nat := 0
  /-- FAB_ALM_DOMAIN (12 FAB_ALM_DOMAIN; 32). -/
  domain : Nat := 0
  /-- FAB_ALM_MONTH, domain Month (12 FAB_ALM_MONTH; 64). -/
  month : Nat := 0
  /-- FAB_ALM_SKEW.LAST, 0.1 ns (12 FAB_ALM_SKEW; 16 signed). -/
  skewLast : Int := 0
  /-- FAB_ALM_SKEW.MAX (12 FAB_ALM_SKEW; 16). -/
  skewMax : Nat := 0
  /-- phase slew still to be applied, 0.1 ns (12 R521; -). -/
  slew : Int := 0
  /-- the grid clock's frequency is locked to the upstream port (12 R519, R527; 1). -/
  locked : Bool := false
  /-- the root has answered with a device number (12 R527; 1). -/
  numbered : Bool := false
  /-- the Month was lengthened or shortened once at the join (12 R522, R527; 1). -/
  aligned : Bool := false
  /-- ALMANAC_JOIN in progress: operation and its Month (12 R528; op). -/
  joinOp : Option (Nat × Nat) := none
  /-- own Month of the last Equinox delivered (12 R525, R526; 64). -/
  lastEq : Nat := 0
  /-- at the root: device numbers given out (12 R527; set). -/
  members : List Nat := []
  /-- a leave takes effect at the next Month boundary (12 R530; 1). -/
  leaveAt : Bool := false
  /-- FAB_SEMh_s, by 2048h + s (12 R554; 4,096 x 64). -/
  sems : Tab (BitVec 64) := []
  /-- FAB_SEM_GRANTh_s (12 R554; 4,096 x 32). -/
  grants : Tab SemGrant := []
  /-- issued fabric signals, by SEQ (03 R126; list). -/
  sigs : Tab Sig := []
  /-- SEQ of the next signal (12 Unplanned frame; 16). -/
  sigSeq : Nat := 0
  /-- signals that wait for a new route (12 R539; list). -/
  heldSigs : List HeldSig := []
deriving DecidableEq, Repr

/-- One UC request that awaits its response. -/
structure UcReq where
  /-- requesting tile (physical), 1536 for an engine (10 R431; 10). -/
  tile : Nat := 1536
  /-- channel of an unplanned SEND (10 NACK handling; 7). -/
  chan : Nat := 64
  /-- the request (10 R431; packet). -/
  pkt : UcPacket := {}
deriving DecidableEq, Repr

/-- The Half Link and the mesh counters. -/
structure HalfLink where
  /-- FAB_HL_STATUS.STATE (10 FAB_HL_STATUS; 2). -/
  state : Nat := 0
  /-- FAB_HL_STATUS.AUDIT_ERR (10 FAB_HL_STATUS; 1). -/
  audit : Bool := false
  /-- FAB_HL_CREDn.TT_AVAIL, credits used, by direction (10 FAB_HL_CREDn; R460; 2 x 11). -/
  ttAvail : Tab Nat := []
  /-- FAB_HL_CREDn.CTL_AVAIL, credits used, by direction (10 FAB_HL_CREDn; R460; 2 x 8). -/
  ctlAvail : Tab Nat := []
  /-- FAB_HL_ERR.CE (10 FAB_HL_ERR; 16). -/
  ce : Nat := 0
  /-- FAB_HL_ERR.UE (10 FAB_HL_ERR; 16). -/
  ue : Nat := 0
  /-- control-share packets held at the sending ends (10 R447; list). -/
  waiting : List UcPacket := []
  /-- partition last granted a control-share slot, by direction (10 R451; 3). -/
  lastPart : Tab Nat := []
  /-- failed attempts to reach Up in this start (16 R719; 0-3). -/
  tries : Nat := 0
  /-- FAB_MESH_NACKh.DARK (10 FAB_MESH_NACKh; 2 x 16). -/
  nackDark : Tab Nat := []
  /-- FAB_MESH_NACKh.RESET (10 FAB_MESH_NACKh; 2 x 16). -/
  nackReset : Tab Nat := []
  /-- FAB_MESH_NACKh.NO_ROUTE (10 FAB_MESH_NACKh; 2 x 16). -/
  nackRoute : Tab Nat := []
  /-- FAB_MESH_NACKh.AUDIT_ERR (10 FAB_MESH_NACKh; 2). -/
  meshAudit : List Nat := []
  /-- FAB_MESH_ERRh.CE (10 FAB_MESH_ERRh; 2 x 16). -/
  meshCe : Tab Nat := []
  /-- FAB_MESH_ERRh.UE_DATA (10 FAB_MESH_ERRh; 2 x 16). -/
  meshUeData : Tab Nat := []
  /-- FAB_MESH_ERRh.UE_HEAD (10 FAB_MESH_ERRh; 2 x 16). -/
  meshUeHead : Tab Nat := []
  /-- UC credits out, by hop and class (10 R448; 4 per class). -/
  hopUsed : Tab Nat := []
  /-- UC requests awaiting their response, by number (10 R431; list). -/
  reqs : Tab UcReq := []
  /-- UC responses on their way to their requesters (10 R431; list). -/
  resps : List UcPacket := []
  /-- number of the next request (10 R431; count). -/
  reqSeq : Nat := 0
deriving DecidableEq, Repr

/-- Stack memory and its controllers. -/
structure Memory where
  /-- stack memory, by DPA (11 Device physical address map; R505; 192 GiB). -/
  stack : Mem := []
  /-- poison markers, by 64-byte granule (11 R464, R687; per granule). -/
  poison : Tab Bool := []
  /-- failed stack channels (11 R504; set of 0-127). -/
  failed : List Nat := []
  /-- corrected errors of each 64 KiB page, ticks within 24 h (11 R503; list). -/
  pageCe : Tab (List Nat) := []
  /-- grid cycle of each channel's last refresh (11 R466; cycle). -/
  refreshAt : Tab Nat := []
  /-- transfers in flight, by tag (11 R482, R505; 32,768). -/
  xfers : Tab Xfer := []
  /-- watch entries: partition, slot, tile (11 R473, R505; 64 per controller). -/
  watches : List (Nat × Nat × Nat) := []
deriving DecidableEq, Repr

/-- One tile's health record, by physical index. -/
structure Health where
  /-- STATE: 0 Normal 1 Observed 2 Quarantined 3 unmapped spare 4 retired (17 Health record; 8). -/
  state : Nat := 0
  /-- LAST_CAUSE (17 Health record; 8). -/
  cause : Nat := 0
  /-- FAILS (17 Health record; 16). -/
  fails : Nat := 0
  /-- TESTS (17 Health record; 16). -/
  tests : Nat := 0
  /-- ROUNDS (17 Health record; 32). -/
  rounds : Nat := 0
  /-- ROUND_FAILS (17 Health record; 32). -/
  roundFails : Nat := 0
  /-- SHADOW_MISMATCHES (17 Health record; 32). -/
  shadowBad : Nat := 0
  /-- STORE_CE (17 R729; 16). -/
  storeCe : Nat := 0
  /-- MISSED (17 R750; 16). -/
  missed : Nat := 0
  /-- NOT_REACHED (17 R745; 16). -/
  notReached : Nat := 0
  /-- tick at which the observation period ends (PERIOD_LEFT) (17 R748; tick). -/
  periodEnd : Nat := 0
  /-- DURATION_H of the period (17 R748; 8). -/
  periodH : Nat := 24
  /-- INTERVAL_S (17 R748; 12). -/
  interval : Nat := 10
  /-- tick of the next test (17 R748; tick). -/
  nextTest : Nat := 0
  /-- number of the current 24-hour period of STORE_CE, from readiness (17 R729; count). -/
  cePeriod : Nat := 0
  /-- LAST_EVENT_S (17 Health record; 32). -/
  eventS : Nat := 0
deriving DecidableEq, Repr

/-- One PROBE operation. -/
structure ProbeOp where
  /-- operation (17 R745; 16). -/
  op : Nat := 0
  /-- partition (17 PROBE; 3). -/
  part : Nat := 0
  /-- physical tiles with rounds left (17 R745; list). -/
  tiles : Tab Nat := []
  /-- package (17 R745; 32). -/
  pkg : Nat := 0
  /-- SEED (17 R745; 32). -/
  seed : Nat := 0
  /-- acceptance (17 R745; tick). -/
  tick : Nat := 0
deriving DecidableEq, Repr

/-- Identity of the part, fused at manufacture. -/
structure Ident where
  /-- assembly variant (21 SEC_LIKENESS; R1, R2; enum A B C D Z). -/
  variant : Variant := .D
  /-- spare-map class (21 SEC_LIKENESS; 8). -/
  spareClass : Nat := 1
  /-- behaviour level (21 SEC_LIKENESS; R897-R903; 8). -/
  level : Nat := 1
  /-- serial number (21 SEC_SERIAL; 64). -/
  serial : BitVec 64 := 0
  /-- silicon revision (21 SEC_STEPPING; 8). -/
  stepping : BitVec 8 := 0
  /-- SEC_ROM_VERSION (21 SEC_ROM_VERSION; 32). -/
  romVersion : BitVec 32 := 0
  /-- SEC_FW_VERSION, 0 before verification (21, R703; 32). -/
  fwVersion : BitVec 32 := 0
  /-- fused minimum security version (19 R850, R852, R864; count). -/
  minSvn : Nat := 0
  /-- ROM boot has read the fuses (21 R925; 1). -/
  fusesRead : Bool := false
deriving DecidableEq, Repr

/-- Pins and what the straps showed at the last release of PERST#. -/
structure Pins where
  /-- VDD_AON is in tolerance (21 R906, power cycle; 1). -/
  aon : Bool := true
  /-- PERST# is asserted (16 R684; 21 R907; 1). -/
  perst : Bool := true
  /-- PWRGD is asserted (21 R904, R920; 1). -/
  pwrgd : Bool := false
  /-- REFCLK is absent and holds the PERST# reset (21 R923; 1). -/
  refclkLost : Bool := false
  /-- THERMTRIP# is asserted (21 R915; 1). -/
  thermtrip : Bool := false
  /-- SEC_STRAPS.X8 (21 R910; 1). -/
  x8 : Bool := false
  /-- SEC_STRAPS.SMBADDR (21 R910; 3). -/
  smbAddr : BitVec 3 := 0
  /-- SEC_STRAPS.ENROLL (21 R910, R846; 1). -/
  enroll : Bool := false
  /-- TEST_MODE as sampled (21 R912; 1). -/
  testMode : Bool := false
deriving DecidableEq, Repr

/-- Grid clock, calendar and Month counts. -/
structure Clock where
  /-- grid cycles since power-on (00 Notation; R25; count). -/
  cycle : Nat := 0
  /-- grid cycles into the calendar tick, 0-1499 (15 calendar tick; 0-1499). -/
  sub : Nat := 0
  /-- PWR_TICK, calendar ticks since PERST# release (15 R659, R683; 64). -/
  tick : Nat := 0
  /-- tick at which the start in progress began (16 R684; 64). -/
  startTick : Nat := 0
  /-- tick of readiness (TIME_READ) (06 TIME_READ; 64). -/
  readyTick : Nat := 0
  /-- Months are being counted (01 R32; 15 R658; 1). -/
  monthsOn : Bool := false
  /-- Month count (01 R32; 16 R690; 64). -/
  months : Nat := 0
  /-- grid cycles into the Month (01 The Month; 0-61439). -/
  phase : Nat := 0
deriving DecidableEq, Repr

/-- Start-up: PWR_START and the progress of the sequence. -/
structure Start where
  /-- PWR_START.STAGE (16 PWR_START; 4). -/
  stage : Nat := 0
  /-- PWR_START.FAIL (16 PWR_START; 4). -/
  fail : Nat := 0
  /-- PWR_START.FW_SLOT (16 PWR_START; 1). -/
  fwSlot : Nat := 0
  /-- PWR_START.WARM (16 R726; 1). -/
  warm : Bool := false
  /-- PWR_START.STACKS_FAILED (16 R724; 8 bits). -/
  stacksFailed : List Nat := []
  /-- PWR_START.READY_MS (16 PWR_START; 16). -/
  readyMs : Nat := 0
  /-- PWR_START.EARLY_WRITES (16 R697; 16). -/
  earlyWrites : Nat := 0
  /-- a start sequence is in progress (16 R684; 1). -/
  running : Bool := false
  /-- ROM boot has ended (16 R701, R702; 1). -/
  romDone : Bool := false
  /-- configuration ready (16 R694; 1). -/
  cfgReady : Bool := false
  /-- the recovery configuration space of ROM is presented (16 R720; 1). -/
  recoveryCfg : Bool := false
  /-- next column to power, in the order of R685 (16 R685; 0-48). -/
  nextCol : Nat := 0
  /-- tick of the last column power-up (16 R685; 64). -/
  colTick : Nat := 0
  /-- columns that failed power-good in this start (16 R723, R725; set of 0-47). -/
  failedCols : List Nat := []
  /-- next stack to train (16 R686; 0-8). -/
  nextStack : Nat := 0
  /-- failed attempts on that stack (16 R686; 0-1). -/
  stackTries : Nat := 0
  /-- stack initialisation done or not needed (16 R687; 1). -/
  stacksDone : Bool := false
  /-- fabric ports have entered Listen (16 R706; 1). -/
  listening : Bool := false
  /-- firmware slot newly written that becomes active at readiness (19 R852; slot). -/
  pendingActive : Option Nat := none
deriving DecidableEq, Repr

/-- The power block and the always-on domain. -/
structure Power where
  /-- PWR_STATE.STATE (15 PWR_STATE; R683; 2). -/
  state : Nat := 1
  /-- PWR_STATE.READY (15 PWR_STATE; R690, R913; 1). -/
  ready : Bool := false
  /-- PWR_STATE.WAKE_SOURCE (15 R655; 10). -/
  wakeSource : Nat := 0
  /-- PWR_COLh, two bits per column, 24h + x (15 PWR_COLh; 48 x 2). -/
  cols : Tab Nat := []
  /-- grid cycle at which each column's transition began, 24h + x (15 R661, R671, R680; 48 x cycle). -/
  colSince : Tab Nat := []
  /-- PWR_DOMAINS, powered domains (15 PWR_DOMAINS; 29 bits). -/
  domains : List PowerDomain := []
  /-- PWR_STATS.QUIET_LATE (15 R671; 16). -/
  quietLate : Nat := 0
  /-- PWR_STATS.UNPLANNED_WAKES (15 R362; 16). -/
  unplannedWakes : Nat := 0
  /-- PWR_STATS.GATE_DEFERRED (15 R662; 16). -/
  gateDeferred : Nat := 0
  /-- PWR_ENERGY, millijoules since power-on (15 PWR_ENERGY; R683; 64). -/
  energy : Nat := 0
  /-- PWR_HEARTBEAT, per CP (18 R773; 4 x 16). -/
  beats : Tab Nat := []
  /-- the heartbeat value of the monitor's previous check (18 R774; 4 x 16). -/
  beatSeen : Tab Nat := []
  /-- PWR_HB_STATUS.MISSED (18 R774, R775; 4 x 3). -/
  missed : Tab Nat := []
  /-- ticks of the stalls of the last 10,000,000 ticks (STALLS) (18 R776; 0-2). -/
  stallTicks : List Nat := []
  /-- tick of the monitor's last check (18 R774; 64). -/
  checkTick : Nat := 0
  /-- PWR_RESETS.PART_RESETS (18 PWR_RESETS; 16). -/
  partResets : Nat := 0
  /-- PWR_RESETS.CP_RESTARTS (18 PWR_RESETS; 16). -/
  cpRestarts : Nat := 0
  /-- PWR_RESETS.WARM_RESETS (18 R801; 16). -/
  warmResets : Nat := 0
  /-- PWR_RESETS.KILL_ESCALATIONS (18 R783; 16). -/
  killEscalations : Nat := 0
  /-- PWR_LAST_RESET.CAUSE (18 R801; 8). -/
  lastCause : Nat := 0
  /-- PWR_LAST_RESET.UNIT (18 R801; 8). -/
  lastUnit : Nat := 0
  /-- PWR_LAST_RESET.INDEX (18 R801; 16). -/
  lastIndex : Nat := 0
  /-- PWR_RAILS (21 R922, R923; 9). -/
  rails : BitVec 9 := 0
  /-- an excursion waits to be logged at the next readiness (21 R922; 1). -/
  railsLate : Bool := false
  /-- die temperatures, by SOURCE code (21 PWR_THERMAL; 16 x 8). -/
  temps : Tab Nat := []
  /-- PWR_THERMAL.MAX (21 PWR_THERMAL; 8). -/
  tempMax : Nat := 0
  /-- dies at or above their alert temperature (21 R914; set of die). -/
  alerts : List Nat := []
  /-- an alert crossed in Winter whose HEALTH notice waits for Summer (21 R921; 1). -/
  alertOwed : Bool := false
  /-- PWR_THERMAL.TRIPPED (21 R915, R924; 1). -/
  tripped : Bool := false
  /-- PWR_AUDIT.MONTHS (22 PWR_AUDIT; R941; 32). -/
  auditMonths : Nat := 0
  /-- PWR_AUDIT.FAILURES (22 R931; 16). -/
  auditFails : Nat := 0
  /-- PWR_AUDIT.LAST_BOOK (22 R932; 8). -/
  lastBook : Nat := 0
  /-- the POWER_STATE operation in progress (15 R645, R650; op). -/
  winterOp : Option (Nat × Mbox) := none
  /-- tick at which DRAIN_MS of Autumn has passed (15 R647, R651; 64). -/
  winterDrain : Nat := 0
  /-- a wake event that came in Autumn, its source (15 R674; source). -/
  wakeOwed : Option Nat := none
  /-- the CP clocks run (15 Winter; R777; 1). -/
  cpClock : Bool := false
deriving DecidableEq, Repr

/-- The reset ladder, the error log, the retained dump and the spare maps. -/
structure Recovery where
  /-- flush phase in progress, tick at which it began (18 R799; tick). -/
  flush : Option Nat := none
  /-- the warm reset in progress captures a dump (18 R800; 1). -/
  flushDump : Bool := true
  /-- tick at which an accepted DEVICE_RESET begins (06 R251; tick). -/
  resetDue : Option Nat := none
  /-- the error log, oldest first, at most 8,192 (18 R805, R815; 8192 x 32 B). -/
  log : List LogEntry := []
  /-- SEQ of the last error-log entry (18 R805; 32). -/
  logSeq : Nat := 0
  /-- the retained dump held (18 R802, R815; 3,328 KiB). -/
  dump : Option Dump := none
  /-- a capture in progress (18 R803; -). -/
  capture : Option Capture := none
  /-- spare state per column, 24h + x (18 spare state byte; 48 x 8). -/
  spares : Tab SpareState := []
  /-- the spare maps as SPI NOR holds them (18 R789, R813; 48 x 8). -/
  spiSpares : Tab SpareState := []
  /-- CPs being restarted, with the tick at which it began (18 R794; 4). -/
  cpRestart : Tab Nat := []
  /-- the CP_RESTART operation in progress (18 R794; 06 R239; op). -/
  cpOp : Option Nat := none
deriving DecidableEq, Repr

/-- Mailboxes, operations, locks and lock-out. -/
structure Mail where
  /-- mailbox registers, by mailbox number (06 Mailbox registers; 518). -/
  boxes : Tab MailRegs := []
  /-- next operation number (06 R240, R263; 16). -/
  nextOp : Nat := 1
  /-- operation records, newest first, at most 256 ended (06 R241; 256). -/
  ops : List OpRec := []
  /-- objects locked, with the locking operation (06 R248; set). -/
  locks : List (LockObj × Nat) := []
  /-- host lock-out GROUP_MASK, 0 off (06 R250, R264; 16). -/
  lockout : BitVec 16 := 0
  /-- VF mailbox last taken in round robin (06 R253; 9). -/
  vfLast : Nat := 0
  /-- a management command queued behind a lock: opcode and tick (06 R255; -). -/
  mgmtWait : Option (Nat × Nat) := none
  /-- management commands answered STARTED that still wait behind a lock: operation, request (06 R255; list). -/
  late : List (Nat × Bytes) := []
deriving DecidableEq, Repr

/-- Trust, tenancy and management. -/
structure Sec where
  /-- owner root public key (19 R846; record). -/
  ownerKey : Option Bytes := none
  /-- tenancy epoch (19 R842, SEC_EPOCH; 32). -/
  epoch : Nat := 1
  /-- tenant turnover in progress, its operation (19 R839; op). -/
  turnover : Option Nat := none
  /-- DBG_STATE.SINCE_POWER_ON (20 DBG_STATE; 1). -/
  since : Bool := false
  /-- debug unlocked (20 R896; 1). -/
  unlocked : Bool := false
  /-- outstanding challenge: NONCE and tick (20 R865, R866; 48 B). -/
  challenge : Option (Nat × Nat) := none
  /-- SPDM sessions, with the tick of the last heartbeat (19 R826, R827; 0-4). -/
  sessions : Tab Nat := []
  /-- link stream Secure, by the session that keyed it (19 SEC_STATE.LINK_IDE; 1). -/
  linkIde : Option Nat := none
  /-- selective streams Secure, by the session that keyed them (19 SEC_STATE.SEL_IDE; 4). -/
  selIde : Tab Nat := []
  /-- an OWNER_UPDATE record that waits for the outstanding command (19 R859; record). -/
  ownerDue : Option Bytes := none
  /-- IDE Check Failed reports through AER (19 R828; count). -/
  aerIde : Nat := 0
  /-- management session (19 R845; 1). -/
  mgmt : Option MgmtSession := none
  /-- SEC_VIOLATION.COUNT (19 SEC_VIOLATION; 16). -/
  violations : Nat := 0
  /-- SEC_VIOLATION.MASTER (19 SEC_VIOLATION; 12). -/
  vMaster : Nat := 0
  /-- SEC_VIOLATION.TARGET (19 SEC_VIOLATION; 4). -/
  vTarget : Nat := 0
  /-- SEC_VIOLATION.NEED (19 SEC_VIOLATION; 2). -/
  vNeed : Nat := 0
  /-- active firmware slot (19 R851; SEC_STATE.FW_SLOT; 1). -/
  activeFw : Nat := 0
  /-- the two firmware slots in SPI NOR (19 R850; 2). -/
  fw : Tab FwSlot := []
  /-- FW_UPDATE and PATTERN_INSTALL images being received (19 BULK; -). -/
  uploads : List Upload := []
  /-- an accepted level raise waits for the warm start (21 R902; 1). -/
  raiseDue : Bool := false
  /-- pattern package slots in SPI NOR (17 R757, R768; 8). -/
  packages : Tab Package := []
  /-- MCTP endpoint ID (19 R853; 8). -/
  eid : Nat := 0
  /-- measurement changes: count per index of recomputations (19 R825; count). -/
  pkgDigests : Tab Nat := []
deriving DecidableEq, Repr

/-- The debug block. -/
structure Debug where
  /-- DBG_CTRL.FAULT_STOP (20 DBG_CTRL; 1). -/
  faultStop : Bool := false
  /-- DBG_WINBASE.BASE, in 256 KiB units (20 DBG_WINBASE; 3). -/
  winBase : Nat := 0
  /-- DBG_BPn (20 DBG_BPn; 32 x 64). -/
  bps : Tab BreakPt := []
  /-- trace ring (20 R885, R896; 32,768 x 16 B). -/
  ring : Tab TraceEntry := []
  /-- DBG_TRACE_PTR.NEXT (20 DBG_TRACE_PTR; 15). -/
  next : Nat := 0
  /-- DBG_TRACE_PTR.WRAPPED (20 DBG_TRACE_PTR; 1). -/
  wrapped : Bool := false
  /-- DBG_TRACE_PTR.LOST (20 DBG_TRACE_PTR; 16). -/
  lost : Nat := 0
deriving DecidableEq, Repr

/-- The register interface: the half latches of split 64-bit accesses. -/
structure Regs where
  /-- high half latched by a low-half read, by register address (00 R13, R15; 32 each). -/
  readLatch : Tab (BitVec 32) := []
  /-- low half held by a low-half write (00 R14, R16; 32 each). -/
  writeHold : Tab (BitVec 32) := []
deriving DecidableEq, Repr

/-- What the model shows of the device's answers (the model's own). -/
structure Out where
  /-- data of the last register or bus read (model's own (log 13); 64). -/
  read : BitVec 64 := 0
  /-- the last configuration request got CRS (16 R694; 1). -/
  crs : Bool := false
  /-- messages the device sent upstream or answered, oldest first (02 R78, R699; list). -/
  up : List UpMsg := []
deriving DecidableEq, Repr

/-- The whole block. -/
structure State where
  /-- commands that are waiting, first in, first out (model's own (the block's queue); list). -/
  pending : List Instr := []
  /-- identity of the part (21; group). -/
  ident : Ident := {}
  /-- pins and straps (21; group). -/
  pins : Pins := {}
  /-- clocks (01, 15; group). -/
  clk : Clock := {}
  /-- start-up (16; group). -/
  start : Start := {}
  /-- power block (15, 18, 21, 22; group). -/
  pwr : Power := {}
  /-- resets and recovery (18; group). -/
  ladder : Recovery := {}
  /-- PCIe configuration (02, 05; group). -/
  cfg : PcieCfg := {}
  /-- functions (05; 513). -/
  fns : Tab Func := []
  /-- service grants: VF, SERVICE_ID (05 R956; set). -/
  svcGrants : List (Nat × Nat) := []
  /-- DEVICE_STEP_LIMIT, ms (03 DEVICE_STEP_LIMIT; 16). -/
  stepLimit : Nat := 2000
  /-- queue pairs (02; <= 4,096). -/
  qps : Tab QueuePair := []
  /-- queue fetch engines (02; 16). -/
  qfes : Tab Qfe := []
  /-- fetch slots held (02; 16 x 128). -/
  fslots : Tab FetchSlot := []
  /-- translation cache: function, 4 KiB page (02 R945; unbounded). -/
  xlat : List (Nat × Nat) := []
  /-- ATS invalidations received and not yet completed: function, page (02 R72; list). -/
  invs : List (Nat × Nat) := []
  /-- page requests, sent and queued (02 R71; <= 64 sent per function). -/
  preqs : Tab PageReq := []
  /-- packets (03; list). -/
  pkts : Tab Packet := []
  /-- number of the next packet (the model's own) (model's own (log 10); count). -/
  nextPkt : Nat := 0
  /-- outboxes, oldest record first (03, 08; list). -/
  outbox : List Record := []
  /-- sequence table (04 R185; 16,384). -/
  seqs : Tab SeqEntry := []
  /-- SEQ_BUILDh.BUILD_MAX (04 SEQ_BUILD0; 2 x 18). -/
  buildMax : Tab Nat := []
  /-- partitions that exist (07; R41; <= 8). -/
  parts : Tab Part := []
  /-- jobs (07; R41; <= 64). -/
  jobs : Tab Job := []
  /-- loads in progress, by LOAD_ID (07; list). -/
  loads : Tab Load := []
  /-- tiles (08; 816). -/
  tiles : Tab Tile := []
  /-- Half Link and mesh (10; group). -/
  hl : HalfLink := {}
  /-- stacks, transfers, watches (11; group). -/
  mem : Memory := {}
  /-- fabric ports (12; 12). -/
  ports : Tab Port := []
  /-- Almanac and device semaphores (12; group). -/
  alm : Alm := {}
  /-- constraint solvers (13; 2). -/
  solvers : Tab Solver := []
  /-- interrupt controllers (14; 2). -/
  intcs : Tab Intc := []
  /-- health records (17; 816). -/
  health : Tab Health := []
  /-- PROBE operations (17; list). -/
  probes : List ProbeOp := []
  /-- mailboxes (06; group). -/
  mail : Mail := {}
  /-- trust, tenancy, management (19; group). -/
  sec : Sec := {}
  /-- debug block (20; group). -/
  dbg : Debug := {}
  /-- half latches (00; group). -/
  regs : Regs := {}
  /-- what the model shows of answers (model's own (log 13); group). -/
  out : Out := {}
  /-- counter that selects the next free value (model's own (log 7); count). -/
  fresh : Nat := 0
deriving DecidableEq, Repr

/-- The faults at which the block would stop. The spec gives every command an effect in every state, so no meaning raises one and
there is none to name: safe. -/
inductive Fault where
deriving DecidableEq, Repr

/-- The refusals. -/
inductive Refusal where
  /-- A command whose meaning is not written: raised only by an arm of `exec`. Safe. -/
  | notModelled (mnemonic : String)
deriving DecidableEq, Repr

/-- The block right after power-on with PERST# still asserted: every field at the default shown above (log 3, log 6). -/
def State.reset : State := {}

end Sys2Proof.Machine
end

