-- ==== Sys2Proof/Machine/Ops.lean ====
section
/-! DEFINITION. Named operations on tables, byte strings, memories and the parts of the state: the shared ground of every meaning. -/

namespace Sys2Proof

/-- The entry of number `k`, if the table lists one. -/
def Tab.look {α : Type} : Tab α → Nat → Option α
  | [], _ => none
  | (i, x) :: t, k => if i = k then some x else Tab.look t k

/-- The entry of number `k`, or `d` where the table lists none. -/
def Tab.val {α : Type} (t : Tab α) (k : Nat) (d : α) : α := (Tab.look t k).getD d

/-- Write entry `k`, keeping the numbers rising. -/
def Tab.put {α : Type} : Tab α → Nat → α → Tab α
  | [], k, x => [(k, x)]
  | (i, y) :: t, k, x => if k < i then (k, x) :: (i, y) :: t else if k = i then (k, x) :: t else (i, y) :: Tab.put t k x

/-- Remove entry `k`. -/
def Tab.del {α : Type} (t : Tab α) (k : Nat) : Tab α := t.filter (fun e => e.1 != k)

/-- Change entry `k` where it is listed. -/
def Tab.upd {α : Type} (t : Tab α) (k : Nat) (f : α → α) : Tab α := t.map (fun e => if e.1 = k then (e.1, f e.2) else e)

/-- Change every listed entry. -/
def Tab.updAll {α : Type} (t : Tab α) (f : Nat → α → α) : Tab α := t.map (fun e => (e.1, f e.1 e.2))

/-- The numbers listed. -/
def Tab.keys {α : Type} (t : Tab α) : List Nat := t.map (·.1)

/-- Keep the entries that pass a test. -/
def Tab.keep {α : Type} (t : Tab α) (p : Nat → α → Bool) : Tab α := t.filter (fun e => p e.1 e.2)

end Sys2Proof

namespace Sys2Proof.Machine

open Sys2Proof

/-! ## Numbers and byte strings -/

/-- A counter of `w` bits that holds at its maximum (R18). -/
def sat (w n : Nat) : Nat := min n (2 ^ w - 1)

/-- Bits `hi` down to `lo` of a number. -/
def bits (v hi lo : Nat) : Nat := (v >>> lo) % 2 ^ (hi + 1 - lo)

/-- One bit of a number. -/
def bit (v i : Nat) : Bool := v.testBit i

/-- 1 for true. -/
def b2n (b : Bool) : Nat := if b then 1 else 0

/-- Division rounded up. -/
def ceilDiv (a b : Nat) : Nat := (a + b - 1) / b

/-- The `n` bytes of a value, lowest first (R4). -/
def le : Nat → Nat → Bytes
  | 0, _ => []
  | n + 1, v => BitVec.ofNat 8 v :: le n (v / 256)

/-- The value of bytes, lowest first (R4). -/
def ofLe : Bytes → Nat
  | [] => 0
  | b :: t => b.toNat + 256 * ofLe t

/-- The `n`-byte field at offset `off`; bytes that are missing count as 0. -/
def fld (b : Bytes) (off n : Nat) : Nat := ofLe ((b.drop off).take n)

/-- `n` zero bytes. -/
def zeros (n : Nat) : Bytes := List.replicate n 0

/-- Cut or fill with zero bytes to `n` bytes. -/
def fit (n : Nat) (b : Bytes) : Bytes := (b ++ zeros n).take n

/-- Every byte from `off`, `n` of them, is 0. -/
def allZero (b : Bytes) (off n : Nat) : Bool := ((b.drop off).take n).all (· == 0)

/-- The field of `n` bytes of the patch replaces those of `b` at `off`. -/
def patch (b : Bytes) (off : Nat) (p : Bytes) : Bytes := fit off b ++ p ++ b.drop (off + p.length)

/-- A 64-bit or 32-bit word of bytes. -/
def word64 (b : Bytes) (off : Nat) : BitVec 64 := BitVec.ofNat 64 (fld b off 8)
def word32 (b : Bytes) (off : Nat) : BitVec 32 := BitVec.ofNat 32 (fld b off 4)

/-! ## Byte memories -/

/-- The byte at an address; an unlisted address reads as 0 (R363, R373, R687; log 4). -/
def Mem.get : Mem → Nat → Byte
  | [], _ => 0
  | (i, b) :: m, a => if i = a then b else Mem.get m a

/-- Write one byte; writing 0 removes the entry. -/
def Mem.set : Mem → Nat → Byte → Mem
  | [], a, b => if b = 0 then [] else [(a, b)]
  | (i, c) :: m, a, b =>
    if a < i then (if b = 0 then (i, c) :: m else (a, b) :: (i, c) :: m)
    else if a = i then (if b = 0 then m else (a, b) :: m)
    else (i, c) :: Mem.set m a b

/-- Read `n` bytes from an address. -/
def Mem.read (m : Mem) (a : Nat) : Nat → Bytes
  | 0 => []
  | n + 1 => Mem.get m a :: Mem.read m (a + 1) n

/-- Write a byte string at an address. -/
def Mem.write (m : Mem) (a : Nat) : Bytes → Mem
  | [] => m
  | b :: t => Mem.write (Mem.set m a b) (a + 1) t

/-- Write zero over a range: the entries of the range go. -/
def Mem.clear (m : Mem) (a n : Nat) : Mem := m.filter (fun c => decide (c.1 < a ∨ a + n ≤ c.1))

/-- The canonical form: addresses strictly rise and no listed byte is 0. -/
def Memory.wfFrom : Nat → Mem → Bool
  | _, [] => true
  | lo, (i, b) :: m => decide (lo ≤ i) && (b != 0) && Memory.wfFrom (i + 1) m

/-- The canonical form of a whole memory. -/
def Memory.wf (m : Mem) : Bool := Memory.wfFrom 0 m

/-! ## Free values -/

/-- The free value at hand (log 7). -/
def State.free (s : State) : Nat := Config.free s.fresh

/-- The state after `n` free values have been taken. -/
def State.took (s : State) (n : Nat) : State := { s with fresh := s.fresh + n }

/-! ## Parts of the state -/

/-- Something the block sends or answers (log 13). -/
def State.emit (s : State) (m : UpMsg) : State := { s with out := { s.out with up := s.out.up ++ [m] } }

def State.tile (s : State) (p : Nat) : Tile := s.tiles.val p {}
def State.setTile (s : State) (p : Nat) (x : Tile) : State := { s with tiles := s.tiles.put p x }
def State.modTile (s : State) (p : Nat) (f : Tile → Tile) : State := s.setTile p (f (s.tile p))

def State.setPart (s : State) (p : Nat) (x : Part) : State := { s with parts := s.parts.put p x }
def State.modPart (s : State) (p : Nat) (f : Part → Part) : State := { s with parts := s.parts.upd p f }

def State.setJob (s : State) (j : Nat) (x : Job) : State := { s with jobs := s.jobs.put j x }
def State.modJob (s : State) (j : Nat) (f : Job → Job) : State := { s with jobs := s.jobs.upd j f }

def State.setQp (s : State) (k : Nat) (x : QueuePair) : State := { s with qps := s.qps.put k x }
def State.modQp (s : State) (k : Nat) (f : QueuePair → QueuePair) : State := { s with qps := s.qps.upd k f }

def State.setFn (s : State) (f : Nat) (x : Func) : State := { s with fns := s.fns.put f x }
def State.fn (s : State) (f : Nat) : Func := s.fns.val f {}
def State.modFn (s : State) (f : Nat) (g : Func → Func) : State := s.setFn f (g (s.fn f))

def State.setPkt (s : State) (i : Nat) (x : Packet) : State := { s with pkts := s.pkts.put i x }
def State.modPkt (s : State) (i : Nat) (f : Packet → Packet) : State := { s with pkts := s.pkts.upd i f }

def State.seq (s : State) (e : Nat) : SeqEntry := s.seqs.val e {}
def State.setSeq (s : State) (e : Nat) (x : SeqEntry) : State := { s with seqs := s.seqs.put e x }
def State.modSeq (s : State) (e : Nat) (f : SeqEntry → SeqEntry) : State := s.setSeq e (f (s.seq e))

def State.port (s : State) (n : Nat) : Port := s.ports.val n {}
def State.setPort (s : State) (n : Nat) (x : Port) : State := { s with ports := s.ports.put n x }
def State.modPort (s : State) (n : Nat) (f : Port → Port) : State := s.setPort n (f (s.port n))

def State.solver (s : State) (h : Nat) : Solver := s.solvers.val h {}
def State.setSolver (s : State) (h : Nat) (x : Solver) : State := { s with solvers := s.solvers.put h x }
def State.modSolver (s : State) (h : Nat) (f : Solver → Solver) : State := s.setSolver h (f (s.solver h))

def State.intc (s : State) (h : Nat) : Intc := s.intcs.val h {}
def State.setIntc (s : State) (h : Nat) (x : Intc) : State := { s with intcs := s.intcs.put h x }
def State.modIntc (s : State) (h : Nat) (f : Intc → Intc) : State := s.setIntc h (f (s.intc h))

def State.setPwr (s : State) (f : Power → Power) : State := { s with pwr := f s.pwr }
def State.setStart (s : State) (f : Start → Start) : State := { s with start := f s.start }
def State.setRec (s : State) (f : Recovery → Recovery) : State := { s with ladder := f s.ladder }
def State.setSec (s : State) (f : Sec → Sec) : State := { s with sec := f s.sec }
def State.setMail (s : State) (f : Mail → Mail) : State := { s with mail := f s.mail }
def State.setAlm (s : State) (f : Alm → Alm) : State := { s with alm := f s.alm }
def State.setHl (s : State) (f : HalfLink → HalfLink) : State := { s with hl := f s.hl }
def State.setMem (s : State) (f : Memory → Memory) : State := { s with mem := f s.mem }
def State.setDbg (s : State) (f : Debug → Debug) : State := { s with dbg := f s.dbg }

/-- One after another over a list. -/
def forEach {α : Type} (l : List α) (s : State) (f : State → α → State) : State := l.foldl f s

/-- The least number below `n` that passes a test. -/
def firstFree (n : Nat) (ok : Nat → Bool) : Option Nat := (List.range n).find? ok

/-! ## What the variants have (00_scope.md, Table: Variants covered; R2, R3) -/

/-- The stack is on the part. -/
def Variant.hasStack (v : Variant) (k : Nat) : Bool :=
  match v with
  | .A => decide (k < 4)
  | .B => decide (k < 8)
  | .C => decide (k < 4)
  | .D => decide (k < 8)
  | .Z => false

/-- The fabric port is on the part. -/
def Variant.hasPort (v : Variant) (p : Nat) : Bool :=
  match v with
  | .A => false
  | .B => decide (p < 4)
  | .C => decide (p < 12)
  | .D => decide (p < 12)
  | .Z => decide (p < 12)

/-- The fabric ports of the part. -/
def State.portList (s : State) : List Nat := (List.range 12).filter (fun p => s.ident.variant.hasPort p)

/-- The stacks of the part. -/
def State.stackList (s : State) : List Nat := (List.range 8).filter (fun k => s.ident.variant.hasStack k)

/-! ## Tiles by name (06_mailboxes_and_commands.md, TILE field; R23, R423, R463) -/

/-- The spare state of a column, 24h + x. -/
def State.spare (s : State) (c : Nat) : SpareState := s.ladder.spares.val c {}

/-- The failed row of a column's spare map: a column has one from the remap on (R423, R790). -/
def State.failedRow (s : State) (c : Nat) : Option Nat :=
  if (s.spare c).mapped then some (s.spare c).row else none

/-- The physical row of logical row `y` in column `c` (R423). -/
def State.physRow (s : State) (c y : Nat) : Nat :=
  match s.failedRow c with
  | some f => if y < f then y else y + 1
  | none => y

/-- The physical index 408h + 17x + py of logical tile 384h + 16x + y. -/
def State.physOf (s : State) (i : Nat) : Nat :=
  let c := i / 16
  17 * c + s.physRow c (i % 16)

/-- The logical index of a physical tile, unless it is the failed or unmapped one. -/
def State.logOf (s : State) (p : Nat) : Option Nat :=
  (List.range 16).map (fun y => 16 * (p / 17) + y) |>.find? (fun i => s.physOf i == p)

/-- The column 24h + x of a physical tile. -/
def colOf (p : Nat) : Nat := p / 17

/-- The TILE name of a logical tile, PHYS 0. -/
def tileName (i : Nat) : Nat := i % 16 + 32 * (i / 16 % 24) + 1024 * (i / 384)

/-- The TILE name of a physical tile, PHYS 1. -/
def physName (p : Nat) : Nat := p % 17 + 32 * (p / 17 % 24) + 1024 * (p / 408) + 2048

/-- The TILE name of a column, row 0. -/
def colName (c : Nat) : Nat := 32 * (c % 24) + 1024 * (c / 24)

/-- The power domains of the dies that every variant has: spines, Half Link ends, solvers, sequence-table blocks, QFE cluster. -/
def baseDomains : List PowerDomain :=
  [.spine 0, .spine 1, .halfLink 0, .halfLink 1, .solver 0, .solver 1, .seq 0, .seq 1, .qfe]

/-- The logical tile that a TILE field with PHYS 0 names. -/
def logOfName (n : Nat) : Option Nat :=
  if n < 2048 ∧ bits n 4 0 < 16 ∧ bits n 9 5 < 24 then some (384 * bits n 10 10 + 16 * bits n 9 5 + bits n 4 0) else none

/-- The physical tile that a TILE field names, PHYS 0 or 1. -/
def State.physOfName (s : State) (n : Nat) : Option Nat :=
  if n < 2048 then (logOfName n).map s.physOf
  else if n < 4096 ∧ bits n 4 0 < 17 ∧ bits n 9 5 < 24 then some (408 * bits n 10 10 + 17 * bits n 9 5 + bits n 4 0)
  else none

/-- The partition that holds a column. -/
def State.partOfCol (s : State) (c : Nat) : Option Nat := (s.parts.find? (fun e => e.2.cols.contains c)).map (·.1)

/-- The partition of a physical tile. -/
def State.partOfTile (s : State) (p : Nat) : Option Nat := s.partOfCol (colOf p)

/-- The physical tiles of a partition's columns that carry a logical row, in logical order. -/
def State.tilesOfPart (s : State) (q : Part) : List Nat :=
  q.cols.flatMap (fun c => (List.range 16).map (fun y => s.physOf (16 * c + y)))

/-- The jobs of a partition. -/
def State.jobsOf (s : State) (p : Nat) : List Nat := (s.jobs.filter (fun e => e.2.part = p)).map (·.1)

/-- The job of an installed service: partition, job entry. -/
def State.jobOf (s : State) (p entry : Nat) : Option Nat :=
  (s.jobs.find? (fun e => decide (e.2.part = p ∧ e.2.entry = entry))).map (·.1)

/-- Where a service is installed: partition, job entry, record. -/
def State.svcOf (s : State) (sid : Nat) : Option (Nat × Nat × Svc) :=
  s.parts.findSome? (fun e => (e.2.svcs.find? (fun x => decide (x.2.sid = sid) && !x.2.withdrawn)).map (fun x => (e.1, x.1, x.2)))

/-- The Season owns fabric slots (FLAGS bit 1). -/
def Season.ownsSlots (x : Season) : Bool := bit x.flags 1

/-- The state that PART_STATUS.STATE shows (07, Table: Partition states): the first that applies. -/
def State.partState (s : State) (p : Nat) : Nat :=
  match s.parts.look p with
  | none => 0
  | some q =>
    if q.resetting then 7
    else if q.destroying then 8
    else if q.hold.isSome then 5
    else if q.loading.isSome then 2
    else if q.draining then 6
    else if (s.jobsOf p) ≠ [] then 4
    else if q.season.isSome then 3
    else 1

/-- The device is ready: PWR_STATE.READY. -/
def State.isReady (s : State) : Bool := s.pwr.ready

end Sys2Proof.Machine
end

