-- ==== Sys2Proof/Machine/Flags.lean ====
section
/-! DEFINITION. The arithmetic that the tile's control register TILE_FPCR governs: IEEE 754 binary32 with its rounding mode and the
conversions to the narrower formats (08_tiles.md, R324; 09_tile_instructions.md, R405-R408). -/

namespace Sys2Proof.Machine

open Sys2Proof

/-- A floating-point value: NaN, an infinity, or (-1)^s × m × 2^e. -/
inductive FVal where
  | nan
  | inf (s : Bool)
  | fin (s : Bool) (m : Nat) (e : Int)
deriving DecidableEq, Repr

/-- A format: exponent bits, fraction bits, and whether its top exponent codes infinities; E4M3 has only NaN there. -/
structure FFmt where
  eb : Nat
  mb : Nat
  ieee : Bool
deriving DecidableEq, Repr

def fp32 : FFmt := { eb := 8, mb := 23, ieee := true }
def bf16 : FFmt := { eb := 8, mb := 7, ieee := true }
def e5m2 : FFmt := { eb := 5, mb := 2, ieee := true }
def e4m3 : FFmt := { eb := 4, mb := 3, ieee := false }

def FFmt.bias (f : FFmt) : Nat := 2 ^ (f.eb - 1) - 1
def FFmt.width (f : FFmt) : Nat := 1 + f.eb + f.mb

/-- Read a pattern. -/
def unpackF (f : FFmt) (v : Nat) : FVal :=
  let s := v.testBit (f.eb + f.mb)
  let e := bits v (f.eb + f.mb - 1) f.mb
  let m := v % 2 ^ f.mb
  if f.ieee && e == 2 ^ f.eb - 1 then (if m = 0 then .inf s else .nan)
  else if !f.ieee && e == 2 ^ f.eb - 1 && m == 2 ^ f.mb - 1 then .nan
  else if e = 0 then .fin s m (1 - (f.bias : Int) - f.mb)
  else .fin s (m + 2 ^ f.mb) ((e : Int) - f.bias - f.mb)

/-- The bit length of a number. -/
def bitLen (m : Nat) : Nat := if m = 0 then 0 else Nat.log2 m + 1

/-- Drop `k` low bits under the rounding mode: 0 nearest-even, else toward zero. -/
def dropBits (rm m k : Nat) : Nat :=
  let q := m / 2 ^ k
  let r := m % 2 ^ k
  if rm = 0 ∧ 0 < k ∧ (2 ^ (k - 1) < r ∨ (r = 2 ^ (k - 1) ∧ q % 2 = 1)) then q + 1 else q

/-- Round m × 2^e to `p` significand bits with no exponent below `lo`: significand and exponent. -/
def roundF (rm m : Nat) (e : Int) (p : Nat) (lo : Int) : Nat × Int :=
  let e1 := max (e + bitLen m - p) lo
  let q := if e1 ≤ e then m * 2 ^ (e - e1).toNat else dropBits rm m (e1 - e).toNat
  if q = 2 ^ p then (2 ^ (p - 1), e1 + 1) else (q, e1)

/-- Write a value into a format under a rounding mode. `sat` is TILE_FPCR.SAT, which E4M3 alone obeys (08_tiles.md); a NaN becomes the
quiet pattern with sign 0 (0x7FC0_0000 in binary32, R405). -/
def packF (f : FFmt) (rm : Nat) (sat : Bool) (v : FVal) : Nat :=
  let sb (s : Bool) : Nat := b2n s * 2 ^ (f.eb + f.mb)
  let top := (2 ^ f.eb - 1) * 2 ^ f.mb
  let nan := if f.ieee then top + 2 ^ (f.mb - 1) else top + 2 ^ f.mb - 1
  let maxFin := if f.ieee then top - 1 else top + 2 ^ f.mb - 2
  let ovf (s : Bool) : Nat :=
    if f.ieee then (if rm = 0 then sb s + top else sb s + maxFin)
    else if sat then sb s + maxFin else sb s + nan
  match v with
  | .nan => nan
  | .inf s => if f.ieee then sb s + top else if sat then sb s + maxFin else sb s + nan
  | .fin s m e =>
    if m = 0 then sb s
    else
      let lo : Int := 1 - (f.bias : Int) - f.mb
      let r := roundF rm m e (f.mb + 1) lo
      if r.1 < 2 ^ f.mb then sb s + r.1
      else
        let ef := r.2 - lo + 1
        let code := ef.toNat * 2 ^ f.mb + (r.1 - 2 ^ f.mb)
        if maxFin < code then ovf s else sb s + code

/-- The exact sum of two values. -/
def addF (a b : FVal) (rm : Nat) : FVal :=
  match a, b with
  | .nan, _ => .nan
  | _, .nan => .nan
  | .inf s, .inf t => if s = t then .inf s else .nan
  | .inf s, .fin _ _ _ => .inf s
  | .fin _ _ _, .inf t => .inf t
  | .fin s m e, .fin t n g =>
    let lo := min e g
    let x : Int := (if s then -1 else 1) * (m * 2 ^ (e - lo).toNat : Nat)
    let y : Int := (if t then -1 else 1) * (n * 2 ^ (g - lo).toNat : Nat)
    let z := x + y
    if z = 0 then .fin (s && t || (rm = 2 && (s || t))) 0 0 else .fin (decide (z < 0)) z.natAbs lo

/-- The exact product of two values. -/
def mulF (a b : FVal) : FVal :=
  match a, b with
  | .nan, _ => .nan
  | _, .nan => .nan
  | .inf s, .inf t => .inf (s != t)
  | .inf s, .fin t n _ => if n = 0 then .nan else .inf (s != t)
  | .fin s m _, .inf t => if m = 0 then .nan else .inf (s != t)
  | .fin s m e, .fin t n g => .fin (s != t) (m * n) (e + g)

def negF : FVal → FVal
  | .nan => .nan
  | .inf s => .inf (!s)
  | .fin s m e => .fin (!s) m e

/-- The integer square root, one bit at a time from bit `k`. -/
def isqrtFrom (n : Nat) : Nat → Nat → Nat
  | 0, r => r
  | k + 1, r => let t := r + 2 ^ k; isqrtFrom n k (if t * t ≤ n then t else r)

/-- 1 / √m to 64 bits and a sticky bit, as (significand, exponent). -/
def rsqrtNat (m : Nat) : Nat × Int :=
  let n := 2 ^ 192 / m
  let q := isqrtFrom n 98 0
  (2 * q + b2n (!decide (q * q * m = 2 ^ 192)), -97)

/-- The reciprocal square root. -/
def rsqF (a : FVal) : FVal :=
  match a with
  | .nan => .nan
  | .inf s => if s then .nan else .fin false 0 0
  | .fin s m e =>
    if m = 0 then .inf s
    else if s then .nan
    else
      let odd := e % 2 ≠ 0
      let r := rsqrtNat (if odd then 2 * m else m)
      let h := (if odd then e - 1 else e) / 2
      .fin false r.1 (r.2 - h)

/-- TILE_FPCR: the rounding mode and SAT (08_tiles.md, Table: Other tile registers). -/
def fpRm (fpcr : BitVec 32) : Nat := bits fpcr.toNat 2 1
def fpSat (fpcr : BitVec 32) : Bool := fpcr.getLsbD 0

def f32 (v : BitVec 32) : FVal := unpackF fp32 v.toNat
def toF32 (rm : Nat) (v : FVal) : BitVec 32 := BitVec.ofNat 32 (packF fp32 rm false v)

def fadd (rm : Nat) (a b : BitVec 32) : BitVec 32 := toF32 rm (addF (f32 a) (f32 b) rm)
def fsub (rm : Nat) (a b : BitVec 32) : BitVec 32 := toF32 rm (addF (f32 a) (negF (f32 b)) rm)
def fmul (rm : Nat) (a b : BitVec 32) : BitVec 32 := toF32 rm (mulF (f32 a) (f32 b))
def ffma (rm : Nat) (a b c : BitVec 32) : BitVec 32 := toF32 rm (addF (mulF (f32 a) (f32 b)) (f32 c) rm)
def frsq (rm : Nat) (a : BitVec 32) : BitVec 32 := toF32 rm (rsqF (f32 a))

/-- The value's order as an integer at the scale of the smallest subnormal of binary32. -/
def FVal.key : FVal → Int
  | .nan => 0
  | .inf s => if s then -(2 ^ 300) else 2 ^ 300
  | .fin s m e => (if s then -1 else 1) * (m * 2 ^ (e + 149).toNat : Nat)

/-- The spec gives no order of this pair: a NaN, or two zeros of different sign. -/
def FVal.open2 (a b : FVal) : Bool :=
  match a, b with
  | .nan, _ => true
  | _, .nan => true
  | .fin s m _, .fin t n _ => decide (m = 0 ∧ n = 0 ∧ s ≠ t)
  | _, _ => false

/-- The open result of a maximum or minimum with a NaN is a NaN or the other operand's pattern, whichever it is (log 16). -/
def fmaxB (a b : BitVec 32) : BitVec 32 :=
  if FVal.open2 (f32 a) (f32 b) then Config.vmaxOpen a b else if (f32 a).key < (f32 b).key then b else a
def fminB (a b : BitVec 32) : BitVec 32 :=
  if FVal.open2 (f32 a) (f32 b) then Config.vminOpen a b else if (f32 b).key < (f32 a).key then b else a

/-- FP32 to INT32 under the rounding mode; the value outside INT32 is open. -/
def fcvti (rm : Nat) (a : BitVec 32) : BitVec 32 :=
  match f32 a with
  | .fin s m e =>
    let n := if 0 ≤ e then m * 2 ^ e.toNat else dropBits rm m (-e).toNat
    let z : Int := if s then -(n : Int) else n
    if -(2 ^ 31) ≤ z ∧ z < 2 ^ 31 then BitVec.ofInt 32 z else Config.vcvtiOpen a
  | _ => Config.vcvtiOpen a

/-- INT32 to FP32. -/
def fcvtf (rm : Nat) (a : BitVec 32) : BitVec 32 :=
  toF32 rm (.fin (decide (a.toInt < 0)) a.toInt.natAbs 0)

/-- Lane pairs (2i, 2i + 1) combined (R408). -/
def pairUp {α : Type} (f : α → α → α) : List α → List α
  | a :: b :: t => f a b :: pairUp f t
  | l => l

/-- The fixed binary tree over 64 lanes (R408). -/
def tree64 (f : BitVec 32 → BitVec 32 → BitVec 32) (l : List (BitVec 32)) : BitVec 32 :=
  ((pairUp f (pairUp f (pairUp f (pairUp f (pairUp f (pairUp f l))))))).headD 0

/-- Convert an FP32 lane to a narrower float format. -/
def narrow (f : FFmt) (fpcr : BitVec 32) (a : BitVec 32) : Nat := packF f (fpRm fpcr) (fpSat fpcr) (f32 a)

/-- Convert a pattern of a narrower float format to FP32, exactly. -/
def widen (f : FFmt) (v : Nat) : BitVec 32 := toF32 0 (unpackF f v)

/-- INT8 of an INT32 lane, saturated (R406). -/
def satInt8 (a : BitVec 32) : Nat := (BitVec.ofInt 8 (max (-128) (min 127 a.toInt))).toNat

/-- The CRC-64 of the layer digest (R733): polynomial 0x42F0_E1EB_A9EA_3693, most significant bit first, from zero (log 21). -/
def crcBit (c : BitVec 64) : BitVec 64 := if c.getLsbD 63 then (c <<< 1) ^^^ 0x42F0E1EBA9EA3693 else c <<< 1
def crcByte (c : BitVec 64) (b : Byte) : BitVec 64 :=
  crcBit (crcBit (crcBit (crcBit (crcBit (crcBit (crcBit (crcBit (c ^^^ (b.setWidth 64 <<< 56)))))))))
def crc64 (c : BitVec 64) (l : Bytes) : BitVec 64 := l.foldl crcByte c

end Sys2Proof.Machine
end

