-- ==== Sys2Proof/Machine/Solve.lean ====
section
/-! DEFINITION. The formats of the constraint solver: skeleton images, deltas and results, and the arithmetic of residuals, clamps and
flags that the spec fixes (13_constraint_solver.md, Registers and structures; R565, R571, R576-R580). -/

namespace Sys2Proof.Machine

open Sys2Proof

/-! ## Binary32 values -/

/-- A binary32 pattern that is neither a NaN nor an infinity. -/
def finite32 (v : Nat) : Bool := bits v 30 23 != 255

/-- A binary32 pattern that is a NaN. -/
def isNan32 (v : BitVec 32) : Bool := f32 v == .nan

/-- One value is below another. -/
def lt32 (a b : BitVec 32) : Bool := decide ((f32 a).key < (f32 b).key)

/-- Rank of residuals (R571): a NaN ranks above every other value. -/
def resLess (a b : BitVec 32) : Bool := !isNan32 a && (isNan32 b || lt32 a b)

/-- Clamp into a range (R578, R579); a NaN has no place in it and stays. -/
def clamp32 (lo hi v : BitVec 32) : BitVec 32 := if isNan32 v then v else if lt32 v lo then lo else if lt32 hi v then hi else v

/-- The larger of two regularisations (R577). -/
def max32 (a b : BitVec 32) : BitVec 32 := if lt32 a b then b else a

/-- The `n` binary32 values at an offset. -/
def vals32 (b : Bytes) (off n : Nat) : List (BitVec 32) := (List.range n).map (fun i => word32 b (off + 4 * i))

/-! ## Skeleton images -/

def skelJoints (b : Bytes) : Nat := fld b 2 1
def skelCons (b : Bytes) : Nat := fld b 3 1
def skelDof (b : Bytes) : Nat := fld b 4 2
def skelTasks (b : Bytes) : Nat := fld b 6 1
def skelProject (b : Bytes) : Bool := bit (fld b 7 1) 0

/-- Offsets of the DOF, constraint and task records and of the entry space. -/
def skelDofAt (b : Bytes) : Nat := 64 + 96 * skelJoints b
def skelConsAt (b : Bytes) : Nat := skelDofAt b + 16 * skelDof b
def skelTasksAt (b : Bytes) : Nat := skelConsAt b + 64 * skelCons b
def skelEntryAt (b : Bytes) : Nat := skelTasksAt b + 32 * skelTasks b

/-- E = 4n + 7T + 8C entries (Table: Entry space). -/
def skelEntries (b : Bytes) : Nat := 4 * skelDof b + 7 * skelTasks b + 8 * skelCons b

/-- S, the size of the image. -/
def skelSize (b : Bytes) : Nat := skelEntryAt b + 4 * skelEntries b

/-- Entry `i` of the entry space. -/
def skelEntry (b : Bytes) (i : Nat) : BitVec 32 := word32 b (skelEntryAt b + 4 * i)

/-- DOF of a joint type; none for a reserved one. -/
def jointDof (t : Nat) : Option Nat :=
  match t with
  | 1 => some 1
  | 2 => some 1
  | 3 => some 2
  | 4 => some 3
  | 5 => some 6
  | 6 => some 0
  | _ => none

/-- The `n` binary32 values at an offset are finite. -/
def finiteAt (b : Bytes) (off n : Nat) : Bool := (List.range n).all (fun i => finite32 (fld b (off + 4 * i) 4))

/-- A joint record passes its checks. -/
def jointOk (b : Bytes) (j : Nat) : Bool :=
  let o := 64 + 96 * j
  let parent := fld b o 1
  let t := fld b (o + 1) 1
  (jointDof t == some (fld b (o + 2) 1)) && allZero b (o + 3) 1 && (if j = 0 then parent == 0xFF else decide (parent < j))
    && (t != 5 || j == 0) && finiteAt b (o + 4) 20 && !(bit (fld b (o + 0x2C) 4) 31 && decide (fld b (o + 0x2C) 4 ≠ 0x80000000))
    && allZero b (o + 0x54) 12

/-- A DOF record passes its checks. -/
def dofOk (b : Bytes) (i : Nat) : Bool :=
  let o := skelDofAt b + 16 * i
  finiteAt b o 4 && !lt32 (word32 b (o + 4)) (word32 b o)

/-- A constraint record passes its checks. -/
def consOk (b : Bytes) (i : Nat) : Bool :=
  let o := skelConsAt b + 64 * i
  let kind := fld b o 1
  let bb := fld b (o + 2) 1
  decide (1 ≤ kind ∧ kind ≤ 3 ∧ fld b (o + 1) 1 < skelJoints b ∧ (bb < skelJoints b ∨ bb = 0xFF)) && allZero b (o + 3) 1 && finiteAt b (o + 4) 4
    && (kind == 3 || allZero b (o + 0x10) 4) && allZero b (o + 0x14) 44

/-- A task record passes its checks. -/
def taskOk (b : Bytes) (i : Nat) : Bool :=
  let o := skelTasksAt b + 32 * i
  let mode := fld b (o + 1) 1
  decide (fld b o 1 < skelJoints b ∧ 1 ≤ mode ∧ mode ≤ 2) && allZero b (o + 2) 2 && finiteAt b (o + 4) 4 && allZero b (o + 0x14) 12

/-- The image fails a check (R561). -/
def skelBad (b : Bytes) : Bool :=
  let j := skelJoints b
  let n := skelDof b
  !(decide (fld b 0 2 = 1 ∧ 1 ≤ j ∧ j ≤ 64 ∧ skelCons b ≤ 32 ∧ 1 ≤ n ∧ n ≤ 192 ∧ skelTasks b ≤ 16 ∧ fld b 7 1 < 2)
    && allZero b 0x28 24 && decide (b.length = skelSize b) && finiteAt b 8 8
    && (List.range j).all (jointOk b) && decide ((List.range j).foldl (fun a i => a + fld b (64 + 96 * i + 2) 1) 0 = n)
    && (List.range n).all (dofOk b) && (List.range (skelCons b)).all (consOk b) && (List.range (skelTasks b)).all (taskOk b)
    && finiteAt b (skelEntryAt b) (skelEntries b))

/-! ## Deltas -/

/-- The set bits of a delta's mask, in ascending order, and the bytes of the mask, for a body of `e` entries. -/
def deltaMask (e : Nat) : Nat := 8 * ceilDiv e 64
def deltaBits (e : Nat) (d : Bytes) : List Nat := (List.range (8 * deltaMask e)).filter (fun i => bit (fld d (i / 8) 1) (i % 8))

/-- The size differs from 8W + 4 × (bits set) (R564). -/
def deltaSizeBad (e : Nat) (d : Bytes) : Bool := decide (d.length ≠ deltaMask e + 4 * (deltaBits e d).length)

/-- A bit at or above E, or a value that is not finite (R565). -/
def deltaBad (e : Nat) (d : Bytes) : Bool :=
  (deltaBits e d).any (fun i => decide (e ≤ i)) || !finiteAt d (deltaMask e) (deltaBits e d).length

/-- The image with the delta's values in its entry space (R567). -/
def applyDelta (b d : Bytes) : Bytes :=
  let e := skelEntries b
  (deltaBits e d).zipIdx.foldl (fun b x => patch b (skelEntryAt b + 4 * x.1) ((d.drop (deltaMask e + 4 * x.2)).take 4)) b

/-- The poisoned granules of 8 entries that the delta does not write whole (13, When things fail). -/
def poisonLeft (b d : Bytes) (bad : List Nat) : List Nat :=
  let l := deltaBits (skelEntries b) d
  bad.filter (fun g => !(List.range (min 8 (skelEntries b - 8 * g))).all (fun i => l.contains (8 * g + i)))

/-! ## Methods -/

/-- Rows of a constraint, of all constraints, and of all tasks. -/
def consRows (b : Bytes) (i : Nat) : Nat := if fld b (skelConsAt b + 64 * i) 1 = 3 then 1 else 3
def skelRows (b : Bytes) : Nat := (List.range (skelCons b)).foldl (fun a i => a + consRows b i) 0
def skelTaskRows (b : Bytes) : Nat := (List.range (skelTasks b)).foldl (fun a i => a + 3 * fld b (skelTasksAt b + 32 * i + 1) 1) 0

/-- The method is exact: it has no iterations (Table: Methods). -/
def exactMethod (m : Nat) : Bool := decide (m = 1 ∨ m = 3 ∨ m = 4)

/-- METHOD and ITERATIONS are in the ranges of Table: Methods. -/
def methodOk (m iters : Nat) : Bool :=
  if m = 2 then decide (1 ≤ iters ∧ iters ≤ 64) else if m = 5 then decide (1 ≤ iters ∧ iters ≤ 256) else exactMethod m && iters == 0

/-- Values that a method returns. -/
def methodValues (b : Bytes) (m : Nat) : Nat :=
  if m = 1 then 7 * skelJoints b else if m = 5 then skelDof b + skelRows b else skelDof b

/-- The method reads the entry (Table: Methods). -/
def methodReads (b : Bytes) (m i : Nat) : Bool :=
  let n := skelDof b
  let tasks := decide (4 * n ≤ i ∧ i < 4 * n + 7 * skelTasks b)
  if m = 1 then decide (i < n)
  else if m = 2 then decide (i < n) || tasks
  else if m = 3 then decide (i < 2 * n) || decide (3 * n ≤ i ∧ i < 4 * n)
  else if m = 4 then decide (i < 3 * n)
  else decide (i < 3 * n) || decide (4 * n + 7 * skelTasks b ≤ i ∧ i < skelEntries b)

/-- Grid cycles of a unit (Table: Unit cycle counts): 0 the delta write, 1 + k iteration k or the whole exact method. -/
def unitCycles (b : Bytes) (m unit deltaBytes : Nat) : Nat :=
  let j := skelJoints b
  let n := skelDof b
  let c := skelRows b
  let r := skelTaskRows b
  if unit = 0 then 16 + (deltaBytes - deltaMask (skelEntries b)) / 4
  else if m = 1 then 64 + 40 * j
  else if m = 3 then 64 + 90 * j
  else if m = 4 then 64 + 180 * j
  else if m = 2 then (if unit = 1 then 64 + 40 * j else 64 + 40 * j + 6 * r * n + r * r * r)
  else (if unit = 1 then 64 + 180 * j + 12 * c * n else 32 + 2 * c * c)

/-- Q_MIN, Q_MAX and QD_MAX of a degree of freedom. -/
def qMin (b : Bytes) (i : Nat) : BitVec 32 := word32 b (skelDofAt b + 16 * i)
def qMax (b : Bytes) (i : Nat) : BitVec 32 := word32 b (skelDofAt b + 16 * i + 4)
def qdMax (b : Bytes) (i : Nat) : BitVec 32 := word32 b (skelDofAt b + 16 * i + 8)
def effortMax (b : Bytes) (i : Nat) : BitVec 32 := word32 b (skelDofAt b + 16 * i + 12)

/-- With PROJECT set a clamp changes some applied joint force before forward or constrained dynamics (R579). -/
def tauClamped (b : Bytes) : Bool :=
  skelProject b && (List.range (skelDof b)).any (fun i =>
    let v := skelEntry b (2 * skelDof b + i)
    clamp32 (effortMax b i ^^^ 0x80000000) (effortMax b i) v != v)

/-- The ACTIVE entry of a constraint is 0.0. -/
def inactive (b : Bytes) (i : Nat) : Bool := (skelEntry b (4 * skelDof b + 7 * skelTasks b + 8 * i + 7)).toNat % 2 ^ 31 == 0

/-- The rows, in index order, that an inactive constraint keeps at λ = 0. -/
def rowsOff (b : Bytes) : List Bool := (List.range (skelCons b)).flatMap (fun i => List.replicate (consRows b i) (inactive b i))

/-- The values of iterate `k`, and whether a clamp changed one (R578-R580). Iterate 0 of inverse kinematics is the start q; of constrained
dynamics it has λ = 0. A clamp of tau counts where it changes what is returned, which is open (log 30). -/
def iterate (b : Bytes) (m iters k : Nat) : List (BitVec 32) × Bool :=
  let n := skelDof b
  let raw (i : Nat) : BitVec 32 :=
    if m = 2 ∧ k = 0 then skelEntry b i
    else if m = 5 ∧ n ≤ i ∧ (k = 0 ∨ (rowsOff b).getD (i - n) false) then 0
    else Config.solveValue b m iters k i
  let lim (i : Nat) (v : BitVec 32) : BitVec 32 :=
    if skelProject b then
      if m = 2 then clamp32 (qMin b i) (qMax b i) v
      else if m = 5 ∧ i < n then clamp32 (qdMax b i ^^^ 0x80000000) (qdMax b i) v
      else v
    else v
  let l := (List.range (methodValues b m)).map (fun i => (raw i, lim i (raw i)))
  (l.map (·.2), l.any (fun e => e.1 != e.2) || (decide (m = 4 ∨ m = 5) && tauClamped b && Config.solveClamped b m iters k))

/-- A method without a row: inverse kinematics of no task, constrained dynamics of no constraint. -/
def noRows (b : Bytes) (m : Nat) : Bool := decide (m = 2 ∧ skelTasks b = 0 ∨ m = 5 ∧ skelCons b = 0)

/-- Pivots and regularisation of iterate `k`: methods and iterations that divide by no pivot have none (13, Pivots and regularisation). -/
def unitPivots (b : Bytes) (m iters k : Nat) : Nat :=
  if m = 1 ∨ m = 3 ∨ (m = 2 ∧ k = 0) ∨ (noRows b m = true ∧ (m = 2 ∨ 0 < k)) then 0 else Config.solvePivots b m iters k
def unitLambda (b : Bytes) (m iters k : Nat) : BitVec 32 := if unitPivots b m iters k = 0 then 0 else Config.solveLambda b m iters k

/-- The residual of iterate `k`; an exact method's is 0, and so is a sum over no rows (Table: Methods). -/
def unitResidual (b : Bytes) (m iters k : Nat) : BitVec 32 := if exactMethod m ∨ noRows b m = true then 0 else Config.solveResidual b m iters k

end Sys2Proof.Machine
end

