-- ==== Sys2Proof/Machine/Operands.lean ====
section
/-! DEFINITION. Operands of a tile instruction: the five instruction formats and their decoding, the register file with its windows,
and the tile store with its poison bits (08_tiles.md; 09_tile_instructions.md). -/

namespace Sys2Proof.Machine

open Sys2Proof

/-! ## Instruction words -/

/-- The operations of the tile's instruction set (09, Table: Opcodes). -/
inductive TOp where
  | add | sub | and | or | xor | shl | shr | sra | mul | mulhu | slt | sltu | min | max | minu | maxu
  | addi | andi | ori | xori | shli | shri | srai | movi | movhi | slti
  | ld | lw | lh | lb | st | sw | sh | sb
  | beq | bne | blt | bge | bltu | bgeu | j | call
  | nop | ret | tret | callr | jr | lock | unlock | sync | waitcyc | waitcycS | rdoff | rdstep | rdid | rdjob | spillw | fillw
  | srr | srw
  | semInc | semAcq | semTry | semIncr
  | send | recv | release | credBorrow | credReturn
  | watch | pread | pwrite
  | blk | xfer | outboxPost
  | vadd | vsub | vmul | vfma | vmax | vmin | vexp | vlog | vrsq | vcvti | vcvtf | vbcast | vredsum | vredmax | viadd | vimul
  | vld | vst
deriving DecidableEq, Repr

/-- A decoded instruction: its operation and every field of its format. -/
structure TInst where
  op : TOp
  rd : Nat := 0
  ra : Nat := 0
  rb : Nat := 0
  imm : Nat := 0
  res : Nat := 0
  vd : Nat := 0
  va : Nat := 0
  vb : Nat := 0
  fmt : Nat := 0
deriving DecidableEq, Repr

/-- Register arithmetic, major 0x01: operation and which of RD, RA, RB it names. -/
def row01 : Nat → Option (TOp × Bool × Bool × Bool)
  | 0x0 => some (.add, true, true, true)
  | 0x1 => some (.sub, true, true, true)
  | 0x2 => some (.and, true, true, true)
  | 0x3 => some (.or, true, true, true)
  | 0x4 => some (.xor, true, true, true)
  | 0x5 => some (.shl, true, true, true)
  | 0x6 => some (.shr, true, true, true)
  | 0x7 => some (.sra, true, true, true)
  | 0x8 => some (.mul, true, true, true)
  | 0x9 => some (.mulhu, true, true, true)
  | 0xA => some (.slt, true, true, true)
  | 0xB => some (.sltu, true, true, true)
  | 0xC => some (.min, true, true, true)
  | 0xD => some (.max, true, true, true)
  | 0xE => some (.minu, true, true, true)
  | 0xF => some (.maxu, true, true, true)
  | _ => none

/-- Control, major 0x20: operation and which of RD, RA, RB it names. -/
def row20 : Nat → Option (TOp × Bool × Bool × Bool)
  | 0x0 => some (.nop, false, false, false)
  | 0x1 => some (.ret, false, false, false)
  | 0x2 => some (.tret, false, false, false)
  | 0x3 => some (.callr, false, true, false)
  | 0x4 => some (.jr, false, true, false)
  | 0x5 => some (.lock, false, false, false)
  | 0x6 => some (.unlock, false, false, false)
  | 0x7 => some (.sync, false, false, false)
  | 0x8 => some (.waitcyc, false, true, false)
  | 0x9 => some (.waitcycS, false, true, false)
  | 0xA => some (.rdoff, true, false, false)
  | 0xB => some (.rdstep, true, false, false)
  | 0xC => some (.rdid, true, false, false)
  | 0xD => some (.rdjob, true, false, false)
  | 0xE => some (.spillw, false, true, true)
  | 0xF => some (.fillw, false, true, true)
  | _ => none

/-- Parameter slots, major 0x25: operation and which of RD, RA, RB it names. -/
def row25 : Nat → Option (TOp × Bool × Bool × Bool)
  | 0x0 => some (.watch, true, true, true)
  | 0x1 => some (.pread, true, true, false)
  | 0x2 => some (.pwrite, true, true, false)
  | _ => none

/-- Descriptors, major 0x26: operation and which of RD, RA, RB it names. -/
def row26 : Nat → Option (TOp × Bool × Bool × Bool)
  | 0x0 => some (.blk, false, true, false)
  | 0x1 => some (.xfer, false, true, false)
  | 0x2 => some (.outboxPost, false, true, false)
  | _ => none

/-- A row of an R-format major. -/
def rowR (major func : Nat) : Option (TOp × Bool × Bool × Bool) :=
  if major = 0x01 then row01 func else if major = 0x20 then row20 func else if major = 0x25 then row25 func else if major = 0x26 then row26 func else none

/-- A row of an I-format major: operation, which of RD and RA it names, and the IMM16 bits that it uses. -/
def rowI (major : Nat) : Option (TOp × Bool × Bool × Nat) :=
  match major with
  | 0x02 => some (.addi, true, true, 16)
  | 0x03 => some (.andi, true, true, 16)
  | 0x04 => some (.ori, true, true, 16)
  | 0x05 => some (.xori, true, true, 16)
  | 0x06 => some (.shli, true, true, 6)
  | 0x07 => some (.shri, true, true, 6)
  | 0x08 => some (.srai, true, true, 6)
  | 0x09 => some (.movi, true, false, 16)
  | 0x0A => some (.movhi, true, false, 16)
  | 0x0B => some (.slti, true, true, 16)
  | 0x10 => some (.ld, true, true, 16)
  | 0x11 => some (.lw, true, true, 16)
  | 0x12 => some (.lh, true, true, 16)
  | 0x13 => some (.lb, true, true, 16)
  | 0x14 => some (.st, true, true, 16)
  | 0x15 => some (.sw, true, true, 16)
  | 0x16 => some (.sh, true, true, 16)
  | 0x17 => some (.sb, true, true, 16)
  | 0x18 => some (.beq, true, true, 16)
  | 0x19 => some (.bne, true, true, 16)
  | 0x1A => some (.blt, true, true, 16)
  | 0x1B => some (.bge, true, true, 16)
  | 0x1C => some (.bltu, true, true, 16)
  | 0x1D => some (.bgeu, true, true, 16)
  | 0x21 => some (.srr, true, false, 16)
  | 0x22 => some (.srw, false, true, 16)
  | _ => none

/-- Semaphores, major 0x23: operation and which of RD and RA it names. -/
def row23 : Nat → Option (TOp × Bool × Bool)
  | 0x0 => some (.semInc, false, true)
  | 0x1 => some (.semAcq, false, true)
  | 0x2 => some (.semTry, true, true)
  | 0x3 => some (.semIncr, true, true)
  | _ => none

/-- Channels, major 0x24: operation and which of RD and RA it names. -/
def row24 : Nat → Option (TOp × Bool × Bool)
  | 0x0 => some (.send, false, true)
  | 0x1 => some (.recv, true, false)
  | 0x2 => some (.release, false, false)
  | 0x3 => some (.credBorrow, false, true)
  | 0x4 => some (.credReturn, false, true)
  | _ => none

/-- A row of an X-format major. -/
def rowX (major func : Nat) : Option (TOp × Bool × Bool) :=
  if major = 0x23 then row23 func else if major = 0x24 then row24 func else none

/-- A row of the vector arithmetic major: operation and which of VD, VA, VB and RS it names. -/
def rowV (func : Nat) : Option (TOp × Bool × Bool × Bool × Bool) :=
  match func with
  | 0x0 => some (.vadd, true, true, true, false)
  | 0x1 => some (.vsub, true, true, true, false)
  | 0x2 => some (.vmul, true, true, true, false)
  | 0x3 => some (.vfma, true, true, true, false)
  | 0x4 => some (.vmax, true, true, true, false)
  | 0x5 => some (.vmin, true, true, true, false)
  | 0x6 => some (.vexp, true, true, false, false)
  | 0x7 => some (.vlog, true, true, false, false)
  | 0x8 => some (.vrsq, true, true, false, false)
  | 0x9 => some (.vcvti, true, true, false, false)
  | 0xA => some (.vcvtf, true, true, false, false)
  | 0xB => some (.vbcast, true, false, false, true)
  | 0xC => some (.vredsum, false, true, false, true)
  | 0xD => some (.vredmax, false, true, false, true)
  | 0xE => some (.viadd, true, true, true, false)
  | 0xF => some (.vimul, true, true, true, false)
  | _ => none

/-- A register field is right: a register's number where it is named, 0 where it is unused (R377). -/
def fieldOk (used : Bool) (n : Nat) : Bool := if used then decide (n ≤ 24) else decide (n = 0)

/-- A vector field is right. -/
def vfieldOk (used : Bool) (n : Nat) : Bool := used || decide (n = 0)

/-- Decode an instruction word; none where it raises cause 0x01 (R377, R395 of RES). -/
def decodeTile (w : Nat) : Option TInst :=
  let major := bits w 31 26
  let rd := bits w 25 21
  let ra := bits w 20 16
  let rb := bits w 15 11
  if major = 0x01 ∨ major = 0x20 ∨ major = 0x25 ∨ major = 0x26 then
    match rowR major (bits w 10 0) with
    | none => none
    | some (op, ud, ua, ub) =>
      if fieldOk ud rd && fieldOk ua ra && fieldOk ub rb then some { op := op, rd := rd, ra := ra, rb := rb } else none
  else if major = 0x1E then some { op := .j, imm := bits w 25 0 }
  else if major = 0x1F then some { op := .call, imm := bits w 25 0 }
  else if major = 0x23 ∨ major = 0x24 then
    match rowX major (bits w 9 0) with
    | none => none
    | some (op, ud, ua) =>
      let res := bits w 15 10
      if fieldOk ud rd && fieldOk ua ra && (major == 0x24 || decide (res < 32)) then some { op := op, rd := rd, ra := ra, res := res } else none
  else if major = 0x28 then
    match rowV (bits w 8 0) with
    | none => none
    | some (op, ud, ua, ub, us) =>
      let vd := bits w 25 22
      let va := bits w 21 18
      let vb := bits w 17 14
      let rs := bits w 13 9
      if vfieldOk ud vd && vfieldOk ua va && vfieldOk ub vb && fieldOk us rs then some { op := op, rd := rs, ra := rs, vd := vd, va := va, vb := vb }
      else none
  else if major = 0x29 then
    let fmt := bits w 4 1
    if decide (1 ≤ fmt ∧ fmt ≤ 6) && decide (bits w 8 5 = 0) && decide (bits w 21 14 = 0) && fieldOk true (bits w 13 9) then
      some { op := if bit w 0 then .vst else .vld, ra := bits w 13 9, vd := bits w 25 22, fmt := fmt }
    else none
  else
    match rowI major with
    | none => none
    | some (op, ud, ua, n) =>
      if fieldOk ud rd && fieldOk ua ra && decide (bits w 15 0 < 2 ^ n) then some { op := op, rd := rd, ra := ra, imm := bits w 15 0 } else none

/-! ## The encoder (09, Table: Instruction formats; Table: Opcodes) -/

/-- Major opcode and function code of an operation. -/
def tileCode : TOp → Nat × Nat
  | .add => (0x01, 0)
  | .sub => (0x01, 1)
  | .and => (0x01, 2)
  | .or => (0x01, 3)
  | .xor => (0x01, 4)
  | .shl => (0x01, 5)
  | .shr => (0x01, 6)
  | .sra => (0x01, 7)
  | .mul => (0x01, 8)
  | .mulhu => (0x01, 9)
  | .slt => (0x01, 10)
  | .sltu => (0x01, 11)
  | .min => (0x01, 12)
  | .max => (0x01, 13)
  | .minu => (0x01, 14)
  | .maxu => (0x01, 15)
  | .addi => (0x02, 0)
  | .andi => (0x03, 0)
  | .ori => (0x04, 0)
  | .xori => (0x05, 0)
  | .shli => (0x06, 0)
  | .shri => (0x07, 0)
  | .srai => (0x08, 0)
  | .movi => (0x09, 0)
  | .movhi => (0x0A, 0)
  | .slti => (0x0B, 0)
  | .ld => (0x10, 0)
  | .lw => (0x11, 0)
  | .lh => (0x12, 0)
  | .lb => (0x13, 0)
  | .st => (0x14, 0)
  | .sw => (0x15, 0)
  | .sh => (0x16, 0)
  | .sb => (0x17, 0)
  | .beq => (0x18, 0)
  | .bne => (0x19, 0)
  | .blt => (0x1A, 0)
  | .bge => (0x1B, 0)
  | .bltu => (0x1C, 0)
  | .bgeu => (0x1D, 0)
  | .j => (0x1E, 0)
  | .call => (0x1F, 0)
  | .nop => (0x20, 0)
  | .ret => (0x20, 1)
  | .tret => (0x20, 2)
  | .callr => (0x20, 3)
  | .jr => (0x20, 4)
  | .lock => (0x20, 5)
  | .unlock => (0x20, 6)
  | .sync => (0x20, 7)
  | .waitcyc => (0x20, 8)
  | .waitcycS => (0x20, 9)
  | .rdoff => (0x20, 10)
  | .rdstep => (0x20, 11)
  | .rdid => (0x20, 12)
  | .rdjob => (0x20, 13)
  | .spillw => (0x20, 14)
  | .fillw => (0x20, 15)
  | .srr => (0x21, 0)
  | .srw => (0x22, 0)
  | .semInc => (0x23, 0)
  | .semAcq => (0x23, 1)
  | .semTry => (0x23, 2)
  | .semIncr => (0x23, 3)
  | .send => (0x24, 0)
  | .recv => (0x24, 1)
  | .release => (0x24, 2)
  | .credBorrow => (0x24, 3)
  | .credReturn => (0x24, 4)
  | .watch => (0x25, 0)
  | .pread => (0x25, 1)
  | .pwrite => (0x25, 2)
  | .blk => (0x26, 0)
  | .xfer => (0x26, 1)
  | .outboxPost => (0x26, 2)
  | .vadd => (0x28, 0)
  | .vsub => (0x28, 1)
  | .vmul => (0x28, 2)
  | .vfma => (0x28, 3)
  | .vmax => (0x28, 4)
  | .vmin => (0x28, 5)
  | .vexp => (0x28, 6)
  | .vlog => (0x28, 7)
  | .vrsq => (0x28, 8)
  | .vcvti => (0x28, 9)
  | .vcvtf => (0x28, 10)
  | .vbcast => (0x28, 11)
  | .vredsum => (0x28, 12)
  | .vredmax => (0x28, 13)
  | .viadd => (0x28, 14)
  | .vimul => (0x28, 15)
  | .vld => (0x29, 0)
  | .vst => (0x29, 1)

/-- The word of an instruction: its major opcode in [31:26], then the fields of its format. -/
def encodeTile (i : TInst) : Nat :=
  let c := tileCode i.op
  let fields :=
    if c.1 = 0x01 ∨ c.1 = 0x20 ∨ c.1 = 0x25 ∨ c.1 = 0x26 then 2 ^ 21 * i.rd + 2 ^ 16 * i.ra + 2 ^ 11 * i.rb + c.2
    else if c.1 = 0x1E ∨ c.1 = 0x1F then i.imm
    else if c.1 = 0x23 ∨ c.1 = 0x24 then 2 ^ 21 * i.rd + 2 ^ 16 * i.ra + 2 ^ 10 * i.res + c.2
    else if c.1 = 0x28 then 2 ^ 22 * i.vd + 2 ^ 18 * i.va + 2 ^ 14 * i.vb + 2 ^ 9 * i.ra + c.2
    else if c.1 = 0x29 then 2 ^ 22 * i.vd + 2 ^ 9 * i.ra + 2 * i.fmt + c.2
    else 2 ^ 21 * i.rd + 2 ^ 16 * i.ra + i.imm
  2 ^ 26 * c.1 + fields

/-- The fields that an operation has are in range, and every other field is 0 (R377, R395). -/
def TInst.wf (i : TInst) : Bool :=
  let m := (tileCode i.op).1
  let none4 (a b c d : Nat) : Bool := decide (a = 0 ∧ b = 0 ∧ c = 0 ∧ d = 0)
  if m = 0x01 ∨ m = 0x20 ∨ m = 0x25 ∨ m = 0x26 then
    (match rowR m (tileCode i.op).2 with
      | some (_, ud, ua, ub) => fieldOk ud i.rd && fieldOk ua i.ra && fieldOk ub i.rb
      | none => false) && none4 i.imm i.res i.vd i.va && none4 i.vb i.fmt 0 0
  else if m = 0x1E ∨ m = 0x1F then decide (i.imm < 2 ^ 26) && none4 i.rd i.ra i.rb i.res && none4 i.vd i.va i.vb i.fmt
  else if m = 0x23 ∨ m = 0x24 then
    (match rowX m (tileCode i.op).2 with
      | some (_, ud, ua) => fieldOk ud i.rd && fieldOk ua i.ra && decide (i.res < if m = 0x24 then 64 else 32)
      | none => false) && none4 i.rb i.imm i.vd i.va && none4 i.vb i.fmt 0 0
  else if m = 0x28 then
    (match rowV (tileCode i.op).2 with
      | some (_, ud, ua, ub, us) =>
        vfieldOk ud i.vd && vfieldOk ua i.va && vfieldOk ub i.vb && fieldOk us i.ra && decide (i.rd = i.ra ∧ i.vd < 16 ∧ i.va < 16 ∧ i.vb < 16)
      | none => false) && none4 i.rb i.imm i.res i.fmt
  else if m = 0x29 then
    fieldOk true i.ra && decide (i.vd < 16 ∧ 1 ≤ i.fmt ∧ i.fmt ≤ 6) && none4 i.rd i.rb i.imm i.res && none4 i.va i.vb 0 0
  else
    (match rowI m with
      | some (_, ud, ua, n) => fieldOk ud i.rd && fieldOk ua i.ra && decide (i.imm < 2 ^ n)
      | none => false) && none4 i.rb i.res i.vd i.va && none4 i.vb i.fmt 0 0

/-- IMM16 sign-extended and zero-extended (R380). -/
def TInst.simm (i : TInst) : BitVec 64 := (BitVec.ofNat 16 i.imm).signExtend 64
def TInst.zimm (i : TInst) : BitVec 64 := BitVec.ofNat 64 i.imm

/-! ## Registers and windows -/

/-- The current window: depth mod 7, or window 7 in the trap window. -/
def Tile.win (x : Tile) : Nat := if x.inTrap then 7 else x.depth % 7

/-- Place of register number `n` in the register table: g0-g7, then w0-w15 of the current window. -/
def Tile.regKey (x : Tile) (n : Nat) : Nat := if n < 8 then n else 8 + 16 * x.win + (n - 8)

/-- Read a register by its number; ZR reads 0. -/
def Tile.reg (x : Tile) (n : Nat) : BitVec 64 := if n = 24 then 0 else x.regs.val (x.regKey n) 0

/-- Write a register by its number; a write of ZR is discarded. -/
def Tile.setReg (x : Tile) (n : Nat) (v : BitVec 64) : Tile := if n = 24 then x else { x with regs := x.regs.put (x.regKey n) v }

/-- Register w n of window k. -/
def Tile.wreg (x : Tile) (k n : Nat) : BitVec 64 := x.regs.val (8 + 16 * k + n) 0
def Tile.setWreg (x : Tile) (k n : Nat) (v : BitVec 64) : Tile := { x with regs := x.regs.put (8 + 16 * k + n) v }

/-- The 64 lanes of a vector register. -/
def Tile.vec (x : Tile) (v : Nat) : List (BitVec 32) := (List.range 64).map (fun i => x.vregs.val (64 * v + i) 0)

/-- Write the lanes of a vector register. -/
def Tile.setVec (x : Tile) (v : Nat) (l : List (BitVec 32)) : Tile :=
  { x with vregs := (l.zipIdx.foldl (fun t e => Tab.put t (64 * v + e.2) e.1) x.vregs) }

/-! ## Tile store -/

/-- Bytes of the tile store. -/
def storeBytes : Nat := 0x200000

/-- The 32-byte granules that a range touches. -/
def grans32 (a n : Nat) : List Nat := (List.range (ceilDiv (a % 32 + n) 32)).map (fun i => a / 32 + i)

/-- The first poisoned granule of a range, if there is one. -/
def Tile.poisonAt (x : Tile) (a n : Nat) : Option Nat := (grans32 a n).find? (fun g => x.poison.val g false)

/-- Set the poison bit of the granules of a range. -/
def Tile.poisonRange (x : Tile) (a n : Nat) : Tile := { x with poison := (grans32 a n).foldl (fun t g => t.put g true) x.poison }

/-- Write bytes to the tile store. Of the granules that the write covers whole, `bad` says whether each is poisoned; one that it
covers in part keeps its poison bit (log 24). -/
def Tile.storeWrite (x : Tile) (a : Nat) (b : Bytes) (bad : Nat → Bool) : Tile :=
  { x with
    store := x.store.write a b
    poison := (grans32 a b.length).foldl (fun t g =>
      if bad g then t.put g true
      else if a ≤ 32 * g ∧ 32 * g + 32 ≤ a + b.length then t.del g
      else t) x.poison }

/-- A write of data that is not poisoned. -/
def Tile.storeClean (x : Tile) (a : Nat) (b : Bytes) : Tile := x.storeWrite a b (fun _ => false)

/-- Read bytes of the tile store: a locked sequence sees its own buffered stores (R342). -/
def Tile.storeRead (x : Tile) (a n : Nat) : Bytes :=
  match x.lock with
  | none => x.store.read a n
  | some l => (l.stores.foldl (fun m c => Mem.set m c.1 c.2) x.store).read a n

/-! ## Tile semaphores -/

/-- A semaphore's count as the tile's program sees it: a locked sequence sees its own buffered changes (R342). -/
def Tile.sem (x : Tile) (i : Nat) : Nat :=
  let c := x.sems.val i 0
  match x.lock with
  | none => c
  | some l => l.sems.foldl (fun c e => if e.1 = i then c + e.2 else if e.1 = 32 + i then c - e.2 else c) c

/-- Add to a semaphore (R347, R349): a lock semaphore that becomes nonzero is held no more. -/
def Tile.semAdd (x : Tile) (i n : Nat) : Tile :=
  { x with sems := x.sems.put i (x.sems.val i 0 + n), semHeld := if n = 0 then x.semHeld else x.semHeld &&& ~~~(1#32 <<< i) }

/-- Take from a semaphore (R347, R349): a lock semaphore brought to 0 is held by the job. -/
def Tile.semSub (x : Tile) (i n j : Nat) : Tile :=
  let c := x.sems.val i 0 - n
  let y := { x with sems := x.sems.put i c }
  if c = 0 ∧ 0 < n ∧ x.semKind.getLsbD i then { y with semHeld := x.semHeld ||| (1#32 <<< i), semJob := j } else y

/-- The lock semaphores of a mask that are at count 0: TILE_SEM_HELD records each of them (R349; log 31). -/
def lockMask (kind : BitVec 32) (sems : Tab Nat) : BitVec 32 :=
  (List.range 32).foldl (fun m i => if kind.getLsbD i && sems.val i 0 == 0 then m ||| (1#32 <<< i) else m) 0

/-- Credits borrowed, debts to a past lender included (key 64). -/
def Channel.owedCredits (c : Channel) : Nat := c.borrowed.foldl (fun n e => n + e.2) 0

/-- A credit comes back to a channel (R353); one that a killed job had borrowed and spent goes to pay for it (R355; log 27). -/
def Channel.credit (c : Channel) : Channel :=
  let d := c.borrowed.val 64 0
  if d = 0 then { c with avail := c.avail + 1 }
  else if d = 1 then { c with borrowed := c.borrowed.del 64 }
  else { c with borrowed := c.borrowed.put 64 (d - 1) }

/-- A job's loans end: a channel gives back what it borrowed, of the credits at hand, and owes the rest. -/
def Channel.settleLoans (c : Channel) (back : Nat) : Channel :=
  let old := c.borrowed.val 64 0
  let n := c.owedCredits - old
  let debt := old + (n - c.avail)
  { c with
    avail := c.avail - n + back
    lent := c.lent - back
    borrowed := if debt = 0 then [] else [(64, debt)] }

end Sys2Proof.Machine
end

