-- ==== Sys2Proof/Machine/Reach.lean ====
section
/-! DEFINITION. Device addresses: the page-table walk, stack memory and tile windows with their poison, and reads and writes of a
partition's memory by device virtual address (11_device_memory_and_transfers.md). -/

namespace Sys2Proof.Machine

open Sys2Proof

/-! ## Translation (R467) -/

/-- Fields of a page-table entry. -/
def pteV (e : BitVec 64) : Bool := e.getLsbD 0
def pteLeaf (e : BitVec 64) : Bool := e.getLsbD 1
def pteR (e : BitVec 64) : Bool := e.getLsbD 2
def pteW (e : BitVec 64) : Bool := e.getLsbD 3
def pteTransient (e : BitVec 64) : Bool := e.getLsbD 5
def pteWeight (e : BitVec 64) : Bool := e.getLsbD 6
def pteAddr (e : BitVec 64) : Nat := bits e.toNat 39 8 * 256

/-- The outcome of a walk: a DPA with the WEIGHT bit, or a fault kind of PART_XFAULT_INFO (1 not-valid, 2 transient, 4 permission). -/
inductive Walk where
  | ok (dpa : Nat) (weight : Bool)
  | fault (kind : Nat)
deriving DecidableEq, Repr

/-- An entry of a level 2 or level 3 table in control-processor memory. -/
def Part.entry (q : Part) (table idx : Nat) : BitVec 64 := q.tables.val (table / 8 + idx) 0

/-- The access checks of a leaf entry. -/
def leafWalk (e : BitVec 64) (dpa : Nat) (write : Bool) : Walk :=
  if pteTransient e then .fault 2
  else if (if write then pteW e else pteR e) then .ok dpa (pteWeight e)
  else .fault 4

/-- Translate a device virtual address. -/
def Part.walk (q : Part) (dva : Nat) (write : Bool) : Walk :=
  let e1 := q.l1.val (bits dva 47 35) 0
  if !pteV e1 || pteLeaf e1 then .fault 1
  else
    let e2 := q.entry (pteAddr e1) (bits dva 34 21)
    if !pteV e2 then .fault 1
    else if pteLeaf e2 then leafWalk e2 (pteAddr e2 / 0x200000 * 0x200000 + dva % 0x200000) write
    else
      let e3 := q.entry (pteAddr e2) (bits dva 20 16)
      if !pteV e3 || !pteLeaf e3 then .fault 1
      else leafWalk e3 (pteAddr e3 / 0x10000 * 0x10000 + dva % 0x10000) write

/-! ## The device's memory by DPA -/

/-- Address of the tile windows. -/
def tileWindow : Nat := 0x4000000000

/-- Where a DPA lies: a stack channel, a logical tile, or nowhere (11, Table: Device physical address map). -/
inductive Place where
  | stack (ch : Nat)
  | tile (i : Nat)
  | nowhere
deriving DecidableEq, Repr

def placeOf (dpa : Nat) : Place :=
  if dpa < 0x3000000000 then .stack (dpa / 0x60000000)
  else if tileWindow ≤ dpa ∧ dpa < 0x4060000000 then .tile ((dpa - tileWindow) / 0x200000)
  else .nowhere

/-- A column that is retired (18, Table: Spare state byte). -/
def State.colRetired (s : State) (c : Nat) : Bool := (s.spare c).state == 5

/-- A stack channel of a partition that is being reset (R438). -/
def State.chanReset (s : State) (ch : Nat) : Bool := s.parts.any (fun e => e.2.resetting && e.2.chans.contains ch)

/-- How a tile answers an unplanned request (R436-R438): 0 it takes it, 1 TARGET_DARK, 2 TARGET_RESET, 3 NO_ROUTE. A column that waits for its
quiet condition still takes it (R670). -/
def State.tileNack (s : State) (i : Nat) : Nat :=
  if 768 ≤ i ∨ s.colRetired (i / 16) then 3
  else
    let p := s.physOf i
    let resetting := match s.partOfTile p with
      | some q => (match s.parts.look q with | some y => y.resetting | none => false)
      | none => false
    if resetting then 2 else if (s.tile p).power = 2 ∨ s.pwr.cols.val (colOf p) 0 < 2 then 1 else 0

/-- Unplanned traffic arrives for a Dormant tile: its wake begins (R362). -/
def startUcWake (p : Nat) (s : State) : State :=
  let x := s.tile p
  if x.power = 0 ∧ !x.waking then
    (s.setTile p { x with waking := true, ucWoken := some s.clk.cycle }).setPwr
      (fun w => { w with unplannedWakes := sat 16 (w.unplannedWakes + 1) })
  else s

/-- A 64-byte granule read by DPA: its bytes and the poison of its two halves, or a NACK code. -/
inductive Gran where
  | ok (b : Bytes) (p0 p1 : Bool)
  | nack (code : Nat)
deriving DecidableEq, Repr

/-- Read a whole 64-byte granule (R491, R492, R504). -/
def State.readGran (s : State) (dpa : Nat) : Gran :=
  let g := dpa / 64
  match placeOf dpa with
  | .stack ch =>
    if s.chanReset ch then .nack 2
    else if s.mem.failed.contains ch then .ok (s.mem.stack.read (64 * g) 64) true true
    else let p := s.mem.poison.val g false; .ok (s.mem.stack.read (64 * g) 64) p p
  | .tile i =>
    match s.tileNack i with
    | 0 =>
      let x := s.tile (s.physOf i)
      let a := dpa % 0x200000 / 64 * 64
      .ok (x.store.read a 64) (x.poison.val (a / 32) false) (x.poison.val (a / 32 + 1) false)
    | c => .nack c
  | .nowhere => .nack 3

/-- Write bytes inside one 64-byte granule; the halves' poison comes with the data (R492, R493, R502, R504), and a Dormant tile begins to wake
for it (R362). The result is the NACK
code, 0 for none, and the state. -/
def State.writeGran (s : State) (dpa : Nat) (b : Bytes) (p0 p1 : Bool) : Nat × State :=
  let g := dpa / 64
  match placeOf dpa with
  | .stack ch =>
    if s.chanReset ch then (2, s)
    else if s.mem.failed.contains ch then (0, s)
    else
      let whole := decide (b.length = 64)
      let old := s.mem.poison.val g false
      let bad := p0 || p1 || (!whole && old)
      (0, s.setMem (fun m => { m with
        stack := m.stack.write dpa b
        poison := if bad then m.poison.put g true else m.poison.del g }))
  | .tile i =>
    match s.tileNack i with
    | 0 =>
      let p := s.physOf i
      let a := dpa % 0x200000
      (0, (startUcWake p s).modTile p (fun x => x.storeWrite a b (fun k => if k % 2 = 0 then p0 else p1)))
    | c => (c, s)
  | .nowhere => (3, s)

/-! ## Accesses by DVA -/

/-- The outcome of an access: what it gives, a translation fault, or a NACK. -/
inductive Acc (α : Type) where
  | ok (a : α)
  | fault (kind : Nat)
  | nack (code : Nat)
deriving DecidableEq, Repr

/-- The 64-byte pieces of a range: address and length. -/
def pieces (a n : Nat) : List (Nat × Nat) :=
  (List.range (ceilDiv (a % 64 + n) 64)).map (fun k =>
    let lo := if k = 0 then a else a / 64 * 64 + 64 * k
    let hi := min (a + n) (a / 64 * 64 + 64 * (k + 1))
    (lo, hi - lo))

/-- A read of a range begins the wakes of the Dormant tiles that hold it (R362). -/
def wakeFor (q : Part) (a n : Nat) (s : State) : State :=
  forEach (pieces a n) s (fun s e =>
    match q.walk e.1 false with
    | .ok dpa _ => (match placeOf dpa with | .tile i => if s.tileNack i = 0 then startUcWake (s.physOf i) s else s | _ => s)
    | .fault _ => s)

/-- Bytes read through a partition's page table, with whether any of their granules is poisoned. -/
def State.readVa (s : State) (q : Part) (a n : Nat) : Acc (Bytes × Bool) :=
  (pieces a n).foldl (fun r e =>
    match r with
    | .ok (b, p) =>
      match q.walk e.1 false with
      | .ok dpa _ =>
        match s.readGran dpa with
        | .ok d p0 p1 =>
          let o := dpa % 64
          let bad := (p0 && decide (o < 32)) || (p1 && decide (32 < o + e.2))
          .ok (b ++ (d.drop o).take e.2, p || bad)
        | .nack c => .nack c
      | .fault k => .fault k
    | x => x) (.ok ([], false))

/-- The two poison bits of one 64-byte granule at an address. -/
def State.poisonVa (s : State) (q : Part) (a : Nat) : Bool × Bool :=
  match q.walk a false with
  | .ok dpa _ => (match s.readGran dpa with | .ok _ p0 p1 => (p0, p1) | .nack _ => (false, false))
  | .fault _ => (false, false)

/-- The page of an address lies in a weights region (the WEIGHT bit). -/
def Part.weightVa (q : Part) (a : Nat) : Bool := match q.walk a false with | .ok _ w => w | .fault _ => false

/-- Write bytes through a partition's page table; `bad` poisons all of them. -/
def State.writeVa (s : State) (q : Part) (a : Nat) (b : Bytes) (bad : Bool) : Acc State :=
  ((pieces a b.length).foldl (fun (r : Acc State × Bytes) e =>
    match r.1 with
    | .ok s1 =>
      match q.walk e.1 true with
      | .ok dpa _ =>
        let w := s1.writeGran dpa (r.2.take e.2) bad bad
        if w.1 = 0 then (.ok w.2, r.2.drop e.2) else (.nack w.1, r.2)
      | .fault k => (.fault k, r.2)
    | _ => r) (.ok s, b)).1

/-! ## Memory layout of the installed Season -/

/-- The region of a kind, of a job entry where the kind has one each (11, Table: Region record). -/
def Season.region (x : Season) (kind entry : Nat) : Option Region :=
  x.regions.find? (fun r => decide (r.kind = kind) && (decide (kind ≠ 5 ∧ kind ≠ 6) || decide (r.entry = entry)))

/-- Number of parameter slots of the partition, and the address of one. -/
def Part.slotCount (q : Part) : Nat :=
  match q.season with | some x => (match x.region 4 0 with | some r => r.bytes / 64 | none => 0) | none => 0
def Part.slotVa (q : Part) (n : Nat) : Nat :=
  match q.season with | some x => (match x.region 4 0 with | some r => r.dva + 64 * n | none => 0) | none => 0

/-- The address lies in some region of the layout. -/
def Part.inRegion (q : Part) (a : Nat) : Bool :=
  match q.season with | some x => x.regions.any (fun r => decide (r.dva ≤ a ∧ a < r.dva + r.bytes)) | none => false

/-- Where the page tables lie in control-processor memory (log 18): the L2 table of L1 entry i, and the L3 table of L2 entry j below it. -/
def l2Table (i : Nat) : Nat := 0x20000 * (i + 1)
def l3Table (i j : Nat) : Nat := 0x100000000 + 256 * (16384 * i + j)

/-- The address that an entry of the tables translates, by the entry's number (its address / 8). -/
def dvaOfEntry (k : Nat) : Nat :=
  if 0x100000000 ≤ 8 * k then
    let n := (8 * k - 0x100000000) / 256
    n / 16384 * 2 ^ 35 + n % 16384 * 2 ^ 21 + k % 32 * 2 ^ 16
  else (8 * k / 0x20000 - 1) * 2 ^ 35 + k % 16384 * 2 ^ 21

/-- The address of a tile-store granule in a weights region: a WEIGHT page of the partition's tables maps it (R372, cause 0x07). -/
def State.weightAt (s : State) (q : Part) (p g : Nat) : Option Nat :=
  match s.logOf p with
  | none => none
  | some i =>
    let dpa := tileWindow + 0x200000 * i + 32 * g
    (q.tables.find? (fun e => pteV e.2 && pteLeaf e.2 && pteWeight e.2 && decide (pteAddr e.2 / 0x10000 = dpa / 0x10000))).map
      (fun e => dvaOfEntry e.1 + dpa % 0x10000)

/-- The controller of an address's watch entries: a stack channel, or 128 + the tile window (R475). -/
def State.watchCtl (q : Part) (slot : Nat) : Nat :=
  match q.walk (q.slotVa slot) false with
  | .ok dpa _ => (match placeOf dpa with | .stack ch => ch | .tile i => 128 + i | .nowhere => 1024)
  | .fault _ => 1024

/-- A slot has been written: its watches are removed; the watching tiles then compare again (R474). -/
def slotWritten (part slot : Nat) (s : State) : State :=
  s.setMem (fun m => { m with watches := m.watches.filter (fun w => !decide (w.1 = part ∧ w.2.1 = slot)) })

end Sys2Proof.Machine
end

