-- ==== Sys2Proof/Machine/Events.lean ====
section
/-! DEFINITION. What the block tells its control processors and its drivers: interrupt sources, vector messages, the error log,
notices, and the end of long operations. -/

namespace Sys2Proof.Machine

open Sys2Proof

/-! ## Interrupt sources (14_interrupt_controller.md) -/

/-- Number of a source in an interrupt controller's table: private source `n` of target `t`, or shared source `n`. -/
def srcKey (t n : Nat) : Nat := if n < 64 then 64 * t + n else 64 + n

/-- Target whose private bank holds the source of a table number; none for a shared source. -/
def srcBank (key : Nat) : Option Nat := if key < 128 then some (key / 64) else none

/-- Source number of a table number. -/
def srcNum (key : Nat) : Nat := if key < 128 then key % 64 else key - 64

/-- The source map (R603): private sources 0-8, shared sources 64-101 and 128-263; a source whose block the variant lacks is not there. -/
def srcConnected (v : Variant) (h n : Nat) : Bool :=
  decide (n < 9) || decide (64 ≤ n ∧ n < 88) || (decide (88 ≤ n ∧ n < 100) && v.hasPort (n - 88)) || decide (100 ≤ n ∧ n < 102)
    || decide (128 ≤ n ∧ n < 174) || (decide (174 ≤ n ∧ n < 238) && v.hasStack (4 * h + (n - 174) / 16)) || decide (238 ≤ n ∧ n < 264)

/-- The source is in service at some target. -/
def Intc.inService (c : Intc) (key : Nat) : Bool :=
  match srcBank key with
  | some t => c.service.look t == some (srcNum key)
  | none => c.service.any (fun e => e.2 == srcNum key)

/-- The source has an event that waits for a claim (R606, R609). -/
def Intc.pending (c : Intc) (key : Nat) : Bool :=
  let x := c.srcs.val key {}
  if x.edge then x.pend && !c.inService key
  else x.enable && x.input && !c.inService key && !x.held

/-- The target that a source is routed to. -/
def Intc.routed (c : Intc) (key : Nat) : Nat := (srcBank key).getD (c.srcs.val key {}).target

/-- The source is eligible for a target (R613, R623). -/
def Intc.eligible (c : Intc) (t key : Nat) : Bool :=
  let x := c.srcs.val key {}
  decide (c.routed key = t) && x.enable && !x.masked && c.pending key && decide (c.remain.val x.group 0 = 0)

/-- The lowest-numbered eligible source of a target (R614): its private bank first. -/
def Intc.best (c : Intc) (t : Nat) : Option Nat :=
  ((c.srcs.keys.filter (fun k => c.eligible t k)).map srcNum).foldl (fun b n => match b with | none => some n | some m => some (min m n)) none

/-- A target's request line (R613). -/
def Intc.line (c : Intc) (t : Nat) : Bool := (c.best t).isSome && (c.service.look t).isNone

/-- The wake event begins Spring (R629, R655): the CP clocks restart, each latched edge source becomes pending and the latches clear
(R630), and the columns are powered next. A wake event in Autumn waits for Winter (R674). -/
def beginSpring (src : Nat) (s : State) : State :=
  if s.pwr.state = 0 then
    { s with
      pwr := { s.pwr with state := 1, wakeSource := src, cpClock := true, wakeOwed := none, missed := [], domains := baseDomains }
      hl := { s.hl with state := 2 }
      start := { s.start with running := true, nextCol := 0, colTick := s.clk.tick }
      clk := { s.clk with startTick := s.clk.tick, monthsOn := decide (s.start.stage = 6) }
      intcs := s.intcs.updAll (fun _ c =>
        { c with
          latch := []
          srcs := c.srcs.updAll (fun k x =>
            if c.latch.contains (srcNum k) && decide (128 ≤ k) && x.edge then { x with pend := true } else x) }) }
  else if s.pwr.state = 3 then
    { s with pwr := { s.pwr with wakeOwed := some src } }
  else s

/-- Put a source into the wake latch of its controller (R628) and wake the device (R629). -/
def latchWake (h n : Nat) (s : State) : State :=
  let c := s.intc h
  let x := c.srcs.val (srcKey 0 n) {}
  if decide (64 ≤ n ∧ n < 128) && x.enable && x.wake then
    beginSpring n (s.setIntc h { c with latch := if c.latch.contains n then c.latch else n :: c.latch })
  else s

/-- A rising edge at a source (R606-R608, R610, R612); while the controller's clock is stopped it goes to the wake latch. -/
def intcEdge (h key : Nat) (s : State) : State :=
  let c := s.intc h
  let x := c.srcs.val key {}
  if !s.pwr.cpClock then latchWake h (srcNum key) s
  else if !x.enable || !x.edge then s
  else if (match x.edgeAt with | some t => decide (s.clk.cycle < t + 2) | none => false) then s
  else
    let y := { x with edgeAt := some s.clk.cycle }
    if c.inService key then
      s.setIntc h { c with srcs := c.srcs.put key { y with lost := true }, lostCount := sat 16 (c.lostCount + 1) }
    else s.setIntc h { c with srcs := c.srcs.put key { y with pend := true } }

/-- The input of a source takes a level (R609, R620, R625); a rise of an edge-mode input is an edge. -/
def intcLevel (h key : Nat) (active : Bool) (s : State) : State :=
  let c := s.intc h
  let x := c.srcs.val key {}
  let rose := active && !x.input
  let y := { x with input := active, held := x.held && active, reclaims := if !active && !c.inService key && !x.edge then 0 else x.reclaims }
  let s1 := s.setIntc h { c with srcs := c.srcs.put key y }
  if rose && !s.pwr.cpClock then latchWake h (srcNum key) s1
  else if rose && x.edge then intcEdge h key s1
  else s1

/-- An event of a shared source wired to both controllers (R605). -/
def intcBoth (n : Nat) (s : State) : State := intcEdge 1 (srcKey 0 n) (intcEdge 0 (srcKey 0 n) s)

/-- A level of a shared source wired to both controllers. -/
def intcBothLevel (n : Nat) (active : Bool) (s : State) : State :=
  intcLevel 1 (srcKey 0 n) active (intcLevel 0 (srcKey 0 n) active s)

/-- An event of a shared source of one half. -/
def intcHalf (h n : Nat) (s : State) : State := intcEdge h (srcKey 0 n) s

/-- Source 5 of both targets follows the W1C bits of INTC_STATUS (14, Table: Source map). -/
def intcAttention (h : Nat) (s : State) : State :=
  let c := s.intc h
  let on := (c.bad ≠ []) || c.automask || c.parity
  intcLevel h 69 on (intcLevel h 5 on s)

/-! ## Vector messages (02_queue_interface_rings.md, R75) -/

/-- Send the message of a vector, or keep its pending bit while it is masked. -/
def msix (f v : Nat) (s : State) : State :=
  let x := s.fn f
  if x.msixEnable && !x.msixMask && x.vecUnmasked.contains v then s.emit (.msix f v)
  else s.modFn f (fun x => { x with vecPending := if x.vecPending.contains v then x.vecPending else v :: x.vecPending })

/-! ## The error log (18_hangs_resets_recovery.md, R805) -/

/-- Append an entry: SEQ counts from 1 and wraps past 0, and the ring keeps 8,192. -/
def logEvent (e : LogEntry) (s : State) : State :=
  let q := if s.ladder.logSeq = 0xFFFFFFFF then 1 else s.ladder.logSeq + 1
  let l := s.ladder.log ++ [{ e with seq := q, tick := s.clk.tick }]
  { s with ladder := { s.ladder with logSeq := q, log := l.drop (l.length - 8192) } }

/-! ## Notices (06_mailboxes_and_commands.md) -/

/-- Number of a mailbox in the mailbox table. -/
def Mbox.num : Mbox → Nat
  | .pf k => k
  | .sec => 4
  | .mgmt => 5
  | .vf v => 6 + v

/-- The function of a mailbox (R229, R244): the PF for the security mailbox; the management mailbox has none. -/
def Mbox.fn : Mbox → Option Nat
  | .pf _ => some 512
  | .sec => some 512
  | .vf v => some v
  | .mgmt => none

def State.box (s : State) (m : Mbox) : MailRegs := s.mail.boxes.val (Mbox.num m) {}
def State.setBox (s : State) (m : Mbox) (x : MailRegs) : State :=
  { s with mail := { s.mail with boxes := s.mail.boxes.put (Mbox.num m) x } }

/-- The 32 bytes of a notice entry. -/
def noticeEntry (kind nseq tick : Nat) (data : Bytes) : Bytes :=
  le 2 kind ++ le 2 nseq ++ le 4 tick ++ fit 24 data

/-- Write a notice into a mailbox's ring where its mask enables the kind (R243-R246). The management mailbox has no ring: its entries
go out as messages. -/
def notice (m : Mbox) (kind : Nat) (data : Bytes) (s : State) : State :=
  let b := s.box m
  if !bit b.mask.toNat kind then s
  else
    let n := (b.nseq + 1) % 65536
    let e := noticeEntry kind n s.clk.tick data
    let b1 := { b with nseq := n }
    match Mbox.fn m with
    | none => (s.setBox m b1).emit (.notice m e)
    | some f =>
      if (b.tail + 1) % 16 = b.head then
        s.setBox m { b1 with lostBit := true, lostCount := sat 16 (b.lostCount + 1) }
      else
        let s1 := s.setBox m { b1 with ring := b.ring.put b.tail e, tail := (b.tail + 1) % 16 }
        if b.noticeIrq then msix f 0 s1 else s1

/-- A notice to PF mailbox 0 and the management mailbox (kinds 0x0006-0x000C). -/
def noticeHost (kind : Nat) (data : Bytes) (s : State) : State := notice .mgmt kind data (notice (.pf 0) kind data s)

/-- The mailbox of a function that carries its notices: PF mailbox 0 or its own. -/
def boxOfFn (f : Nat) : Mbox := if f = 512 then .pf 0 else .vf f

/-- VF_STATE, JOB_ENDED, PARTITION_STATE, HEALTH, FABRIC and DEVICE_STATE notices. -/
def noticeVf (v state : Nat) (s : State) : State := noticeHost 6 (le 2 v ++ le 1 state) s
def noticeJob (j status detail : Nat) (s : State) : State := noticeHost 7 (le 1 j ++ le 1 detail ++ le 2 status) s
def noticePart (p : Nat) (s : State) : State := noticeHost 8 (le 1 p ++ le 1 (s.partState p)) s
def noticeHealth (tile event : Nat) (s : State) : State := noticeHost 9 (le 2 tile ++ le 1 event) s
/-- A FABRIC notice; a change of the Almanac's state is also an event of source 263 (14, Table: Source map). -/
def noticeFabric (port event : Nat) (s : State) : State :=
  noticeHost 10 (le 1 port ++ le 1 event) (if port = 0xFF then intcBothLevel 263 true s else s)
def noticePower (s : State) : State := noticeHost 12 (le 1 s.pwr.state) s

/-! ## Long operations (R239-R242) -/

/-- The operation's record, if it is one of those kept. -/
def State.opRec (s : State) (op : Nat) : Option OpRec := s.mail.ops.find? (fun r => decide (r.op = op))

/-- Of the ended operations keep the most recent 256 (R241). -/
def trimOps (l : List OpRec) : List OpRec :=
  let done := (l.filter (·.done)).take 256
  l.filter (fun r => !r.done || done.any (fun d => decide (d.op = r.op)))

/-- Deliver the final code of an operation: its record, its locks, its OPERATION_DONE notice (R241). -/
def deliverOp (op rc detail : Nat) (s : State) : State :=
  match s.opRec op with
  | none => s
  | some r =>
    if r.done then s
    else
      let ops := { r with done := true, rc := rc, detail := detail } :: s.mail.ops.filter (fun x => !decide (x.op = op))
      let s1 := { s with mail := { s.mail with ops := trimOps ops, locks := s.mail.locks.filter (fun l => !decide (l.2 = op)) } }
      notice r.mb 4 (le 2 op ++ le 2 r.opcode ++ le 2 rc ++ le 2 detail) s1

/-- End an operation. One that a CP restart has ended keeps its code until that is delivered (R259). -/
def endOp (op rc detail : Nat) (s : State) : State :=
  match s.opRec op with
  | none => s
  | some r => if r.rc = 0 then deliverOp op rc detail s else s

/-- End the operation, if there is one. -/
def endOpOf (op : Option Nat) (rc detail : Nat) (s : State) : State :=
  match op with
  | some o => endOp o rc detail s
  | none => s

/-- An access violation (19_trust_tenancy_management.md): SEC_VIOLATION, source 155 of the half and the error log. -/
def violation (h master target need : Nat) (s : State) : State :=
  let s1 := s.setSec (fun x => { x with violations := sat 16 (x.violations + 1), vMaster := master, vTarget := target, vNeed := need })
  intcHalf h 155 (logEvent { kind := 0x11, data := master + 65536 * target } s1)

/-- A measurement's content changes: it is computed again (R825). -/
def remeasure (idx : Nat) (s : State) : State := s.setSec (fun c => { c with pkgDigests := c.pkgDigests.put idx (c.pkgDigests.val idx 0 + 1) })

/-! ## SPDM sessions and their streams (R827, R832) -/

/-- TDIs that are locked or running and bound to one of the streams go to ERROR (R832). -/
def streamsLost (streams : List Nat) (s : State) : State :=
  { s with fns := s.fns.updAll (fun _ x =>
      if (x.tdi = 1 ∨ x.tdi = 2) ∧ streams.contains x.tdiStream then { x with tdi := 3 } else x) }

/-- An SPDM session ends (R827): its streams are Insecure. -/
def endSession (n : Nat) (s : State) : State :=
  let gone := (s.sec.selIde.filter (fun e => e.2 == n)).map (·.1)
  streamsLost gone (s.setSec (fun c => { c with
    sessions := c.sessions.del n
    linkIde := if c.linkIde = some n then none else c.linkIde
    selIde := c.selIde.filter (fun e => e.2 != n) }))

/-- Every SPDM session ends (R827): the link goes down, or tenant turnover or debug unlock ends them. -/
def endSessions (s : State) : State := forEach s.sec.sessions.keys s (fun s n => endSession n s)

end Sys2Proof.Machine
end

