-- ==== Sys2Proof/Machine/Work.lean ====
section
/-! DEFINITION. How work ends: final records and signals of packets, ended sequence entries, job kills, and the start of a warm
device reset. -/

namespace Sys2Proof.Machine

open Sys2Proof

/-! ## Fields of a packet header (03_queue_interface_packets.md, Table: Packet header slot) -/

def Packet.opcode (p : Packet) : Nat := fld p.hdr 0 1
def Packet.flags (p : Packet) : Nat := fld p.hdr 1 1
def Packet.cplMode (p : Packet) : Nat := p.flags % 4
def Packet.more (p : Packet) : Bool := bit p.flags 2
def Packet.slots (p : Packet) : Nat := fld p.hdr 2 2
def Packet.sid (p : Packet) : Nat := fld p.hdr 4 4
def Packet.gtag (p : Packet) : BitVec 64 := word64 p.hdr 8
def Packet.object (p : Packet) : Nat := fld p.hdr 0x10 4
def Packet.bytes (p : Packet) : Nat := fld p.hdr 0x14 4
def Packet.sigTarget (p : Packet) : Nat := fld p.hdr 0x18 2
def Packet.sigCount (p : Packet) : Nat := fld p.hdr 0x1A 2
def Packet.fnKey (p : Packet) : Nat := p.qp / 16

/-- The packet's generation and queue epoch are the current ones (R203, R778). -/
def State.live (s : State) (p : Packet) : Bool :=
  decide (p.gen = (s.fn p.fnKey).gen) && (match s.qps.look p.qp with | some q => decide (p.epoch = q.epoch) | none => false)

/-! ## Signals (R121-R127) -/

/-- A port of the fabric carries traffic. -/
def Port.isUp (x : Port) : Bool := decide (x.state = 3 ∨ x.state = 4)

/-- The ports that are Member. -/
def State.memberPorts (s : State) : List Nat := s.portList.filter (fun p => decide ((s.port p).state = 4))

/-- The port on which a frame for a member leaves (R532): the Member port whose peer it is, else the upstream port, else the lowest
Member port; the spec gives the hops to a member no table (log 23). -/
def State.routeTo (s : State) (dev : Nat) : Option Nat :=
  match s.memberPorts.find? (fun p => decide ((s.port p).peer = dev)) with
  | some p => some p
  | none => if s.memberPorts.contains s.alm.upstream then some s.alm.upstream else s.memberPorts.head?

/-- The signal of a target entry can be issued (R125). -/
def State.canSignal (s : State) (f idx : Nat) : Bool :=
  let t := (s.fn f).targets.val idx {}
  if t.kind = 1 then (s.routeTo t.device).isSome
  else decide (t.kind = 2 ∨ t.kind = 3)

/-- Put a frame into a port's queue; class 8 is an engine's, 0-7 a partition's (R531, R533). -/
def enqueueFrame (port cls : Nat) (fr : Frame) (s : State) : State :=
  s.modPort port (fun x => { x with queue := x.queue ++ [(cls, fr)] })

/-- Add to a device semaphore, modulo 2^64 (R535). -/
def addSem (half sem : Nat) (c : BitVec 64) (s : State) : State :=
  let k := 2048 * half + sem
  s.setAlm (fun a => { a with sems := a.sems.put k (a.sems.val k 0 + c) })

/-- Send the signal of a target entry, whose state is as it stands now (R145); the caller has tested `canSignal`. A fabric signal of a
partition's work joins the port queue as that partition's frame, another as an engine's (R531, R533). -/
def sendSignal (f idx count : Nat) (tag : BitVec 64) (part : Option Nat) (s : State) : State :=
  let t := (s.fn f).targets.val idx {}
  let put (x : SigTarget) (s : State) : State := s.modFn f (fun y => { y with targets := y.targets.put idx x })
  if t.kind = 2 then
    put { t with issued := t.issued + 1, acked := t.acked + 1 } (addSem t.half t.sem (BitVec.ofNat 64 count) s)
  else if t.kind = 3 then
    let c := t.counter + BitVec.ofNat 64 count
    (put { t with counter := c, issued := t.issued + 1, acked := t.acked + 1 } s).emit (.peerWrite t.addr c)
  else if t.kind = 1 then
    match s.routeTo t.device with
    | none => s
    | some port =>
      let q := s.alm.sigSeq
      let s1 := put { t with issued := t.issued + 1 } s
      let s2 := s1.setAlm (fun a =>
        { a with sigs := a.sigs.put q { fn := f, target := idx, tag := tag, tick := s.clk.tick, gen := (s.fn f).gen, port := port }
                 sigSeq := (q + 1) % 65536 })
      enqueueFrame port (part.getD 8) { typ := 1, src := s.alm.device, dst := t.device, half := t.half, sem := t.sem, seq := q, value := BitVec.ofNat 64 count } s2
  else s

/-- Fabric signals of a target that are issued and not settled satisfy `f`. -/
def State.unsettled (s : State) (fn idx : Nat) (f : Sig → Bool) : Bool :=
  s.alm.sigs.any (fun g => decide (g.2.fn = fn ∧ g.2.target = idx ∧ g.2.gen = (s.fn fn).gen) && f g.2)

/-- A signal of the target waits: others of it wait already, or it would start a new route while one on another route is unsettled (R127, R539). -/
def State.sigWaits (s : State) (f idx : Nat) : Bool :=
  let t := (s.fn f).targets.val idx {}
  s.alm.heldSigs.any (fun h => decide (h.fn = f ∧ h.target = idx))
    || (decide (t.kind = 1) && (match s.routeTo t.device with | some port => s.unsettled f idx (fun g => g.port != port) | none => false))

/-- Issue the signal of a target entry, or hold it for its new route (R539). -/
def issueSignal (f idx count : Nat) (tag : BitVec 64) (part : Option Nat) (s : State) : State :=
  if s.sigWaits f idx then
    s.setAlm (fun a => { a with heldSigs := a.heldSigs ++ [{ fn := f, target := idx, count := count, tag := tag, part := part, gen := (s.fn f).gen }] })
  else sendSignal f idx count tag part s

/-- The signal-lost notice (R126, R951): kind 0x0003 with TAG and target index. -/
def lostNotice (f idx : Nat) (tag : BitVec 64) (s : State) : State := notice (boxOfFn f) 3 (le 8 tag.toNat ++ le 1 idx) s

/-- An issued signal is lost (R126, R538): counted in book 0x0C, with its notice. -/
def signalLost (f idx : Nat) (tag : BitVec 64) (s : State) : State :=
  lostNotice f idx tag (s.modFn f (fun y => { y with targets := y.targets.upd idx (fun t => { t with lostN := t.lostN + 1 }) }))

/-- Once every issued signal of a target is settled, the signals that waited for its new route go out in their order (R539): as the entry stands
then (R145), lost where it cannot be issued (R951), discarded where their generation is old (R203). -/
def releaseSigs (f idx : Nat) (s : State) : State :=
  if s.unsettled f idx (fun _ => true) then s
  else
    let mine (h : HeldSig) : Bool := decide (h.fn = f ∧ h.target = idx)
    forEach (s.alm.heldSigs.filter mine) (s.setAlm (fun a => { a with heldSigs := a.heldSigs.filter (fun h => !mine h) })) (fun s h =>
      if h.gen ≠ (s.fn f).gen then s
      else if s.canSignal f idx then sendSignal f idx h.count h.tag h.part s
      else lostNotice f idx h.tag s)

/-! ## Records (R106, R114-R117) -/

/-- Status names (03, Table: Completion status codes). -/
def stOk : Nat := 0x0000
def stDeferred : Nat := 0x0001
def stPartial : Nat := 0x0002
def stFull : Nat := 0x0100
def stQuota : Nat := 0x0101
def stClass : Nat := 0x0102
def stDraining : Nat := 0x0103
def stMalformed : Nat := 0x0200
def stUnknown : Nat := 0x0201
def stDenied : Nat := 0x0202
def stTimeout : Nat := 0x0300
def stCancelled : Nat := 0x0301
def stPoisoned : Nat := 0x0302
def stJobLost : Nat := 0x0303
def stPeer : Nat := 0x0304
def stPartReset : Nat := 0x0305
def stPartDrain : Nat := 0x0306
def stDevReset : Nat := 0x0400
def stVfReset : Nat := 0x0401

/-- Count a final status in the queue pair's accounting (04, Table: QUERY kind 0x00 record). -/
def Acct.count (a : Acct) (status : Nat) : Acct :=
  { a with
    full := sat 32 (a.full + b2n (status == stFull))
    quota := sat 32 (a.quota + b2n (status == stQuota))
    cls := sat 32 (a.cls + b2n (status == stClass))
    draining := sat 32 (a.draining + b2n (status == stDraining))
    timeouts := sat 32 (a.timeouts + b2n (status == stTimeout)) }

/-- A record for a packet, not yet in the outbox. -/
def mkRecord (p : Packet) (pid : Nat) (fin : Bool) (status detail handle : Nat) (result : Bytes) : Record :=
  { pkt := pid, qp := p.qp, gen := p.gen, epoch := p.epoch, fin := fin, status := status, detail := detail,
    opcode := p.opcode, tag := p.gtag, handle := handle, result := if status = stPoisoned then [] else result }

/-- A non-final record (R115): DEFERRED, or OK for a step that is not the last; an OK record restarts the timer (R130). -/
def report (pid status detail : Nat) (result : Bytes) (s : State) : State :=
  match s.pkts.look pid with
  | none => s
  | some p =>
    if p.final || !s.live p then s
    else
      let s1 := s.modPkt pid (fun p => if status = stOk then { p with timer := p.timer.map (fun _ => s.clk.tick) } else p)
      { s1 with outbox := s1.outbox ++ [{ mkRecord p pid false status detail p.object result with born := s.clk.tick }] }

/-- The packets that end with a packet: those of its chain, else itself. -/
def Packet.group (p : Packet) (pid : Nat) : List Nat := if p.chainPkts = [] then [pid] else p.chainPkts

/-! ## Freed entries and forgotten packets -/

/-- The region's address of an entry's KV list, and the entry's place in it (11, KV list). -/
def Part.kvListVa (q : Part) (e i : Nat) : Option Nat :=
  match q.season with
  | some x => (x.region 3 0).map (fun r => r.dva + 4 * x.listEntries * (e - q.seqBase) + 4 * i)
  | none => none

/-- Write one entry of a KV list, where the page table reaches it. -/
def kvListWrite (part e i v : Nat) (s : State) : State :=
  match s.parts.look part with
  | none => s
  | some q =>
    match q.kvListVa e i with
    | none => s
    | some a => (match s.writeVa q a (le 4 v) false with | .ok s1 => s1 | _ => s)

/-- Free an entry: its KV pages go to the tail of the pool's free list (R169, R478) and its KV list holds no page. -/
def freeEntry (e : Nat) (s : State) : State :=
  let x := s.seq e
  let s1 := forEach (List.range x.pages.length) s (fun s i => kvListWrite x.part e i 0xFFFFFFFF s)
  let s2 := s1.modPart x.part (fun q => { q with kvFree := q.kvFree ++ x.pages })
  s2.setSeq e { reuse := x.reuse }

/-- Forget packets; the transient entry of a single pass goes with its packet (04, Normal use). -/
def dropPkts (ids : List Nat) (s : State) : State :=
  let mine := (s.pkts.filter (fun e => ids.contains e.1)).filterMap (fun e => e.2.entry)
  let s1 := { s with pkts := s.pkts.keep (fun i _ => !ids.contains i) }
  forEach mine s1 (fun s e => if (s.seq e.1).transient && decide ((s.seq e.1).reuse = e.2) then freeEntry e.1 s else s)

/-- End a packet with its final result: the record goes to the outbox, or the signal of a signal-only packet is issued (R114,
R121-R125). Old work ends without record or signal (R203, R779). -/
def finish (pid status detail handle : Nat) (result : Bytes) (poisoned : Bool) (s : State) : State :=
  match s.pkts.look pid with
  | none => s
  | some p =>
    if p.final then s
    else
      let grp := p.group pid
      let f := p.fnKey
      let s1 := { s with pkts := s.pkts.updAll (fun i x => if grp.contains i then { x with final := true, timer := none } else x) }
      let s2 := s1.modQp p.qp (fun q =>
        { q with chain := q.chain.map (fun (c : Chain) => if c.first = pid then { c with ended := true } else c) })
      if !s.live p then
        let s3 := dropPkts grp s2
        s3.modQp p.qp (fun q => { q with acct := { q.acct with discarded := sat 32 (q.acct.discarded + 1) } })
      else
        let s3 := s2.modQp p.qp (fun q => { q with acct := q.acct.count status })
        let good := decide (status = stOk ∨ status = stPartial)
        let can := s.canSignal f p.sigTarget
        if decide (p.cplMode = 2) && good && can then
          let s4 := issueSignal f p.sigTarget p.sigCount p.gtag p.part s3
          dropPkts grp s4
        else
          let wants := decide (p.cplMode = 1 ∨ p.cplMode = 2) && good
          let r := { mkRecord p pid true status detail handle result with
            sigSent := wants && can, sigLost := wants && !can, poisoned := poisoned, born := s.clk.tick }
          { s3 with outbox := s3.outbox ++ [r] }

/-- End a packet without result bytes. -/
def fail (pid status detail : Nat) (s : State) : State :=
  finish pid status detail (match s.pkts.look pid with | some p => p.object | none => 0) [] false s

/-! ## Sequence entries that end (R154, R155) -/

/-- End every queued operation of an entry with one status; the operations go. -/
def endOps (e status detail : Nat) (s : State) : State :=
  let x := s.seq e
  let s1 := forEach x.ops s (fun s o => fail o.pkt status detail s)
  s1.modSeq e (fun x => { x with ops := [], posted := none })

/-- A SEQ_CLOSE at the head of an entry: the operations ahead of it are gone; its record carries the tokens generated and the positions
held, and the entry and its pages are free (R143, R169). -/
def closeNow (e pid : Nat) (s : State) : State :=
  let x := s.seq e
  let s1 := forEach (x.ops.takeWhile (fun o => o.pkt != pid)) s (fun s o => fail o.pkt stCancelled 1 s)
  let after := (x.ops.dropWhile (fun o => o.pkt != pid)).drop 1
  let s2 := forEach after s1 (fun s o => fail o.pkt stCancelled 1 s)
  freeEntry e (finish pid stOk 0 (e + 16384 * x.reuse) (le 4 x.tokens ++ le 4 x.positions) false s2)

/-- Put an entry into Ended with the status (R154), where a SEQ_CLOSE that waits frees it at once (R155); a transient entry goes with its
record. -/
def endEntry (e status detail : Nat) (s : State) : State :=
  let close := (s.seq e).ops.filter (fun o => decide (o.kind = 0x13))
  let s0 := s.modSeq e (fun x => { x with ops := x.ops.filter (fun o => !decide (o.kind = 0x13)) })
  let s1 := endOps e status detail s0
  if (s.seq e).transient then s1
  else
    let s2 := s1.modSeq e (fun x => { x with
      state := 4, endStatus := status, endDetail := detail, ops := close, ranPrev := false, stepPkt := 0, nextOpPkt := 0, stepItems := 0, nextItems := 0 })
    match close with
    | o :: _ => closeNow e o.pkt s2
    | [] => s2

/-! ## Channel delivery to a tile (08_tiles.md, R351; 13, R586) -/

/-- A message arrives in the receiver's queue slot and waits for RECV. -/
def chanDeliver (p chan sender : Nat) (data : Bytes) (poison : List Nat) (s : State) : State :=
  s.modTile p (fun x =>
    let c := x.chans.val chan {}
    if !c.conf then x
    else
      let n := max c.slotCount 1
      let a := c.slotBase + 64 * c.flits * (c.slotHead % n)
      let grans := (List.range (ceilDiv data.length 32)).map (fun i => (a / 32 + i, poison.contains i))
      { x with
        store := Mem.write x.store a data
        poison := grans.foldl (fun t g => if g.2 then t.put g.1 true else t.del g.1) x.poison
        chans := x.chans.put chan { c with queue := c.queue ++ [(a, sender)], slotHead := (c.slotHead + 1) % n } })

/-! ## Solver problems that end (R590-R601) -/

/-- The reply to a tile request on channel 61 (13, Table: Tile solver reply; R586, R596). A reply that its tile cannot take is discarded, and
but for a reset the requesting job's Season is broken (10, NACK handling); `broken` tells so to the caller. -/
def solverReply (b : Problem) (handle status detail : Nat) (result : Bytes) (s : State) : State × Bool :=
  let hd := le 2 status ++ le 1 detail ++ le 1 0 ++ le 2 b.tag ++ le 2 0 ++ le 4 result.length ++ le 4 handle ++ zeros 16
  let flits := 1 + ceilDiv (result.length - 32) 64
  let data := fit (64 * flits) (fit 64 (hd ++ result.take 32) ++ result.drop 32)
  let n := s.tileNack b.tile
  if n = 0 then (chanDeliver (s.physOf b.tile) 61 (2048 + b.chan) data (if status = stPoisoned then List.range (2 * flits) else []) s, false)
  else (s, n != 2)

/-- Deliver a problem's end to whoever sent it. -/
def answerProblem (b : Problem) (handle status detail : Nat) (result : Bytes) (s : State) : State :=
  match b.pkt with
  | some pid => finish pid status detail handle result false s
  | none => (solverReply b handle status detail result s).1

/-- The handle of a skeleton (R560). -/
def skelHandle (h idx reuse : Nat) : Nat := idx + 4096 * h + 16384 * reuse

/-- A SOLVE_DROP that has been taken ends, and its skeleton goes, once no problem of the skeleton remains (R144). -/
def settleDrops (h : Nat) (s : State) : State :=
  let v := s.solver h
  forEach v.skels s (fun s e =>
    match e.2.dropping with
    | none => s
    | some pid =>
      match s.pkts.look pid with
      | some p =>
        if p.taken ∧ e.2.queue = [] ∧ !v.ctxs.any (fun c => decide (c.2.skel = e.1)) then
          finish pid stOk 0 (skelHandle h e.1 e.2.reuse) [] false (s.modSolver h (fun v => { v with skels := v.skels.put e.1 { reuse := e.2.reuse } }))
        else s
      | none => s)

/-- End the problems, running and queued, of the skeletons that pass a test; the skeletons stay (R599). -/
def endProblems (h : Nat) (which : Skeleton → Bool) (status detail : Nat) (s : State) : State :=
  let v := s.solver h
  let run := v.ctxs.filter (fun e => which (v.skels.val e.2.skel {}))
  let s1 := forEach run s (fun s e =>
    answerProblem e.2 (skelHandle h e.2.skel (v.skels.val e.2.skel {}).reuse) status detail [] s)
  let s2 := forEach (v.skels.filter (fun e => which e.2)) s1 (fun s e =>
    forEach e.2.queue s (fun s b => answerProblem b (skelHandle h e.1 e.2.reuse) status detail [] s))
  let gone := run.map (·.1)
  let t := if status = stPoisoned then 1 else 0
  settleDrops h (s2.modSolver h (fun v =>
    { v with ctxs := v.ctxs.keep (fun i _ => !gone.contains i)
             busy := v.busy.keep (fun _ c => !gone.contains c)
             poisoned := sat 16 (v.poisoned + t * run.length)
             skels := v.skels.updAll (fun _ k => if which k then { k with queue := [] } else k) }))

/-! ## Job kills (R315, R782; 08, R355, R372) -/

/-- What a tile gives back when a job ends (R355): its lock semaphores and borrowed credits; its task stops. -/
def Tile.dropJob (x : Tile) (j : Nat) : Tile :=
  let x1 := if x.semJob = j ∧ x.semHeld ≠ 0 then
      { x with sems := (List.range 32).foldl (fun t i => if x.semHeld.getLsbD i then t.put i 1 else t) x.sems, semHeld := 0 } else x
  if x1.loanJob = j ∧ x1.loaned ≠ 0 then
    let back := x1.chans.foldl (fun (t : Tab Nat) e => e.2.borrowed.foldl (fun t b => t.put b.1 (t.val b.1 0 + b.2)) t) []
    { x1 with
      loaned := 0
      chans := x1.chans.updAll (fun k c => c.settleLoans (back.val k 0)) }
  else x1

/-- Halt the tiles of a job: a block operation runs to its row group's end first (R337). -/
def haltJobTiles (j : Nat) (s : State) : State :=
  { s with tiles := s.tiles.updAll (fun _ x =>
      if x.job = some j then
        if x.inBlk then { x with blkEngine := some (x.blkEngine.getD 0) } else { (x.dropJob j) with run := 3, lock := none }
      else x) }

/-- A column of the partition is powering up or down. -/
def State.colsMove (s : State) (q : Part) : Bool := q.cols.any (fun c => decide (s.pwr.cols.val c 0 = 1 ∨ s.pwr.cols.val c 0 = 3))

/-- The starting state of a partition's tiles (R664, R665): every tile Dormant, but for one that unplanned traffic holds Awake, and every column
powered, but for one that is retired or waits to be. A partition whose reset waits for a column goes to it at the end of that reset (R677). -/
def startingState (part : Nat) (s : State) : State :=
  match s.parts.look part with
  | none => s
  | some q =>
    if q.resetDue.isSome then s else
    let s1 := { s with tiles := s.tiles.updAll (fun k x =>
      if q.cols.contains (colOf k) then
        (if x.power = 1 ∧ x.ucWoken.isNone then { x with power := 0, gateDue := false } else { x with gateDue := false })
      else x) }
    forEach q.cols s1 (fun s c =>
      if s.pwr.cols.val c 0 = 3 then s.setPwr (fun p => { p with cols := p.cols.put c 2, colSince := p.colSince.del c })
      else if s.pwr.cols.val c 0 = 0 ∧ (s.spare c).state ≠ 4 ∧ (s.spare c).state ≠ 5 ∧ s.pwr.state ≠ 0 then
        s.setPwr (fun p => { p with cols := p.cols.put c 1, colSince := p.colSince.put c s.clk.cycle, domains := p.domains ++ [.column c] })
      else s)

/-- A partition on whose tiles no job runs is in the starting state (R665). -/
def restTiles (part : Nat) (s : State) : State :=
  match s.parts.look part with
  | some q => if q.runJob.isNone ∧ q.switch.isNone then startingState part s else s
  | none => s

/-- The Hold of a partition ends: its length is kept and the transfer-fault source withdrawn. -/
def closeHold (part : Nat) (s : State) : State :=
  match s.parts.look part with
  | none => s
  | some q =>
    match q.hold with
    | none => s
    | some t =>
      let n := ceilDiv (s.clk.cycle - t) 1500
      intcLevel 1 (srcKey 0 (128 + part)) false (intcLevel 0 (srcKey 0 (128 + part)) false
        (s.setPart part { q with hold := none, faulted := [], maxTicks := max q.maxTicks (sat 16 n) }))

/-- Take faults off a partition's list; a Hold with none left ends (R499). -/
def dropFaults (part : Nat) (which : Nat → Bool) (s : State) : State :=
  match s.parts.look part with
  | none => s
  | some q =>
    let f := q.faulted.filter (fun t => !which t)
    let s1 := s.setPart part { q with faulted := f }
    if q.faulted ≠ [] ∧ f = [] then closeHold part s1 else s1

/-- Discard transfers at their commit points and return their tags (R315, R482, R499). -/
def dropTransfers (which : Xfer → Bool) (s : State) : State :=
  let gone := (s.mem.xfers.filter (fun e => which e.2)).map (·.1)
  let s1 := s.setMem (fun m => { m with xfers := m.xfers.keep (fun _ x => !which x) })
  forEach s1.parts.keys s1 (fun s p => dropFaults p (fun t => gone.contains t) s)

/-- End the work of a job: the admitted work of its service, or the problems of its solver service. -/
def endJobWork (j status detail : Nat) (s : State) : State :=
  match s.jobs.look j with
  | none => s
  | some x =>
    let sid := match s.parts.look x.part with | some q => (q.svcs.val x.entry {}).sid | none => 0
    let mine := (s.seqs.filter (fun e => decide (e.2.part = x.part ∧ e.2.sid = sid) && decide (e.2.state ≠ 0)
      && (x.occupied.contains e.1 || x.admitted.contains e.1 || e.2.ops.any (fun o => o.admAt.isSome)))).map (·.1)
    let s1 := forEach mine s (fun s e =>
      if status = stJobLost ∨ status = stPoisoned ∨ status = stPeer ∨ status = stTimeout then endEntry e status detail s
      else
        let t := (s.seq e).transient
        let s2 := endOps e status detail s
        if t then s2 else s2.modSeq e (fun y => { y with
          state := 1, ranPrev := false, stepPkt := 0, nextOpPkt := 0, stepItems := 0, nextItems := 0 }))
    if x.solver then
      endProblems 1 (fun k => decide (k.part = x.part ∧ k.sid = sid)) status detail
        (endProblems 0 (fun k => decide (k.part = x.part ∧ k.sid = sid)) status detail s1)
    else s1

/-- The partition's debug stop ends and its halted tiles are released (R875, R891). -/
def endStop (p : Nat) (s : State) : State :=
  match s.parts.look p with
  | none => s
  | some q =>
    if q.stop.state = 0 then s
    else
      let s1 := s.setPart p { q with stop := { q.stop with state := 0, lockWait := false, killPending := false, stepsLeft := 0 } }
      let mine := q.cols.flatMap (fun c => (List.range 17).map (fun y => 17 * c + y))
      { s1 with tiles := s1.tiles.updAll (fun k x =>
          if mine.contains k then { x with haltReq := none, run := if x.run = 2 then 0 else x.run } else x) }

/-- Begin a kill: the job's work ends at once with the given status, its tiles halt, its transfers and positions go back
(R315, R782), and a debug stop of its partition ends (R891). The cause is what JOB_ENDED and the log carry. A job already being killed keeps
its first cause. -/
def killFor (j status detail causeStatus causeDetail : Nat) (s : State) : State :=
  match s.jobs.look j with
  | none => s
  | some x =>
    if x.state = 4 then s
    else
      let s1 := endJobWork j status detail (endStop x.part s)
      let s1b := dropFaults x.part (fun t => decide (32768 ≤ t ∧ (t - 32768) % 64 = j)) s1
      let s2 := haltJobTiles j (dropTransfers (fun t => decide (t.job = j ∧ t.part = x.part)) s1b)
      let s3 := s2.modJob j (fun y =>
        { y with state := 4, killStatus := causeStatus, killDetail := causeDetail, killAt := s.clk.tick, occupied := [], admitted := [], build := none, stepStart := none })
      let s4 := s3.modPart x.part (fun q => { q with
        runJob := if q.runJob = some j then none else q.runJob
        switch := match q.switch with | some (k, t) => if k = j then none else some (k, t) | none => none })
      logEvent { kind := 3, severity := 2, rung := 2, part := x.part, job := j, data := causeStatus + 65536 * causeDetail } s4

/-- A kill whose work ends with the status of its cause. -/
def beginKill (j status detail : Nat) (s : State) : State := killFor j status detail status detail s

/-- A broken Season (R40): JOB_LOST, DETAIL 0x02. -/
def brokenSeason (j : Nat) (s : State) : State := beginKill j stJobLost 2 s

/-! ## Warm device reset (R798-R801, R811) -/

/-- End every job and every placed packet with DEVICE_RESET (R799). -/
def flushWork (s : State) : State :=
  let s1 := forEach (s.pkts.keys) s (fun s i => fail i stDevReset 0 s)
  { s1 with jobs := [], parts := s1.parts.updAll (fun _ q => { q with runJob := none, switch := none, hold := none, faulted := [] }) }

/-- The flush phase of a warm device reset begins, with its cause. -/
def beginFlush (cause unit index : Nat) (s : State) : State :=
  let s1 := { s with
    pwr := { s.pwr with ready := false, lastCause := cause, lastUnit := unit, lastIndex := index, warmResets := sat 16 (s.pwr.warmResets + 1) }
    ladder := { s.ladder with flush := some s.clk.tick, resetDue := none } }
  flushWork (logEvent { kind := 0x0C, severity := 3, rung := 6, unit := unit, index := index, data := cause + 256 * unit + 65536 * index } s1)

/-- Begin a warm device reset. During a flush phase, a start that follows one, or before readiness of a warm start, nothing more
begins (R811). -/
def beginWarm (cause unit index : Nat) (s : State) : State :=
  if s.ladder.flush.isSome || s.pins.perst || s.pins.thermtrip || (s.start.running && s.start.warm) then s else beginFlush cause unit index s

/-- A hang of a shared engine (R798), with the engine's interrupt source (14, Table: Source map). -/
def hang (unit index data : Nat) (s : State) : State :=
  let on : State := match unit with
    | 3 => intcBothLevel 154 true s
    | 4 => intcBothLevel (158 + index % 16) true s
    | 5 => intcLevel (index % 2) (srcKey 0 157) true s
    | 6 => intcLevel (index % 2) (srcKey 0 157) true s
    | 7 => intcLevel (index % 2) (srcKey 0 156) true s
    | _ => s
  beginWarm 4 unit index (logEvent { kind := 0x0B, severity := 3, rung := 6, unit := unit, index := index, data := data } on)

end Sys2Proof.Machine
end

