-- ==== Sys2Proof/Machine/Access.lean ====
section
/-! DEFINITION. Faults of accesses and Hold (11_device_memory_and_transfers.md, R485-R489, R496). -/

namespace Sys2Proof.Machine

open Sys2Proof

/-! ## Hold (R485-R489, R496) -/

/-- The entry of a partition's fault list for an access that holds no transfer tag. -/
def pageFault (job dva : Nat) : Nat := 32768 + job + 64 * (dva / 65536)

/-- A fault is recorded in PART_XFAULT_VA and PART_XFAULT_INFO. -/
def recordFault (part kind : Nat) (recov : Bool) (dva : Nat) (write : Bool) (source done job : Nat) (s : State) : State :=
  s.modPart part (fun q => { q with
    xfVa := dva % 2 ^ 48
    xfInfo := BitVec.ofNat 64 (kind + 16 * b2n recov + 32 * b2n write + 256 * source + 0x1000000 * done + 0x1000000000000 * job) })

/-- A recoverable fault at a master of half `h` (R485): recorded, the partition held, the transfer-fault source raised; of several the
one with the lowest tag shows (R496). A fault outside the memory layout kills its job at once (R488). -/
def recoverable (part h kind dva : Nat) (write : Bool) (source done job : Nat) (tag : Option Nat) (s : State) : State :=
  match s.parts.look part with
  | none => s
  | some q =>
    let f := tag.getD (pageFault job dva)
    let s1 := if q.faulted.all (fun t => decide (f ≤ t)) then recordFault part kind true dva write source done job s else s
    let s2 := s1.modPart part (fun q => { q with faults := sat 16 (q.faults + 1), holds := if q.hold.isNone then sat 16 (q.holds + 1) else q.holds })
    let s3 := intcLevel h (srcKey 0 (128 + part)) true s2
    if !q.inRegion dva then beginKill job stJobLost 3 s3
    else s3.modPart part (fun q => { q with
      hold := match q.hold with | none => some s.clk.cycle | some t => some t
      faulted := if q.faulted.contains f then q.faulted else q.faulted ++ [f] })

/-- The Hold of a partition ends (R487-R489): a job that owns fabric slots dies. -/
def endHold (part : Nat) (s : State) : State :=
  match s.parts.look part with
  | none => s
  | some q =>
    let s1 := closeHold part s
    match q.hold, q.season with
    | some _, some x => if x.ownsSlots then forEach (s1.jobsOf part) s1 (fun s j => brokenSeason j s) else s1
    | _, _ => s1

/-- The fault of an access without a tag: recoverable kinds hold the partition, a permission fault kills the job
(11, Table: Transfer faults). -/
def accessFault (part h kind dva : Nat) (write : Bool) (source job : Nat) (s : State) : State :=
  if kind = 4 then beginKill job stJobLost 3 (recordFault part 4 false dva write source 0 job s)
  else recoverable part h kind dva write source 0 job none s

end Sys2Proof.Machine
end

