-- ==== Sys2Proof/Machine/Health.lean ====
section
/-! DEFINITION. Integrity checking: suspects, observation, quarantine, probe rounds, shadow comparison (17_integrity_and_silent_errors.md). -/

namespace Sys2Proof.Machine

open Sys2Proof

/-- Calendar ticks of an hour and of a day. -/
def hourTicks : Nat := 3600000000
def dayTicks : Nat := 86400000000

/-- A tile's health record: Normal, or an unmapped spare in row PY16. -/
def State.healthOf (s : State) (p : Nat) : Health := s.health.val p { state := if p % 17 = 16 then 3 else 0 }
def State.setHealth (s : State) (p : Nat) (x : Health) : State := { s with health := s.health.put p x }

/-- The event time that a record keeps. -/
def State.eventS (s : State) : Nat := s.clk.tick / 1000000

/-- A column's spare state after a quarantine in physical row `row` (R788). -/
def SpareState.quarantined (x : SpareState) (row : Nat) : SpareState :=
  if x.state = 0 then (if row < 16 then { row := row, state := 2 } else { row := 16, state := 1 })
  else if x.state < 4 then { x with state := 4 }
  else x

/-- Quarantine a tile (R752): HEALTH notice 0x05, the column's health source, the column's spare state (R788). -/
def quarantine (p : Nat) (s : State) : State :=
  let h := s.healthOf p
  let s1 := s.setHealth p { h with state := 2, eventS := s.eventS }
  let s2 := noticeHealth (physName p) 5 s1
  let s3 := intcLevel (p / 408) (srcKey 0 (238 + colOf p % 24)) true s2
  s3.setRec (fun r => { r with spares := r.spares.put (colOf p) ((s3.spare (colOf p)).quarantined (p % 17)) })

/-- Count one failed test (R749, R752). -/
def testFailed (p : Nat) (s : State) : State :=
  let h := s.healthOf p
  let s1 := noticeHealth (physName p) 3 (s.setHealth p { h with fails := h.fails + 1 })
  if 3 ≤ h.fails + 1 then quarantine p s1 else s1

/-- Start an observation period (R748). -/
def observe (p interval hours : Nat) (s : State) : State :=
  let h := s.healthOf p
  s.setHealth p { h with
    state := 1, periodEnd := s.clk.tick + hours * hourTicks, periodH := hours, interval := interval, nextTest := s.clk.tick,
    eventS := if h.state = 1 then h.eventS else s.eventS }

/-- A tile becomes suspect (R730, R748, R751): the cause is recorded with HEALTH notice 0x01; a Normal tile becomes Observed; an
Observed one counts a failed test, unless the cause is 0x04, 0x07 or 0x08, and restarts its period. -/
def suspect (p cause : Nat) (s : State) : State :=
  let h := s.healthOf p
  let s1 := noticeHealth (physName p) 1 (s.setHealth p { h with cause := cause })
  if h.state = 0 then
    let s2 := s1.setHealth p { (s1.healthOf p) with fails := 0, tests := 0 }
    noticeHealth (physName p) 2 (observe p 10 24 s2)
  else if h.state = 1 ∧ cause ≠ 4 ∧ cause ≠ 7 ∧ cause ≠ 8 then
    testFailed p (observe p h.interval h.periodH s1)
  else s1

/-- A tile store corrects a single-bit error (R320): TILE_ECC.CE, the 24-hour count, and suspicion at the 64th (R729). -/
def storeCe (p : Nat) (s : State) : State :=
  let s1 := s.modTile p (fun x => { x with ce := sat 16 (x.ce + 1) })
  let h := s1.healthOf p
  let s2 := s1.setHealth p { h with storeCe := sat 16 (h.storeCe + 1) }
  if h.storeCe + 1 = 64 then suspect p 4 s2 else s2

/-- A 24-hour period of corrected errors ends (R729). -/
def execStoreCePeriodEnd (t : Nat) (s : State) : Host.Outcome State Fault Refusal :=
  let h := s.healthOf t
  let n := (s.clk.tick - s.clk.readyTick) / dayTicks
  .next (if h.cePeriod < n then s.setHealth t { h with cePeriod := n, storeCe := 0 } else s)

/-! ## Probe rounds -/

/-- The installed package of an identifier: its ROUND_CYCLES and FLAGS; package 0 is built in. -/
def State.package (s : State) (id : Nat) : Option (Nat × Nat) :=
  if id = 0 then some (4096, 0)
  else (s.sec.packages.find? (fun e => decide (e.2.id = id ∧ e.2.state = 1))).map (fun e => (e.2.roundCycles, e.2.flags))

/-- The state the wake schedule gives a tile at a step offset, starting Dormant: the last action at or before the offset
(R661, R667). True when Awake. -/
def schedAwake (many : Bool) (l : List WakeEntry) (name off : Nat) : Bool :=
  l.foldl (fun b e =>
    if e.offset ≤ off then
      if e.tile = name ∧ e.action = 1 then true
      else if e.tile = name ∧ e.action = 2 then false
      else if e.tile / 32 = name / 32 ∧ (e.action = 4 ∨ (e.action = 3 ∧ many = false)) then false
      else b
    else b) false

/-- The schedule wakes the tile within `n` running cycles of an offset, in this step or at the start of the next. -/
def wakesWithin (l : List WakeEntry) (name off n step : Nat) : Bool :=
  l.any (fun e => decide (e.tile = name ∧ e.action = 1 ∧
    ((off < e.offset ∧ e.offset < off + n) ∨ (off < e.offset + step ∧ e.offset + step < off + n))))

/-- The tile is in a probe window for a round of `n` grid cycles (R743). -/
def State.probeWindow (s : State) (p n : Nat) : Bool :=
  let x := s.tile p
  if x.power = 2 ∨ s.pwr.state ≠ 2 then false
  else
    match s.partOfTile p with
    | none => true
    | some q =>
      match s.parts.look q with
      | none => true
      | some y =>
        if y.hold.isSome ∨ y.resetting then false
        else
          match y.runJob with
          | none => true
          | some j =>
            match s.jobs.look j, y.season, s.logOf p with
            | some jb, some se, some i =>
              !schedAwake (decide (1 < y.svcs.length)) se.wakes (tileName i) jb.offset
                && !wakesWithin se.wakes (tileName i) jb.offset (n + 3000) se.stepCycles
            | _, _, _ => true

/-- The two checkers of a tile (R741): the next tiles in the logical order of its partition, or of the device where it has none,
that are not Quarantined. -/
def State.checkers (s : State) (p : Nat) : Nat × Nat :=
  let cols := match s.partOfTile p with
    | some q => (match s.parts.look q with | some y => y.cols | none => [])
    | none => List.range 48
  let all := cols.flatMap (fun c => (List.range 16).map (fun y => s.physOf (16 * c + y)))
  let after := (all.dropWhile (· != p)).drop 1 ++ all.takeWhile (· != p)
  let ok := after.filter (fun q => !decide ((s.healthOf q).state = 2))
  (ok.headD p, (ok.drop 1).headD p)

/-- A round begins on a tile in a probe window (R743, R760): of an observation test that is due, else of a PROBE operation that still wants the
tile, else of an unmapped spare's test. -/
def execProbeRoundStart (t pkg : Nat) (s : State) : Host.Outcome State Fault Refusal :=
  let x := s.tile t
  match s.package pkg with
  | none => .next s
  | some (n, fl) =>
    let due := decide ((s.healthOf t).state = 1 ∧ (s.healthOf t).nextTest ≤ s.clk.tick)
    let op := if due then none else s.probes.find? (fun o => decide (o.pkg = pkg) && decide (0 < o.tiles.val t 0))
    let own := due || (op.isNone && decide ((s.healthOf t).state = 3))
    if x.probe.isSome || !s.probeWindow t n || (!own && op.isNone) then .next s
    else
      let c := s.checkers t
      let r : ProbeRound := match op with
        | some o => { pkg := pkg, seed := o.seed, round := o.tiles.val t 0, cycles := n, pflags := fl, start := s.clk.cycle, op := some o.op, c1 := c.1, c2 := c.2 }
        | none => { pkg := pkg, seed := s.clk.tick % 2 ^ 32, cycles := n, pflags := fl, start := s.clk.cycle, c1 := c.1, c2 := c.2 }
      .next (s.setTile t { x with probe := some r })

/-- Count one round in a tile's record. -/
def countRound (p : Nat) (failed : Bool) (s : State) : State :=
  let h := s.healthOf p
  s.setHealth p { h with rounds := sat 32 (h.rounds + 1), roundFails := sat 32 (h.roundFails + b2n failed) }

/-- A PROBE operation has one verdict more on a tile; with none left it ends SUCCESS (R745). -/
def probeProgress (op t : Nat) (s : State) : State :=
  let l := s.probes.map (fun o => if o.op = op then
    { o with tiles := (o.tiles.put t (o.tiles.val t 0 - 1)).keep (fun _ n => n != 0) } else o)
  let s1 := { s with probes := l.filter (fun o => !(decide (o.op = op) && o.tiles.isEmpty)) }
  if l.any (fun o => decide (o.op = op) && o.tiles.isEmpty) then endOp op 0 0 s1 else s1

/-- After a round of a DESTRUCTIVE package the tile's store is written with zero (R746). -/
def afterRound (flags t : Nat) (s : State) : State := if bit flags 0 then s.modTile t (fun x => { x with store := [], poison := [] }) else s

/-- All three digests of a round are known (R742). A round whose window has closed is abandoned and counts no verdict (R744). The
failure of an observation or spare test's own tile is counted with the test (R749). -/
def execProbeRoundEnd (t : Nat) (own c1 c2 : BitVec 64) (s : State) : Host.Outcome State Fault Refusal :=
  let x := s.tile t
  match x.probe with
  | none => .next s
  | some r =>
    if s.clk.cycle < r.start + r.cycles then .next s
    else
      let s0 := s.setTile t { x with probe := none }
      if !s.probeWindow t 0 then .next s0
      else
        let s1 := afterRound r.pflags t s0
        let mine (cause : Nat) (s : State) : State := if r.op.isSome || cause = 7 then suspect t cause s else s
        let s2 :=
          if c1 = c2 then
            let s3 := countRound r.c2 false (countRound r.c1 false (countRound t (own != c1) s1))
            if own = c1 then s3 else mine 6 s3
          else if own = c2 then suspect r.c1 6 (countRound r.c2 false (countRound r.c1 true (countRound t false s1)))
          else if own = c1 then suspect r.c2 6 (countRound r.c2 true (countRound r.c1 false (countRound t false s1)))
          else suspect r.c2 7 (suspect r.c1 7 (mine 7 (countRound r.c2 false (countRound r.c1 false (countRound t false s1)))))
        .next (match r.op with | some o => probeProgress o t s2 | none => s2)

/-- A round that has not finished within 2 × ROUND_CYCLES counts as failed (R765), a test's with the test; one whose window has closed is
abandoned (R744). -/
def execProbeRoundTimeout (t : Nat) (s : State) : Host.Outcome State Fault Refusal :=
  let x := s.tile t
  match x.probe with
  | none => .next s
  | some r =>
    if s.clk.cycle ≤ r.start + 2 * r.cycles then .next s
    else
      let s0 := s.setTile t { x with probe := none }
      if !s.probeWindow t 0 then .next s0
      else
        let s1 := countRound t true s0
        .next (match r.op with | some o => probeProgress o t (suspect t 6 s1) | none => s1)

/-- 10,000,000 calendar ticks after acceptance a PROBE ends: what it has not reached counts NOT_REACHED (R745). -/
def execProbeTimeout (op : Nat) (s : State) : Host.Outcome State Fault Refusal :=
  match s.probes.find? (fun o => decide (o.op = op)) with
  | none => .next s
  | some o =>
    if s.clk.tick < o.tick + 10000000 then .next s
    else
      let s1 := forEach o.tiles.keys s (fun s t =>
        let h := s.healthOf t
        s.setHealth t { h with notReached := sat 16 (h.notReached + 1) })
      .next (endOp op 0 0 { s1 with probes := s1.probes.filter (fun o => !decide (o.op = op)) })

/-- An observation test falls due (R748-R750): it ran and passed or failed, or found no window. A failing unmapped spare is
quarantined (R747). -/
def execObservationTest (t : Nat) (ran fails : Bool) (s : State) : Host.Outcome State Fault Refusal :=
  let h := s.healthOf t
  if h.state = 3 then .next (if ran && fails then quarantine t (s.setHealth t { h with tests := h.tests + 1 }) else s)
  else if h.state = 1 ∧ h.nextTest ≤ s.clk.tick then
    let h1 := { h with nextTest := h.nextTest + h.interval * 1000000 }
    if ran then
      let s1 := s.setHealth t { h1 with tests := sat 16 (h.tests + 1) }
      .next (if fails then testFailed t s1 else s1)
    else .next (s.setHealth t { h1 with missed := sat 16 (h.missed + 1) })
  else .next s

/-- A period ends with fewer than 3 failed tests (R753). -/
def execObservationPeriodEnd (t : Nat) (s : State) : Host.Outcome State Fault Refusal :=
  let h := s.healthOf t
  if h.state = 1 ∧ h.periodEnd ≤ s.clk.tick ∧ h.fails < 3 then
    .next (noticeHealth (physName t) 4 (s.setHealth t { h with state := 0, fails := 0, eventS := s.eventS }))
  else .next s

/-! ## Shadow comparison -/

/-- The shadow header passes its checks (17, Registers and structures, under R734). -/
def Season.shadowOk (x : Season) (tilesIn : Nat → Bool) (slots : Nat) : Bool :=
  decide (0 < x.fracMax ∧ x.shadow ≠ [] ∧ x.pairs ≠ [])
    && x.shadow.all (fun l => decide (1 ≤ l) && !x.shadow.contains (l - 1))
    && x.pairs.all (fun e => tilesIn e.1 && tilesIn e.2 && e.1 != e.2)
    && (x.pairs.map (·.2)).Nodup
    && decide (x.selectSlot < slots)

/-- Compare the pairs of the shadow layer that has just ended, when this step compares it (R736-R738); a mismatch at the boundary at which the job
was killed gives the kill its DETAIL (R761). -/
def execShadowCompare (job : Nat) (s : State) : Host.Outcome State Fault Refusal :=
  match s.jobs.look job with
  | none => .next s
  | some j =>
    match s.parts.look j.part with
    | none => .next s
    | some q =>
      match q.season with
      | none => .next s
      | some se =>
        let last := if j.layer = 0 then se.layerEnds.length - 1 else j.layer - 1
        let k := if j.layer = 0 then j.step - 1 else j.step
        match se.shadow.findIdx? (· == last) with
        | none => .next s
        | some n =>
          if q.fraction = 0 ∨ j.compared ∨ (j.state = 4 ∧ j.killAt ≠ s.clk.tick) ∨ (n + k) % 2 ^ (se.fracMax - q.fraction) ≠ 0 then .next s
          else
            let phys (name : Nat) : Nat := (s.physOfName name).getD 0
            let bad := se.pairs.filter (fun e =>
              (s.tile (phys e.2)).digest.val (16 + j.entry) 0 != (s.tile (phys e.1)).digest.val (32 + j.entry) 0)
            let s1 := (s.modPart j.part (fun q => { q with compares := sat 32 (q.compares + se.pairs.length) })).modJob job
              (fun j => { j with compared := true })
            if bad = [] then .next s1
            else
              let s2 := s1.modPart j.part (fun q => { q with mismatches := sat 16 (q.mismatches + 1), lastLayer := last })
              let s3 := if j.state = 4 then s2.modJob job (fun j => { j with killStatus := stJobLost, killDetail := 3 }) else beginKill job stJobLost 3 s2
              let names := bad.flatMap (fun e => [e.1, e.2])
              let s4 := forEach names s3 (fun s nm =>
                let p := phys nm
                let h := s.healthOf p
                let s5 := noticeHealth (physName p) 6 (s.setHealth p { h with shadowBad := sat 32 (h.shadowBad + 1) })
                intcHalf (p / 408) (144 + j.part) (suspect p 5 s5))
              .next s4

end Sys2Proof.Machine
end

