-- ==== Sys2Proof/Machine/TileRun.lean ====
section
/-! DEFINITION. How a tile runs one instruction: when it may issue, fetch and decoding, the order of fault causes, tile faults, debug
stops, traces, and unplanned requests (08_tiles.md; 09_tile_instructions.md; 20_debug.md; 10_mesh_and_half_link.md). -/

namespace Sys2Proof.Machine

open Sys2Proof

/-- The TILE name of a physical tile: its logical name, or its physical name where it has none. -/
def State.nameOf (s : State) (p : Nat) : Nat := match s.logOf p with | some i => tileName i | none => physName p

/-! ## Trace (R885) -/

/-- FILTER bit of a trace kind. -/
def traceBit (kind : Nat) : Nat :=
  if kind = 1 then 0 else if kind ≤ 4 then 1 else if kind = 5 then 2 else if kind ≤ 7 then 3
  else if kind = 8 then 4 else if kind = 9 then 5 else if kind = 0xA then 6 else 7

/-- A traced event goes to the tile's trace queue, or is counted lost. -/
def traceEv (p kind data : Nat) (s : State) : State :=
  let x := s.tile p
  match x.trace with
  | none => s
  | some f =>
    if !f.getLsbD (traceBit kind) then s
    else if 16 ≤ x.traceQ.length then s.setDbg (fun d => { d with lost := sat 16 (d.lost + 1) })
    else
      let j := x.job.getD 0
      let off := match s.jobs.look j with | some b => b.offset % 2 ^ 32 | none => 0
      s.setTile p { x with traceQ := x.traceQ ++ [{ kind := kind, job := j, tile := s.nameOf p, pc := x.pc, offset := off, data := data }] }

/-! ## Debug stop (R870, R871) -/

/-- Every tile of the partition that was asked to halt has halted: the stop is complete. -/
def stopDone (part : Nat) (s : State) : State :=
  s.modPart part (fun q =>
    if q.stop.state = 1 ∧ s.tiles.all (fun e => !(q.cols.contains (colOf e.1) && e.2.haltReq.isSome)) then
      { q with stop := { q.stop with state := 2 } }
    else q)

/-- Begin a debug stop: the running cycles stop and every tile with a task is asked to halt. -/
def beginStop (part cause tile bp pc : Nat) (s : State) : State :=
  match s.parts.look part with
  | none => s
  | some q =>
    if q.stop.state = 1 ∨ q.stop.state = 2 then s
    else
      let s1 := s.setPart part { q with stop := { q.stop with
        state := 1, cause := cause, tile := tile, bp := bp, pc := pc, lockWait := false, stepsLeft := 0, reqCycle := s.clk.cycle } }
      stopDone part { s1 with tiles := s1.tiles.updAll (fun k x =>
        if q.cols.contains (colOf k) && x.job.isSome && decide (x.run < 2) then { x with haltReq := some s.clk.cycle } else x) }

/-- The halt of a tile takes effect. -/
def haltTile (p : Nat) (s : State) : State :=
  let x := s.tile p
  let s1 := s.setTile p { x with run := if x.run = 3 then 3 else 2, haltReq := none, blkAgain := x.inBlk }
  match s.partOfTile p with
  | none => traceEv p 0xB 0 s1
  | some part =>
    let s2 := s1.modPart part (fun q =>
      if q.stop.tile = s.nameOf p ∧ q.stop.cause ≠ 2 then { q with stop := { q.stop with pc := x.pc } } else q)
    stopDone part (traceEv p 0xB 0 s2)

/-- The stepped tile has completed an instruction (R876). -/
def countStep (p : Nat) (s : State) : State :=
  match s.partOfTile p with
  | none => s
  | some part =>
    match s.parts.look part with
    | none => s
    | some q =>
      if q.stop.state = 3 ∧ q.stop.stepTile = p ∧ 0 < q.stop.stepsLeft then
        if q.stop.stepsLeft = 1 then haltTile p (beginStop part 4 (s.nameOf p) 0 (s.tile p).pc s)
        else s.setPart part { q with stop := { q.stop with stepsLeft := q.stop.stepsLeft - 1 } }
      else s

/-- The breakpoint that an address of a tile meets: the lowest enabled one (R878, R889). -/
def State.breakAt (s : State) (p pc : Nat) : Option Nat :=
  if !s.sec.unlocked then none
  else firstFree 32 (fun n => let b := s.dbg.bps.val n {}; b.enable && decide (b.tile = s.nameOf p ∧ b.pc = pc))

/-! ## Tile faults (R372) -/

/-- STATUS and DETAIL with which a job ends (08, Table: Tile fault causes). -/
def faultStatus (cause : Nat) (weights : Bool) : Nat × Nat :=
  if cause = 7 then (stPoisoned, if weights then 2 else 1) else if cause = 0xD then (stJobLost, 2) else (stJobLost, 3)

/-- A suspect cause for the fault causes that name one (17, Table: Suspect causes). -/
def suspectOf (cause : Nat) (p : Nat) (s : State) : State :=
  if cause = 5 then suspect p 1 s else if cause = 6 then suspect p 2 s else if cause = 8 then suspect p 3 s else s

/-- A 2 MiB range of weights awaits restore (R316, R494); where a staged image exists the next grid cycle restores it. -/
def markReload (part dva : Nat) (s : State) : State :=
  s.modPart part (fun q => let r := dva / 0x200000; if q.reload.contains r then q else { q with reload := q.reload ++ [r] })

/-- A tile fault at an address: recorded, logged, the tile halted, its job killed, or the kill deferred to a fault stop (R346, R372,
R880); poison that comes of silent slots is a peer's timeout (R545). `addr` is the poisoned granule's address for cause 0x07. -/
def tileFault (p cause detail : Nat) (addr : Option Nat) (s : State) : State :=
  let x := s.tile p
  let pc := match x.lock with | some l => l.pc | none => x.pc
  let s1 := s.setTile p { x with
    run := 3
    lock := none
    inBlk := false
    blkEngine := none
    watch := none
    haltReq := none
    cause := BitVec.ofNat 8 cause
    fdetail := BitVec.ofNat 8 detail
    faultPc := BitVec.ofNat 32 pc }
  let part := s.partOfTile p
  let e : LogEntry :=
    { kind := 2, severity := 2, rung := 1, unit := 1, part := part.getD 255, index := s.nameOf p, job := x.job.getD 255, data := cause + 256 * detail + 65536 * pc }
  let s2 := logEvent e s1
  let s3 := suspectOf cause p (traceEv p 0xD cause s2)
  match part, x.job with
  | some pt, some j =>
    let w := match addr, s.parts.look pt with
      | some a, some q => if cause = 7 then s.weightAt q p (a / 32) else none
      | _, _ => none
    let st := if cause = 7 ∧ (s.jobs.val j {}).peers.any (fun e => e.2 != 0) then (stPeer, 0) else faultStatus cause w.isSome
    let s4 := intcLevel (p / 408) (srcKey 0 (136 + pt)) true s3
    let s5 := match w with | some dva => markReload pt dva s4 | none => s4
    if s.dbg.faultStop ∧ s.sec.unlocked then
      let s6 := beginStop pt 3 (s.nameOf p) 0 pc s5
      stopDone pt (s6.modPart pt (fun q => if q.stop.killPending then q else { q with stop := { q.stop with
        killPending := true, killStatus := st.1, killDetail := st.2, killJob := j } }))
    else beginKill j st.1 st.2 s5
  | _, _ => s3

/-- An uncorrectable error of a tile-store read (R321): the granules are poisoned and the tile becomes suspect. -/
def storeUe (p a n : Nat) (s : State) : State :=
  suspect p 9 (s.modTile p (fun x => { (x.poisonRange a n) with ue := sat 16 (x.ue + 1) }))

/-! ## Unplanned requests of a tile (10_mesh_and_half_link.md, R431) -/

/-- Take tokens of a bandwidth regulator (R300, R302): none where they are not there. -/
def takeTokens (part res bytes : Nat) (s : State) : Option State :=
  match s.parts.look part with
  | none => some s
  | some q =>
    let g := q.regs.val res {}
    if g.rate = 0 then some s
    else if bytes ≤ g.bucket then some (s.setPart part { q with regs := q.regs.put res { g with bucket := g.bucket - bytes } })
    else none

/-- The half that a DEST field names. -/
def destHalf (d : Nat) : Nat := bits d 10 10

/-- Direction of a packet across the Half Link, if it crosses: 0 from H0 to H1, 1 back. -/
def crossing (fromHalf dest : Nat) : Option Nat := if fromHalf = destHalf dest then none else some fromHalf

/-- The control-share packet granted next (R451): an engine's, else of the partition next in turn. -/
def nextWaiting (last : Nat) (l : List UcPacket) : Option UcPacket :=
  match l.find? (fun k => decide (8 ≤ k.part)) with
  | some k => some k
  | none => (List.range 8).findSome? (fun i => l.find? (fun k => decide (k.part = (last + 1 + i) % 8)))

/-- Grant the control share of a direction to the next packet that waits for it, when its control credits (R444) and its partition's
tokens (R300) are there. -/
def hlGrant (dir : Nat) (s : State) : State :=
  match nextWaiting (s.hl.lastPart.val dir 7) (s.hl.waiting.filter (fun k => decide (destHalf k.dest ≠ dir))) with
  | none => s
  | some k =>
    let used := s.hl.ctlAvail.val dir 0 + 1 + k.len
    if 128 < used then s
    else
      match takeTokens k.part 2 (64 * (1 + k.len)) s with
      | none => s
      | some s1 => s1.setHl (fun h => { h with
          ctlAvail := h.ctlAvail.put dir used
          waiting := h.waiting.filter (fun w => !decide (w.tag = k.tag))
          lastPart := if k.part < 8 then h.lastPart.put dir k.part else h.lastPart })

/-- A packet comes to the sending Half Link end, which holds it until it is granted (R447). -/
def hlSend (dir : Nat) (k : UcPacket) (s : State) : State := hlGrant dir (s.setHl (fun h => { h with waiting := h.waiting ++ [k] }))

/-- A packet has left the far end: its control credits return (R444, R452). -/
def hlDone (dir flits : Nat) (s : State) : State :=
  hlGrant dir (s.setHl (fun h => { h with ctlAvail := h.ctlAvail.put dir (h.ctlAvail.val dir 0 - flits) }))

/-- The requester is a tile of a partition, or its transfer unit: its requests are on the block's own list. -/
def tileSrc (m : Nat) : Bool := decide (0x280 ≤ m ∧ m ≤ 0x28F)

/-- A tile's request enters the mesh and awaits its response; across the Half Link it needs control credits. -/
def sendUc (p chan : Nat) (posted : Bool) (k : UcPacket) (s : State) : State :=
  let n := s.hl.reqSeq % 65536
  let q := { k with tag := n }
  let s1 := s.setHl (fun h => { h with reqs := h.reqs.put n { tile := p, chan := chan, pkt := q }, reqSeq := h.reqSeq + 1 })
  let s2 := match crossing (p / 408) k.dest with | some d => hlSend d q s1 | none => s1
  if posted then s2.modTile p (fun x => { x with posted := x.posted + 1 }) else s2

/-! ## One instruction -/

/-- What an instruction's effect is computed from: the state, the tile and its job. -/
structure TCtx where
  s : State
  p : Nat
  x : Tile
  i : TInst
  j : Nat
  jb : Job
  part : Nat
  q : Part

/-- What an instruction comes to: it completes, it transfers control, it waits for its condition, it leaves a state with nothing more
to do, or it faults with a cause, a detail and the address of a consumed granule. -/
inductive TRes where
  | go (s : State)
  | jump (s : State) (pc : Nat)
  | wait (s : State)
  | stay (s : State)
  | fault (cause detail : Nat) (addr : Option Nat)

/-- Complete with a new tile. -/
def TCtx.goT (c : TCtx) (x : Tile) : TRes := .go (c.s.setTile c.p x)

/-- Complete with a value for RD. -/
def TCtx.wr (c : TCtx) (v : BitVec 64) : TRes := c.goT (c.x.setReg c.i.rd v)

def TCtx.a (c : TCtx) : BitVec 64 := c.x.reg c.i.ra
def TCtx.b (c : TCtx) : BitVec 64 := c.x.reg c.i.rb
def TCtx.d (c : TCtx) : BitVec 64 := c.x.reg c.i.rd

/-- Consume a range of tile store as an operand (R322, R383): cause 0x07 where a granule is poisoned. -/
def TCtx.consume (c : TCtx) (a n : Nat) (k : TRes) : TRes :=
  match c.x.poisonAt a n with
  | some g => .fault 7 (32 * g / 65536) (some (32 * g))
  | none => k

/-- The tile may issue an instruction, its RUN being as given: awake, its job running on the tiles, no Hold, no switch, no stop in
force for it, no block operation (R334, R388, R486, R870). -/
def State.issuer (s : State) (p run : Nat) : Option (Nat × Job × Nat × Part) :=
  let x := s.tile p
  if x.power ≠ 1 ∨ x.run ≠ run ∨ x.inBlk then none
  else if x.haltReq.isSome ∧ x.lock.isNone ∧ !x.inTrap then none
  else
    match x.job with
    | none => none
    | some j =>
      match s.jobs.look j with
      | none => none
      | some b =>
        match s.parts.look b.part with
        | none => none
        | some q =>
          if b.state = 2 ∧ q.runJob = some j ∧ q.hold = none ∧ q.switch = none ∧ !q.resetting ∧ q.stop.state ≠ 2 then some (j, b, b.part, q)
          else none

/-- Operations that a locked sequence accepts (R340, R409). -/
def lockAllows : TOp → Bool
  | .add | .sub | .and | .or | .xor | .shl | .shr | .sra | .mul | .mulhu | .slt | .sltu | .min | .max | .minu | .maxu => true
  | .addi | .andi | .ori | .xori | .shli | .shri | .srai | .movi | .movhi | .slti => true
  | .ld | .lw | .lh | .lb | .st | .sw | .sh | .sb => true
  | .beq | .bne | .blt | .bge | .bltu | .bgeu | .j => true
  | .semInc | .semAcq | .unlock => true
  | .call | .nop | .ret | .tret | .callr | .jr | .lock | .sync | .waitcyc | .waitcycS | .rdoff | .rdstep | .rdid | .rdjob | .spillw | .fillw => false
  | .srr | .srw | .semTry | .semIncr | .send | .recv | .release | .credBorrow | .credReturn | .watch | .pread | .pwrite => false
  | .blk | .xfer | .outboxPost => false
  | .vadd | .vsub | .vmul | .vfma | .vmax | .vmin | .vexp | .vlog | .vrsq | .vcvti | .vcvtf | .vbcast | .vredsum | .vredmax | .viadd | .vimul => false
  | .vld | .vst => false

/-- The waiting instructions (09, Waiting instructions). -/
def isWaiting : TOp → Bool
  | .waitcyc | .waitcycS | .sync | .semAcq | .send | .recv | .watch | .pread | .xfer | .outboxPost => true
  | _ => false

/-- Address of a load or a store, and its size. -/
def TInst.memSize : TOp → Nat
  | .ld | .st => 8
  | .lw | .sw => 4
  | .lh | .sh => 2
  | .lb | .sb => 1
  | _ => 0

/-- Bytes of a vector access per element format (09, Table: VMEM element formats). -/
def vmemBytes (fmt : Nat) : Nat := if fmt = 1 ∨ fmt = 6 then 256 else if fmt = 2 then 128 else 64

/-- The tile-store range that an instruction reads, if it reads one. -/
def readRange (x : Tile) (i : TInst) : Option (Nat × Nat) :=
  match i.op with
  | .ld | .lw | .lh | .lb => some ((x.reg i.ra + i.simm).toNat, TInst.memSize i.op)
  | .fillw => some ((x.reg i.rb).toNat, 128)
  | .pwrite => some ((x.reg i.rd).toNat, 64)
  | .send => some ((x.reg i.ra).toNat, 64)
  | .blk => some ((x.reg i.ra).toNat, 64)
  | .xfer | .outboxPost => some ((x.reg i.ra).toNat, 32)
  | .vld => some ((x.reg i.ra).toNat, vmemBytes i.fmt)
  | _ => none

/-- What the checks of the tile store find in that range (R320, R321). -/
def readUpset (p : Nat) (u : Upset) (r : Option (Nat × Nat)) (s : State) : State :=
  match u, r with
  | .readCe, some _ => storeCe p s
  | .readUe, some (a, n) => if a + n ≤ storeBytes then storeUe p a n s else s
  | _, _ => s

/-- The trace event of a completed instruction, with its data. -/
def traceOf (i : TInst) (target : Option Nat) : List (Nat × Nat) :=
  let w := if isWaiting i.op then [(5, 0)] else []
  match i.op, target with
  | .beq, some t | .bne, some t | .blt, some t | .bge, some t | .bltu, some t | .bgeu, some t | .j, some t | .jr, some t => [(1, t)]
  | .call, some t | .callr, some t => [(2, t)]
  | .ret, some t => [(3, t)]
  | .semInc, _ | .semAcq, _ | .semTry, _ | .semIncr, _ => w ++ [(9, i.res)]
  | .send, _ | .recv, _ | .release, _ | .credBorrow, _ | .credReturn, _ => w ++ [(8, i.res)]
  | .srw, _ => [(0xA, i.imm)]
  | .blk, _ => [(6, 0)]
  | _, _ => w

/-- An instruction has completed: its trace, the new program counter, the count of its locked sequence with a breakpoint met inside
(R341, R879), and a debug step (R876). -/
def completeInst (p : Nat) (i : TInst) (target : Option Nat) (s : State) : State :=
  let x := s.tile p
  let s1 := (traceOf i target).foldl (fun s e => traceEv p e.1 e.2 s) s
  let met := match x.lock with | some l => (if l.bp.isNone then (s.breakAt p x.pc).map (fun n => (n, x.pc)) else l.bp) | none => none
  let s2 := s1.modTile p (fun y => { y with
    pc := if i.op = .blk then y.pc else target.getD (y.pc + 4)
    run := 0
    bpPassed := false
    lock := y.lock.map (fun l => if i.op = .lock then l else { l with count := l.count + 1, bp := met }) })
  if i.op = .blk then s2 else countStep p s2

/-- UNLOCK takes a breakpoint that its locked sequence met (R879). -/
def unlockBreak (p : Nat) (before : Tile) (s : State) : State :=
  match before.lock, s.partOfTile p with
  | some l, some part =>
    match l.bp with
    | some (n, pc) => if (s.tile p).lock.isNone then haltTile p (beginStop part 2 (s.nameOf p) n pc s) else s
    | none => s
  | _, _ => s

/-- Run the instruction at the program counter, when `sel` takes its decoded form: the fault causes in their order (R419), the lock's
rules (R340, R341), then its own effect. -/
def runWith (p : Nat) (u : Upset) (run : Nat) (sel : TInst → Option (TCtx → TRes)) (s : State) : State :=
  match s.issuer p run with
  | none => s
  | some (j, jb, part, q) =>
    let x := s.tile p
    if u = .mismatch then tileFault p 5 0 none s
    else if storeBytes < x.pc + 4 ∨ x.pc % 4 ≠ 0 then tileFault p 9 0 none s
    else if u = .fetchUe then tileFault p 6 0 none (storeUe p x.pc 4 s)
    else
      match decodeTile (ofLe (x.store.read x.pc 4)) with
      | none => tileFault p 1 0 none s
      | some i =>
        match sel i with
        | none => s
        | some body =>
          if x.lock.isNone ∧ !x.bpPassed ∧ (s.breakAt p x.pc).isSome then s
          else
            let ctx (s : State) : TCtx := { s := s, p := p, x := s.tile p, i := i, j := j, jb := jb, part := part, q := q }
            let bad : Bool := match x.lock with
              | some l => !lockAllows i.op || (decide (16 ≤ l.count) && i.op != .unlock)
              | none => false
            let fin (r : TRes) (s1 : State) : State :=
              match r with
              | .fault c d a => if c != 1 && bad then tileFault p 4 0 none s1 else tileFault p c d a s1
              | .wait s2 => if bad then tileFault p 4 0 none s1 else s2.modTile p (fun y => { y with run := 1 })
              | .stay s2 => if bad then tileFault p 4 0 none s1 else s2
              | .go s2 => if bad then tileFault p 4 0 none s1 else unlockBreak p x (completeInst p i none s2)
              | .jump s2 t => if bad then tileFault p 4 0 none s1 else completeInst p i (some t) s2
            match body (ctx s) with
            | .wait s2 => fin (.wait s2) s
            | _ =>
              let s1 := readUpset p u (readRange x i) s
              fin (body (ctx s1)) s1

/-- A tile instruction's command: the tile runs the instruction at its program counter when that is this operation; a word that
decodes to no instruction faults, another instruction's command does nothing (log 14). -/
def runTile (p : Nat) (u : Upset) (op : TOp) (body : TCtx → TRes) (s : State) : Host.Outcome State Fault Refusal :=
  .next (runWith p u 0 (fun i => if i.op = op then some body else none) s)

end Sys2Proof.Machine
end

