-- ==== Sys2Proof/Machine/Packet.lean ====
section
/-! DEFINITION. The checks of a packet in their order, and the Error state of a queue pair (03_queue_interface_packets.md, When things
fail; 02_queue_interface_rings.md, R91). -/

namespace Sys2Proof.Machine

open Sys2Proof

/-! ## Queue pairs -/

/-- Key of queue pair `n` of a function. -/
def qpKey (f n : Nat) : Nat := 16 * f + n

/-- Slots of the two rings. -/
def QueuePair.sqSize (q : QueuePair) : Nat := 2 ^ q.sqLog
def QueuePair.cqSize (q : QueuePair) : Nat := 2 ^ q.cqLog

/-- Free CQ slots (02, Worked examples, CQ phase; R60). -/
def QueuePair.cqFree (q : QueuePair) : Nat := (q.cqHead + 2 * q.cqSize - q.cqTail - 1) % q.cqSize

/-- Detect a queue error (R91): the first one puts the queue pair in Error and raises one notice. -/
def queueError (k reason : Nat) (s : State) : State :=
  match s.qps.look k with
  | none => s
  | some q =>
    if q.state = 2 then s
    else notice (boxOfFn (k / 16)) 2 (le 1 (k % 16) ++ le 1 reason) (s.setQp k { q with state := 2, errReason := reason })

/-- What stands at the start of every queue pair's life, of a reset and of a function reset (R96). -/
def QueuePair.restart (q : QueuePair) : QueuePair :=
  { q with
    sqHead := 0
    sqTail := 0
    cqHead := 0
    cqTail := 0
    phase := true
    errReason := 0
    fetchPos := 0
    placePos := 0
    slots := []
    parked := none
    cqFull := false
    unsig := 0
    hold := none
    chain := none
    stopAt := none }

/-! ## What a function may name -/

/-- The service is visible to the function (R107, R956): installed, and for a VF granted. -/
def State.visible (s : State) (f sid : Nat) : Option (Nat × Nat × Svc) :=
  if f = 512 ∨ s.svcGrants.contains (f, sid) then s.svcOf sid else none

/-- The sequence entry that a handle names for a function and service (R110, R151, R152). -/
def State.seqHandle (s : State) (f sid obj : Nat) : Option Nat :=
  let e := obj % 16384
  let x := s.seq e
  if x.state ≠ 0 ∧ x.reuse = obj / 16384 ∧ x.fn = f ∧ x.gen = (s.fn f).gen ∧ (sid = 0 ∨ x.sid = sid) ∧ !x.closing ∧ !x.transient then some e
  else none

/-- The skeleton, half and index, that a handle names for a function and service (R110, R560). -/
def State.skelOf (s : State) (f sid obj : Nat) : Option (Nat × Nat) :=
  let i := obj % 4096
  let h := obj / 4096 % 4
  let k := (s.solver h).skels.val i {}
  if h < 2 ∧ k.used ∧ k.reuse = obj / 16384 ∧ k.fn = f ∧ k.gen = (s.fn f).gen ∧ k.sid = sid ∧ k.dropping.isNone then some (h, i) else none

/-- The handle of an entry. -/
def seqHandleOf (e reuse : Nat) : Nat := e + 16384 * reuse

/-! ## Opcodes (03, Table: Packet opcodes) -/

def opNop : Nat := 0x01
def opFence : Nat := 0x02
def opOpen : Nat := 0x10
def opFeed : Nat := 0x11
def opStep : Nat := 0x12
def opClose : Nat := 0x13
def opSet : Nat := 0x20
def opDelta : Nat := 0x21
def opDrop : Nat := 0x22
def opParamWrite : Nat := 0x30
def opParamRead : Nat := 0x31
def opSignal : Nat := 0x40
def opWait : Nat := 0x41
def opQuery : Nat := 0x50
def opChunk : Nat := 0x60

/-- Opcodes that name a service, and those that name none (R102). -/
def serviceOps : List Nat := [opOpen, opFeed, opStep, opClose, opSet, opDelta, opDrop, opParamWrite, opParamRead]
def plainOps : List Nat := [opNop, opFence, opSignal, opWait, opQuery, opChunk]

/-- The opcode is reserved (DETAIL 0x01). -/
def reservedOp (op : Nat) : Bool := !serviceOps.contains op && !plainOps.contains op

/-- Service kinds that accept the opcode. -/
def kindTakes (op kind : Nat) : Bool :=
  if op = opOpen ∨ op = opFeed ∨ op = opClose then kind == 1
  else if op = opSet ∨ op = opDelta ∨ op = opDrop then kind == 3
  else decide (kind = 1 ∨ kind = 2)

/-- Slots of a record with a result of `n` bytes (R111). -/
def recordSlots (n : Nat) : Nat := 1 + ceilDiv (n - 32) 63

/-- The payload rule that the opcode adds to R100 is broken (R958). -/
def payloadBad (h : Bytes) : Bool :=
  let op := fld h 0 1
  let n := fld h 0x14 4
  if op = opFeed then decide (fld h 0x20 2 = 1 ∧ n ≠ 4 * fld h 0x24 4)
  else if op = opParamWrite then decide (n ≠ 64 * fld h 0x24 2)
  else if op = opOpen ∨ op = opStep ∨ op = opSet ∨ op = opDelta ∨ op = opChunk then false
  else decide (n ≠ 0)

/-- A service's window refuses the slots (03, Opcode arguments). -/
def windowBad (h : Bytes) (v : Svc) (most : Nat) : Bool :=
  let n := fld h 0x24 2
  decide (n < 1 ∨ most < n ∨ v.paramSlots < fld h 0x20 4 + n)

/-- An ARGS field is out of range or reserved, or a byte that the opcode does not use is not 0 (DETAIL 0x09). -/
def argsBad (h : Bytes) (v : Svc) : Bool :=
  let op := fld h 0 1
  if op = opOpen then !allZero h 0x24 4 || decide (v.maxTok < fld h 0x20 4)
  else if op = opFeed then
    let k := fld h 0x20 2
    !allZero h 0x22 2 || !allZero h 0x28 24 || decide (k < 1 ∨ 3 < k) || !bit v.feedKinds k
  else if op = opStep then
    !allZero h 0x22 2 || decide (fld h 0x20 2 = 0) || (decide (v.kind = 2) && decide (fld h 0x20 2 ≠ 1))
  else if op = opSet then decide (fld h 0x20 2 ≠ 1) || !allZero h 0x22 30
  else if op = opDelta then
    let m := fld h 0x20 1
    let n := fld h 0x22 2
    !allZero h 0x21 1 || !allZero h 0x28 24 || decide (m < 1 ∨ 5 < m)
      || (if m = 2 then decide (n < 1 ∨ 64 < n) else if m = 5 then decide (n < 1 ∨ 256 < n) else decide (n ≠ 0 ∨ fld h 0x24 4 ≠ 0))
  else if op = opParamWrite then windowBad h v 1023 || !allZero h 0x26 26
  else if op = opParamRead then
    windowBad h v 1007 || !allZero h 0x26 26 || decide (v.maxCpl < recordSlots (64 * fld h 0x24 2))
  else if op = opSignal then decide (63 < fld h 0x20 2) || decide (fld h 0x22 2 = 0) || !allZero h 0x24 28
  else if op = opWait then decide (63 < fld h 0x20 2) || !allZero h 0x22 6 || !allZero h 0x30 16
  else if op = opQuery then decide (2 < fld h 0x20 1) || !allZero h 0x21 31
  else if op = opChunk then !allZero h 0x24 4 || decide (fld h 0x28 8 % 64 ≠ 0) || !allZero h 0x30 16
  else !allZero h 0x20 32

/-- The signal fields are invalid (DETAIL 0x0A). -/
def signalBad (h : Bytes) : Bool :=
  let m := fld h 1 1 % 4
  if m = 0 then decide (fld h 0x18 2 ≠ 0 ∨ fld h 0x1A 2 ≠ 0) else decide (fld h 0x1A 2 = 0 ∨ 63 < fld h 0x18 2)

/-- Bytes of the QUERY record of a kind. -/
def queryBytes (kind : Nat) : Nat := if kind = 0 then 80 else if kind = 1 then 32 else 64

/-- The record of the packet would need more slots than the CQ has (DETAIL 0x0B). -/
def recordTooBig (h : Bytes) (v : Svc) (cq : Nat) : Bool :=
  let op := fld h 0 1
  let n := if op = opParamRead then recordSlots (64 * fld h 0x24 2)
    else if op = opQuery then recordSlots (queryBytes (fld h 0x20 1))
    else 0
  decide (cq - 1 < n) || (serviceOps.contains op && decide (cq - 1 < v.maxCpl))

/-- The packet breaks the chain in progress, or starts one it may not (R103-R105). -/
def chainBad (q : QueuePair) (s : State) (h : Bytes) : Bool :=
  let op := fld h 0 1
  let more := bit (fld h 1 1) 2
  match q.chain with
  | none => more && op != opFeed && op != opSet
  | some c =>
    let first := match s.pkts.look c.first with | some p => p.hdr | none => h
    decide (fld first 0 1 ≠ op ∨ fld first 4 4 ≠ fld h 4 4 ∨ fld first 0x10 4 ≠ fld h 0x10 4 ∨ fld first 8 8 ≠ fld h 8 8
      ∨ fld first 1 1 % 4 ≠ fld h 1 1 % 4) || (decide (63 ≤ c.count) && more)

/-- The outcome of a packet's checks. -/
inductive Verdict where
  | fine
  | malformed (detail : Nat)
  | unknown
  | denied (detail : Nat)
deriving DecidableEq, Repr

/-- The checks before the service is looked up: MALFORMED DETAIL 0x01-0x06. -/
def headCheck (h : Bytes) (sq : Nat) : Option Nat :=
  let op := fld h 0 1
  let flags := fld h 1 1
  let slots := fld h 2 2
  let n := fld h 0x14 4
  let sid := fld h 4 4
  if reservedOp op then some 1
  else if slots = 0 ∨ 1024 < slots then some 2
  else if sq - 1 < slots then some 3
  else if flags % 4 = 3 ∨ 8 ≤ flags ∨ !allZero h 0x1C 4 then some 4
  else if slots ≠ 1 + ceilDiv n 64 ∨ payloadBad h then some 5
  else if (serviceOps.contains op && decide (sid = 0)) || (plainOps.contains op && decide (sid ≠ 0)) then some 6
  else none

/-- The checks after it: MALFORMED DETAIL 0x07-0x0B; the service's own check (0x0C) is made on the content. -/
def bodyCheck (s : State) (q : QueuePair) (h : Bytes) (v : Svc) : Option Nat :=
  if serviceOps.contains (fld h 0 1) ∧ v.maxPkt < fld h 2 2 then some 7
  else if chainBad q s h then some 8
  else if argsBad h v then some 9
  else if signalBad h then some 0xA
  else if recordTooBig h v q.cqSize then some 0xB
  else none

/-- The access checks (R108-R110, R191, R192). -/
def accessCheck (s : State) (k : Nat) (q : QueuePair) (h : Bytes) (v : Svc) : Option Nat :=
  let op := fld h 0 1
  let f := k / 16
  let sid := fld h 4 4
  let obj := fld h 0x10 4
  if q.bulk && !(decide (op = opChunk ∨ op = opNop ∨ op = opFence ∨ op = opQuery)) then some 1
  else if op = opChunk ∧ !q.bulk then some 1
  else if serviceOps.contains op ∧ !kindTakes op v.kind then some 1
  else if serviceOps.contains op ∧ !bit v.flags (if q.lc then 0 else 1) then some 2
  else if (op = opFeed ∨ op = opClose ∨ (op = opStep ∧ v.kind = 1)) ∧ (s.seqHandle f sid obj).isNone then some 3
  else if op = opStep ∧ v.kind = 2 ∧ obj ≠ 0 then some 3
  else if op = opQuery ∧ fld h 0x20 1 = 1 ∧ (s.seqHandle f 0 obj).isNone then some 3
  else if (op = opDelta ∨ op = opDrop) ∧ (s.skelOf f sid obj).isNone then some 3
  else if serviceOps.contains op ∧ fld h 1 1 % 4 ≠ 0 ∧ !bit v.flags 2 then some 4
  else if op = opWait ∧ ((s.fn f).targets.val (fld h 0x20 2) {}).kind ≠ 2 then some 5
  else none

/-- All checks of a packet, the first that fails (03, When things fail). A later packet of a chain was let in with the first. -/
def verdict (s : State) (k : Nat) (q : QueuePair) (h : Bytes) : Verdict :=
  match headCheck h q.sqSize with
  | some d => .malformed d
  | none =>
    let svc := s.visible (k / 16) (fld h 4 4)
    let v : Svc := match svc with | some (_, _, v) => v | none => {}
    if serviceOps.contains (fld h 0 1) && svc.isNone && q.chain.isNone then .unknown
    else
      match bodyCheck s q h v with
      | some d => .malformed d
      | none =>
        if q.chain.isSome then .fine
        else match accessCheck s k q h v with
          | some d => .denied d
          | none => .fine

/-- The checks of a solver packet's content, with the payload at hand (R561, R564, R565): a skeleton image, of a chain with its last packet,
or a delta. -/
def contentBad (s : State) (k : Nat) (q : QueuePair) (h body : Bytes) : Option Nat :=
  let op := fld h 0 1
  let sid := fld h 4 4
  if op = opSet then
    let before := match q.chain with
      | some c => (match s.pkts.look c.first with | some p => p.chainPkts.flatMap (fun i => match s.pkts.look i with | some x => x.payload | none => []) | none => [])
      | none => []
    if bit (fld h 1 1) 2 then none else if skelBad (before ++ body) then some 0xC else none
  else if op = opDelta then
    match s.skelOf (k / 16) sid (fld h 0x10 4) with
    | none => none
    | some (hf, i) =>
      let e := skelEntries ((s.solver hf).skels.val i {}).image
      if deltaSizeBad e body then some 5 else if deltaBad e body then some 0xC else none
  else none

/-- ERR_REASON of a MALFORMED condition (R146). -/
def errReasonOf (detail : Nat) : Nat := if detail = 3 then 9 else if detail = 0xB then 0xA else 3

/-- The packet at a slot of the SQ is held whole in the QFE's buffer. -/
def QueuePair.whole (q : QueuePair) (at_ n : Nat) : Bool := (List.range n).all (fun i => (q.slots.look ((at_ + i) % q.sqSize)).isSome)

/-- Advance LQI_SQ_HEAD past the packets held whole, and not past a malformed one (R61, R120, R147). -/
def advanceHead (s : State) (k : Nat) : Nat → QueuePair → QueuePair
  | 0, q => q
  | n + 1, q =>
    match q.slots.look q.sqHead with
    | none => q
    | some h =>
      match headCheck h q.sqSize with
      | some _ => q
      | none =>
        let len := fld h 2 2
        let svc := s.visible (k / 16) (fld h 4 4)
        let v : Svc := match svc with | some (_, _, v) => v | none => {}
        let bad : Bool := (svc.isSome || plainOps.contains (fld h 0 1)) && (bodyCheck s { q with chain := none } h v).isSome
        let body := ((List.range (len - 1)).flatMap (fun i => (q.slots.look ((q.sqHead + 1 + i) % q.sqSize)).getD [])).take (fld h 0x14 4)
        if bad || !q.whole q.sqHead len || (svc.isSome && (contentBad s k { q with chain := none } h body).isSome) then q else advanceHead s k n { q with sqHead := (q.sqHead + len) % q.sqSize }

end Sys2Proof.Machine
end

