-- ==== Sys2Proof/Machine/Rings.lean ====
section
/-! DEFINITION. The queue interface's rings: doorbells, queue fetch engines, translation and page requests, the completion writer,
moderation and vector messages (02_queue_interface_rings.md). -/

namespace Sys2Proof.Machine

open Sys2Proof

/-! ## Doorbells (R58, R944, R947) -/

/-- A register write before readiness is discarded and counted (R697). -/
def earlyWrite (s : State) : State := s.setStart (fun x => { x with earlyWrites := sat 16 (x.earlyWrites + 1) })

/-- LQI_SQ_TAIL: the written value is the new tail (R58, R84, R88); a value at or above the size is an error (R947); outside Active it is
ignored (R94, R781, R949). -/
def execLqiSqTail (f qp val : Nat) (s : State) : Host.Outcome State Fault Refusal :=
  if !s.isReady then .next (earlyWrite s)
  else
    match s.qps.look (qpKey f qp) with
    | none => .next s
    | some q =>
      let t := val % 65536
      if q.state ≠ 1 then .next s
      else if q.sqSize ≤ t then .next (queueError (qpKey f qp) 1 s)
      else .next (s.setQp (qpKey f qp) { q with sqTail := t })

/-- LQI_CQ_HEAD: moves the guest's head within the records written (R947), in Error too (R94). -/
def execLqiCqHead (f qp val : Nat) (s : State) : Host.Outcome State Fault Refusal :=
  if !s.isReady then .next (earlyWrite s)
  else
    match s.qps.look (qpKey f qp) with
    | none => .next s
    | some q =>
      let t := val % 65536
      let n := q.cqSize
      if q.state = 0 ∨ q.state = 3 then .next s
      else if n ≤ t ∨ (q.cqTail + n - q.cqHead) % n < (t + n - q.cqHead) % n then .next (queueError (qpKey f qp) 2 s)
      else .next (s.setQp (qpKey f qp) { q with cqHead := t })

/-- Send a CQ's vector message: nothing is unsignalled afterwards. -/
def signalCq (k : Nat) (s : State) : State :=
  match s.qps.look k with
  | none => s
  | some q => msix (k / 16) q.vector (s.setQp k { q with unsig := 0 })

/-- LQI_CQ_MOD: the new COUNT and TIME apply to the unsignalled records at once (R944); COUNT 0 is reserved and keeps the field (R7). -/
def execLqiCqMod (f qp val : Nat) (s : State) : Host.Outcome State Fault Refusal :=
  if !s.isReady then .next (earlyWrite s)
  else
    match s.qps.look (qpKey f qp) with
    | none => .next s
    | some q =>
      let c := if val % 256 = 0 then q.modCount else val % 256
      let t := bits val 31 16
      let s1 := s.setQp (qpKey f qp) { q with modCount := c, modTime := t }
      if q.unsig ≠ 0 ∧ (t = 0 ∨ c ≤ q.unsig ∨ q.unsigTick + t ≤ s.clk.tick) then .next (signalCq (qpKey f qp) s1) else .next s1

/-- TIME calendar ticks have passed since the first unsignalled record (R74). -/
def execCqModTimer (f qp : Nat) (s : State) : Host.Outcome State Fault Refusal :=
  match s.qps.look (qpKey f qp) with
  | none => .next s
  | some q =>
    .next (if q.unsig ≠ 0 ∧ q.modTime ≠ 0 ∧ q.unsigTick + q.modTime ≤ s.clk.tick then signalCq (qpKey f qp) s else s)

/-! ## Vector masks (R75) -/

/-- Send one message for each pending vector that nothing masks now, and clear its pending bit. -/
def flushVectors (f : Nat) (s : State) : State :=
  let x := s.fn f
  if x.msixEnable && !x.msixMask then
    let due := x.vecPending.filter (fun v => x.vecUnmasked.contains v)
    let s1 := s.modFn f (fun x => { x with vecPending := x.vecPending.filter (fun v => !x.vecUnmasked.contains v) })
    forEach due s1 (fun s v => s.emit (.msix f v))
  else s

/-- A vector, the function's mask or MSI-X Enable changes. -/
def execMsixMaskChange (f : Nat) (c : MsixChange) (s : State) : Host.Outcome State Fault Refusal :=
  .next (flushVectors f (s.modFn f (fun x =>
    match c with
    | .vector v m => { x with vecUnmasked := if m then x.vecUnmasked.filter (· != v) else if x.vecUnmasked.contains v then x.vecUnmasked else v :: x.vecUnmasked }
    | .function m => { x with msixMask := m }
    | .enable on => { x with msixEnable := on })))

/-! ## Page requests (R68-R71, R89) -/

/-- The function's ring accesses need a translation that the cache lacks (R67). -/
def State.lacks (s : State) (f page : Nat) : Bool := (s.fn f).ats && !s.xlat.contains (f, page)

/-- The 4 KiB page of a ring slot. -/
def ringPage (base slot : Nat) : Nat := (base + 64 * slot) / 4096

/-- Number for a new entry of a table. -/
def nextKey {α : Type} (t : Tab α) : Nat := t.foldl (fun n e => max n (e.1 + 1)) 1

/-- Send queued page requests while fewer than 64 of the function are outstanding: lowest QFE first, then in order (R71). -/
def sendPageReqs (f : Nat) (s : State) : State :=
  let mine := s.preqs.filter (fun e => decide (e.2.fn = f))
  if 64 ≤ (mine.filter (fun e => e.2.sent)).length then s
  else
    let rank (e : Nat × PageReq) : Nat × Nat := (match s.qps.look e.2.qp with | some q => q.qfe | none => 16, e.2.order)
    let best := (mine.filter (fun e => !e.2.sent)).foldl (fun (b : Option (Nat × PageReq)) e =>
      match b with
      | none => some e
      | some x => if (rank e).1 < (rank x).1 ∨ ((rank e).1 = (rank x).1 ∧ (rank e).2 < (rank x).2) then some e else b) none
    match best with
    | none => s
    | some (i, r) => { s with preqs := s.preqs.put i { r with sent := true, tick := s.clk.tick } }.emit (.pageReq f i r.page)

/-- Park a queue pair on a page request (R68, R69). -/
def park (k page : Nat) (cq : Bool) (s : State) : State :=
  let i := nextKey s.preqs
  let s1 := s.modQp k (fun q => { q with parked := some i })
  sendPageReqs (k / 16) { s1 with preqs := s1.preqs.put i { fn := k / 16, qp := k, cq := cq, page := page, order := i } }

/-- Take a page request off the list; a queued one of the function may go now. -/
def dropPageReq (i : Nat) (s : State) : State :=
  match s.preqs.look i with
  | none => s
  | some r => sendPageReqs r.fn { s with preqs := s.preqs.del i }

/-- A queue pair leaves the parked state for another reason: its request goes unsent or unheeded (R71, R89). -/
def unpark (k : Nat) (s : State) : State :=
  match s.qps.look k with
  | none => s
  | some q =>
    match q.parked with
    | none => s
    | some i =>
      let s1 := s.setQp k { q with parked := none }
      match s1.preqs.look i with
      | some r => if r.sent then s1 else { s1 with preqs := s1.preqs.del i }
      | none => s1

/-- Discard every record held for a CQ and count each (R95). -/
def dropRecords (k : Nat) (s : State) : State :=
  let mine := s.outbox.filter (fun r => decide (r.qp = k))
  let ids := (mine.filter (·.fin)).flatMap (fun r => match s.pkts.look r.pkt with | some p => p.group r.pkt | none => [])
  let s1 := dropPkts ids { s with outbox := s.outbox.filter (fun r => !decide (r.qp = k)) }
  s1.modQp k (fun q => { q with cqFull := false, acct := { q.acct with discarded := sat 32 (q.acct.discarded + mine.length) } })

/-- A ring access fails for want of a translation: ERR_REASON 0x04 for the SQ, 0x05 for the CQ, whose held records go (R91, R95, R946). -/
def noTranslation (k : Nat) (cq : Bool) (s : State) : State :=
  if cq then dropRecords k (queueError k 5 s) else queueError k 4 s

/-- A page-request group response (R70, R89). -/
def execPageRequestResponse (f req : Nat) (ok : Bool) (s : State) : Host.Outcome State Fault Refusal :=
  match s.preqs.look req with
  | none => .next s
  | some r =>
    if r.fn ≠ f ∨ !r.sent then .next s
    else
      let s1 := dropPageReq req s
      match s1.qps.look r.qp with
      | none => .next s1
      | some q =>
        if q.parked ≠ some req then .next s1
        else
          let s2 := s1.setQp r.qp { q with parked := none }
          if ok then .next { s2 with xlat := if s2.xlat.contains (f, r.page) then s2.xlat else (f, r.page) :: s2.xlat }
          else .next (noTranslation r.qp r.cq s2)

/-- A page request has gone unanswered for 1,000,000 calendar ticks (R91). -/
def execPageRequestTimeout (f req : Nat) (s : State) : Host.Outcome State Fault Refusal :=
  match s.preqs.look req with
  | none => .next s
  | some r =>
    if r.fn ≠ f ∨ !r.sent ∨ s.clk.tick < r.tick + 1000000 then .next s
    else
      let s1 := dropPageReq req s
      match s1.qps.look r.qp with
      | none => .next s1
      | some q =>
        if q.parked ≠ some req then .next s1
        else .next (noTranslation r.qp r.cq (s1.setQp r.qp { q with parked := none }))

/-! ## Fetching (R63-R66, R943) -/

/-- Fetch slots of an engine that a queue pair's class or function holds. -/
def State.heldBy (s : State) (qfe : Nat) (p : QueuePair → Nat → Bool) : Nat :=
  (s.fslots.filter (fun e => decide (e.1 / 128 = qfe) && (match s.qps.look e.2.qp with | some q => p q e.2.qp | none => false))).length

/-- The function's rings may be used: not in a function reset, its device interface neither locked nor in error (R830, R833). -/
def State.ringsOpen (s : State) (f : Nat) : Bool := let x := s.fn f; x.state != 3 && x.tdi != 1 && x.tdi != 3

/-- The queue pair is ready (02, Queue fetch engines): unfetched slots, Active, no page wanted, its VF below its fetch share; no record
waits for room (R86). -/
def State.fetchReady (s : State) (qfe k : Nat) (q : QueuePair) : Bool :=
  decide (q.qfe = qfe ∧ q.state = 1 ∧ q.fetchPos ≠ q.sqTail) && q.parked.isNone && !q.cqFull && s.ringsOpen (k / 16)
    && (decide (k / 16 = 512) || decide (s.heldBy qfe (fun _ j => decide (j / 16 = k / 16)) < (s.fn (k / 16)).quotas.fetch))

/-- Place of a queue pair in the round robin: the PF's first (R943). -/
def robinRank (k : Nat) : Nat := if k / 16 = 512 then k % 16 else k + 16

/-- The next of a list of queue pairs after the one last granted. -/
def nextRobin (last : Option Nat) (l : List Nat) : Option Nat :=
  let least (l : List Nat) : Option Nat :=
    l.foldl (fun b k => match b with | none => some k | some x => if robinRank k < robinRank x then some k else b) none
  match last with
  | none => least l
  | some x => match least (l.filter (fun k => decide (robinRank x < robinRank k))) with | some k => some k | none => least l

/-- The engine's domain is powered and the device is ready. -/
def State.qfeRuns (s : State) : Bool := s.isReady && s.pwr.state != 0

/-- Grant a free fetch slot (R65): the read of contiguous valid slots of one SQ, not past the ring's end or a 4 KiB boundary (R59, R64).
Without a translation the engine asks the host for one first. -/
def execFetchGrant (qfe : Nat) (s : State) : Host.Outcome State Fault Refusal :=
  let e := s.qfes.val qfe {}
  if !s.qfeRuns ∨ e.lastCycle = some s.clk.cycle ∨ s.sec.turnover.isSome then .next s
  else
    let lcHeld := s.heldBy qfe (fun q _ => q.lc)
    let free := 128 - s.heldBy qfe (fun _ _ => true)
    let opened := free - (e.reserve - min lcHeld e.reserve)
    let ready (lc : Bool) : List Nat := (s.qps.filter (fun x => x.2.lc == lc && s.fetchReady qfe x.1 x.2)).map (·.1)
    let pick : Option Nat :=
      if free = 0 then none
      else match nextRobin e.lastLc (ready true) with
        | some k => some k
        | none => if 0 < opened then nextRobin e.lastBe (ready false) else none
    match pick with
    | none => .next s
    | some k =>
      match s.qps.look k with
      | none => .next s
      | some q =>
        let e1 := { e with
          lastLc := if q.lc then some k else e.lastLc
          lastBe := if q.lc then e.lastBe else some k
          lastCycle := some s.clk.cycle
          progress := s.clk.tick }
        let s1 := { s with qfes := s.qfes.put qfe e1 }
        let page := ringPage q.sqBase q.fetchPos
        if s.lacks (k / 16) page then .next (s1.emit (.atsReq (k / 16) page))
        else
          let n := min (64 - q.fetchPos % 64) ((q.sqTail + q.sqSize - q.fetchPos) % q.sqSize)
          match firstFree 128 (fun i => (s.fslots.look (128 * qfe + i)).isNone) with
          | none => .next s1
          | some i =>
            let x : FetchSlot :=
              { qp := k, first := q.fetchPos, count := n, gen := (s.fn (k / 16)).gen, epoch := q.epoch, tick := s.clk.tick }
            let s2 := { s1 with fslots := s1.fslots.put (128 * qfe + i) x }
            .next ((s2.setQp k { q with fetchPos := (q.fetchPos + n) % q.sqSize }).emit (.ringRead (k / 16) (k % 16) q.fetchPos n))

/-- Invalidations that no read in flight holds up any more complete (R72). -/
def settleInvs (s : State) : State :=
  let busy (i : Nat × Nat) : Bool := s.fslots.any (fun e => decide (e.2.qp / 16 = i.1) && !e.2.back
    && (match s.qps.look e.2.qp with | some q => decide (ringPage q.sqBase e.2.first = i.2) | none => false))
  let s1 := { s with invs := s.invs.filter busy }
  forEach (s.invs.filter (fun i => !busy i)) s1 (fun s i => s.emit (.invDone i.1 i.2))

/-- Free a fetch slot. -/
def freeFetch (key : Nat) (s : State) : State :=
  let e := s.qfes.val (key / 128) {}
  settleInvs { s with fslots := s.fslots.del key, qfes := s.qfes.put (key / 128) { e with progress := s.clk.tick } }

/-- A fetch slot's grant is of the current generation and epoch (R203, R779). -/
def State.fetchLive (s : State) (x : FetchSlot) : Bool :=
  decide (x.gen = (s.fn (x.qp / 16)).gen) && (match s.qps.look x.qp with | some q => decide (x.epoch = q.epoch ∧ q.state ≠ 3 ∧ q.state ≠ 0) | none => false)

/-- The read of a fetch slot ends in an error (R91, R93): no packet with one of its slots runs. -/
def fetchFailed (key reason : Nat) (s : State) : State :=
  match s.fslots.look key with
  | none => s
  | some x => if x.back then s else if s.fetchLive x then queueError x.qp reason (freeFetch key s) else freeFetch key s

/-- A ring read returns (R61, R91, R93, R203): its slots are held, and LQI_SQ_HEAD moves past whole packets. -/
def execRingReadCompletion (qfe slot : Nat) (r : ReadResult) (s : State) : Host.Outcome State Fault Refusal :=
  let key := 128 * qfe + slot
  match s.fslots.look key with
  | none => .next s
  | some x =>
    match r with
    | .poisoned => .next (fetchFailed key 6 s)
    | .refused => .next (fetchFailed key 7 s)
    | .data b =>
      if x.back then .next s
      else if !s.fetchLive x then .next (freeFetch key s)
      else
        match s.qps.look x.qp with
        | none => .next s
        | some q =>
          let put := (List.range x.count).foldl (fun (t : Tab Bytes) i => t.put ((x.first + i) % q.sqSize) (fit 64 (b.drop (64 * i)))) q.slots
          let q1 := advanceHead s x.qp (put.length + 1) { q with slots := put }
          let e := s.qfes.val qfe {}
          .next (settleInvs { s.setQp x.qp q1 with
            fslots := s.fslots.put key { x with back := true }
            qfes := s.qfes.put qfe { e with progress := s.clk.tick } })

/-- A completion timeout on an SQ read (R91): ERR_REASON 0x08. -/
def execRingReadTimeout (qfe slot : Nat) (s : State) : Host.Outcome State Fault Refusal := .next (fetchFailed (128 * qfe + slot) 8 s)

/-- An ATS invalidation (R72, R90, R945): the translation goes at once, and the completion waits for the accesses under it. -/
def execAtsInvalidation (f page : Nat) (s : State) : Host.Outcome State Fault Refusal :=
  .next (settleInvs { s with xlat := s.xlat.filter (· != (f, page)), invs := s.invs ++ [(f, page)] })

/-! ## The completion writer (R52-R54, R77, R86, R948) -/

/-- The record's bytes from its first slot on, without the control bytes (03, Completion record first slot). -/
def Record.head (r : Record) (slots sqHead : Nat) : Bytes :=
  le 1 (b2n r.fin + 2 * b2n r.sigSent + 4 * b2n r.sigLost) ++ le 2 r.status ++ le 2 slots ++ le 1 r.opcode ++ le 1 r.detail
    ++ le 8 r.tag.toNat ++ le 2 sqHead ++ zeros 2 ++ le 4 r.result.length ++ le 4 r.handle ++ zeros 4 ++ fit 32 r.result

/-- The writes of a record, the first slot's last (R54): slot index and 64 bytes. -/
def recordWrites (q : QueuePair) (r : Record) (n : Nat) : List (Nat × Bytes) :=
  let ph (i : Nat) : Nat := b2n (if q.cqTail + i < q.cqSize then q.phase else !q.phase)
  let rest := (List.range (n - 1)).map (fun i =>
    ((q.cqTail + i + 1) % q.cqSize, le 1 (ph (i + 1)) ++ fit 63 (r.result.drop (32 + 63 * i))))
  rest ++ [(q.cqTail, le 1 (ph 0 + 2) ++ r.head n q.sqHead)]

/-- A record is of the current generation and epoch, or a NOTIFY record (R203, R204, R779). -/
def State.recordLive (s : State) (q : QueuePair) (r : Record) : Bool :=
  r.notify.isSome || decide (r.gen = (s.fn (r.qp / 16)).gen ∧ r.epoch = q.epoch)

/-- The packets that a final record ends. -/
def State.endedBy (s : State) (r : Record) : List Nat :=
  if r.fin then (match s.pkts.look r.pkt with | some p => p.group r.pkt | none => []) else []

/-- Take the first record of a queue pair out of the outbox. -/
def takeRecord (k : Nat) (r : Record) (s : State) : State :=
  dropPkts (s.endedBy r) { s with outbox := s.outbox.eraseP (fun x => decide (x.qp = k)) }

/-- Discard it and count it. -/
def discardRecord (k : Nat) (r : Record) (s : State) : State :=
  (takeRecord k r s).modQp k (fun q => { q with acct := { q.acct with discarded := sat 32 (q.acct.discarded + 1) } })

/-- The record waits for a QFE transfer tag: its function's tag quota is 0 (R197). -/
def State.tagRoom (s : State) (f qfe : Nat) : Bool :=
  let held := s.mem.xfers.filter (fun e => e.2.tile.isNone)
  decide ((held.filter (fun e => decide ((e.1 - 24576) / 512 = qfe))).length < 512)
    && (decide (f = 512) || decide ((held.filter (fun e => decide (e.2.fn = f))).length < (s.fn f).quotas.tag))

/-- After a record's writes: its signal (R122, R951), then the vector message as moderation has it (R73, R74, R78). -/
def announce (k : Nat) (r : Record) (s : State) : State :=
  let s1 :=
    if r.sigSent then
      match s.pkts.look r.pkt with
      | some p =>
        if p.cplMode ≠ 1 then s
        else if s.canSignal (k / 16) p.sigTarget then issueSignal (k / 16) p.sigTarget p.sigCount p.gtag p.part s
        else lostNotice (k / 16) p.sigTarget p.gtag s
      | none => s
    else s
  match s1.qps.look k with
  | none => s1
  | some q =>
    let n := q.unsig + 1
    let s2 := s1.setQp k { q with unsig := n, unsigTick := if q.unsig = 0 then s.clk.tick else q.unsigTick }
    if q.modTime = 0 ∨ q.modCount ≤ n then signalCq k s2 else s2

/-- Write the next record of a queue pair from the outbox into its CQ and announce it (R77, R78). Old records are discarded (R203, R779); one that
needs more slots than the CQ has is discarded with ERR_REASON 0x0A (R948); one that finds no room waits and stops fetching (R86). -/
def execCqRecordWrite (f qp : Nat) (s : State) : Host.Outcome State Fault Refusal :=
  let k := qpKey f qp
  match s.qps.look k, s.outbox.find? (fun r => decide (r.qp = k)) with
  | some q, some r =>
    let n := recordSlots r.result.length
    let x := s.fn f
    if !s.qfeRuns then .next s
    else if !s.recordLive q r then .next (discardRecord k r s)
    else if q.state = 0 ∨ q.state = 3 ∨ x.tdi = 1 ∨ x.tdi = 3 ∨ q.parked.isSome ∨ !s.tagRoom f q.qfe then .next s
    else if q.cqSize - 1 < n then .next (discardRecord k r (queueError k 0xA s))
    else if q.cqFree < n then .next (s.setQp k { q with cqFull := true })
    else
      match (List.range n).map (fun i => ringPage q.cqBase ((q.cqTail + i) % q.cqSize)) |>.find? (s.lacks f) with
      | some page => .next (s.emit (.atsReq f page))
      | none =>
        let s1 := forEach (recordWrites q r n) s (fun s w => s.emit (.cqWrite f qp w.1 w.2))
        let wrap := decide (q.cqSize ≤ q.cqTail + n)
        let s2 := s1.setQp k { q with cqTail := (q.cqTail + n) % q.cqSize, phase := if wrap then !q.phase else q.phase, cqFull := false }
        let e := s2.qfes.val q.qfe {}
        .next (takeRecord k r (announce k r { s2 with qfes := s2.qfes.put q.qfe { e with progress := s.clk.tick } }))
  | _, _ => .next s

/-- The page of the access that a queue pair wants a translation for: of its next SQ read, or of its next record's slots (true). -/
def State.wants (s : State) (k page : Nat) (q : QueuePair) : Option Bool :=
  let sq := decide (q.state = 1 ∧ q.fetchPos ≠ q.sqTail ∧ ringPage q.sqBase q.fetchPos = page)
  match s.outbox.find? (fun r => decide (r.qp = k)) with
  | some r =>
    if (List.range (recordSlots r.result.length)).any (fun i => decide (ringPage q.cqBase ((q.cqTail + i) % q.cqSize) = page)) then some true
    else if sq then some false else none
  | none => if sq then some false else none

/-- The host answers a translation request (R68, R945, R946): with a translation the access goes on; without one it is parked on a page
request, or with PRI disabled fails. -/
def execAtsTranslationCompletion (f qp page : Nat) (valid : Bool) (s : State) : Host.Outcome State Fault Refusal :=
  let k := qpKey f qp
  match s.qps.look k with
  | none => .next s
  | some q =>
    if !s.lacks f page ∨ q.parked.isSome ∨ q.state = 0 ∨ q.state = 3 then .next s
    else
      match s.wants k page q with
      | none => .next s
      | some cq =>
        if valid then .next { s with xlat := (f, page) :: s.xlat }
        else if (s.fn f).pri then .next (park k page cq s)
        else .next (noTranslation k cq s)

/-- A NOTIFY record has waited 1,000 calendar ticks for CQ room (R219). -/
def execNotifyRecordTimeout (f qp : Nat) (s : State) : Host.Outcome State Fault Refusal :=
  let k := qpKey f qp
  match s.outbox.find? (fun r => decide (r.qp = k)) with
  | none => .next s
  | some r =>
    match r.notify with
    | none => .next s
    | some t => .next (if t + 1000 ≤ s.clk.tick then discardRecord k r s else s)

/-! ## Signals and hangs -/

/-- An issued fabric signal has gone 1,000 calendar ticks without acknowledgement (R126). -/
def execSignalAckTimeout (sigTag : Nat) (s : State) : Host.Outcome State Fault Refusal :=
  match s.alm.sigs.look sigTag with
  | none => .next s
  | some g =>
    if s.clk.tick < g.tick + 1000 then .next s
    else
      let s1 := s.setAlm (fun a => { a with sigs := a.sigs.del sigTag })
      .next (releaseSigs g.fn g.target (if g.gen = (s.fn g.fn).gen then signalLost g.fn g.target g.tag s1 else s1))

/-- A fetch slot or a record of the engine has stood since a tick and could make progress (R797): not parked, not waiting for CQ room, for
tokens or behind a FENCE. -/
def State.qfeOwes (s : State) (qfe since : Nat) : Bool :=
  s.fslots.any (fun e => decide (e.1 / 128 = qfe ∧ e.2.tick ≤ since) && (match s.qps.look e.2.qp with
    | some q => q.parked.isNone && (!e.2.back || (q.hold.isNone && q.stopAt.isNone && q.state == 1))
    | none => true))
  || s.outbox.any (fun r => decide (r.born ≤ since) && (match s.qps.look r.qp with
    | some q => decide (q.qfe = qfe ∧ (q.state = 1 ∨ q.state = 2)) && q.parked.isNone && !q.cqFull
    | none => false))

/-- 100,000 calendar ticks without progress: the engine hangs (R797, R798). -/
def execQfeHang (qfe : Nat) (s : State) : Host.Outcome State Fault Refusal :=
  let since := s.clk.tick - 100000
  .next (if 100000 ≤ s.clk.tick ∧ s.qfeOwes qfe since ∧ (s.qfes.val qfe {}).progress ≤ since then hang 4 qfe 0 s else s)

/-! ## The end of a queue reset (R780) -/

/-- The reads of a queue pair that are still out. -/
def State.readsOut (s : State) (p : Nat → Bool) : Bool := s.fslots.any (fun e => p e.2.qp && !e.2.back)

/-- Free what the QFE holds for queue pairs (Table: Commit points of old-generation work): fetch slots, and packets that hold nothing. -/
def clearFetched (p : Nat → Bool) (s : State) : State :=
  let idle := (s.pkts.filter (fun e => p e.2.qp && !s.live e.2 && (!e.2.taken || e.2.opcode == opFence || e.2.opcode == opWait))).map (·.1)
  dropPkts idle { s with fslots := s.fslots.keep (fun _ x => !p x.qp) }

/-- Every ring read of the old epoch has ended (R780): the queue pair becomes Active or Disabled, or goes. -/
def execQueueResetComplete (f qp : Nat) (s : State) : Host.Outcome State Fault Refusal :=
  let k := qpKey f qp
  match s.qps.look k with
  | none => .next s
  | some q =>
    if q.state ≠ 3 ∨ s.readsOut (· == k) then .next s
    else
      let s1 := clearFetched (· == k) s
      if q.deleting then (let s2 := dropRecords k s1; .next { s2 with qps := s2.qps.del k })
      else .next (s1.modQp k (fun q => { q.restart with state := if q.leaveDisabled then 0 else 1, leaveDisabled := false, vacant := q.vacant && q.leaveDisabled }))

end Sys2Proof.Machine
end

