-- ==== Sys2Proof/Machine/Inbox.lean ====
section
/-! DEFINITION. Placement of packets into the inboxes, and the packets that the queue interface serves by itself: NOP, FENCE, WAIT,
SIGNAL, QUERY, PARAM_WRITE and PARAM_READ (03_queue_interface_packets.md). -/

namespace Sys2Proof.Machine

open Sys2Proof

/-! ## Where a payload lies in an inbox (log 20) -/

/-- The payloads that still lie in a partition's inboxes: address and length in whole 64-byte blocks. -/
def State.inboxUsed (s : State) (part : Nat) : List (Nat × Nat) :=
  (s.pkts.filter (fun e => decide (e.2.part = some part ∧ e.2.va ≠ 0))).map (fun e => (e.2.va, 64 * ceilDiv e.2.payload.length 64))

/-- An address in the inbox region of a job entry for `n` bytes; the spec leaves the choice open, and a free value makes it. -/
def State.inboxSpot (s : State) (part entry n : Nat) : Option Nat :=
  match s.parts.look part with
  | none => none
  | some q =>
    match q.season with
    | none => none
    | some se =>
      match se.region 5 entry with
      | none => none
      | some r =>
        let len := 64 * ceilDiv n 64
        let used := s.inboxUsed part
        let fits (a : Nat) : Bool := decide (r.dva ≤ a ∧ a + len ≤ r.dva + r.bytes) && used.all (fun u => decide (a + len ≤ u.1 ∨ u.1 + u.2 ≤ a))
        ((r.dva + 64 * (s.free % max 1 (r.bytes / 64))) :: r.dva :: used.map (fun u => u.1 + u.2)).find? fits

/-- The notice of a placed packet on channel 60 of the job entry's inbox tile (R358). -/
def inboxNotice (part entry seqEntry op va bytes : Nat) (s : State) : State :=
  match s.parts.look part with
  | none => s
  | some q =>
    match q.season with
    | none => s
    | some se =>
      match se.ext.inboxTiles.find? (fun e => decide (e.1 = entry)) with
      | none => s
      | some e =>
        match s.physOfName e.2 with
        | none => s
        | some p => chanDeliver p 60 1536 (le 8 va ++ le 2 seqEntry ++ le 1 op ++ zeros 1 ++ le 4 bytes) [] s

/-! ## A service's memory refuses an access (11, Transfer faults; 10, NACK handling) -/

/-- A translation fault of an access for a packet of a service: recoverable kinds hold the partition and leave the packet waiting, a
permission fault ends it with its job. -/
def serveFault (part entry pid kind dva : Nat) (write : Bool) (s : State) : State :=
  match s.jobOf part entry with
  | some j =>
    let s1 := accessFault part 0 kind dva write 0xFFFF j s
    if kind = 4 then fail pid stJobLost 3 s1 else s1
  | none => if kind = 4 then fail pid stJobLost 3 s else s

/-- A NACK to an access for a packet: a broken Season, or with TARGET_RESET the reset ends the work. -/
def serveNack (part entry pid code : Nat) (s : State) : State :=
  if code = 2 then fail pid stPartReset 0 s
  else
    let s1 := match s.jobOf part entry with | some j => brokenSeason j s | none => s
    fail pid stJobLost 2 s1

/-! ## Placement (R76, R146-R148, R950) -/

/-- Free the fetch slots whose SQ slots are all placed (log 11). -/
def freePlaced (k : Nat) (s : State) : State :=
  match s.qps.look k with
  | none => s
  | some q =>
    { s with fslots := s.fslots.keep (fun _ x =>
        !decide (x.qp = k) || !x.back || (List.range x.count).any (fun i => (q.slots.look ((x.first + i) % q.sqSize)).isSome)) }

/-- The SQ slots of a packet leave the QFE's buffer. -/
def QueuePair.takeSlots (q : QueuePair) (n : Nat) : QueuePair :=
  let gone := (List.range n).map (fun i => (q.placePos + i) % q.sqSize)
  { q with slots := q.slots.keep (fun i _ => !gone.contains i), placePos := (q.placePos + n) % q.sqSize }

/-- Remove the operation of a packet from its sequence's queue; an entry left without operations is Open. -/
def unqueue (pid : Nat) (s : State) : State :=
  { s with seqs := s.seqs.updAll (fun _ x =>
      if x.ops.any (fun o => o.pkt == pid) then
        let l := x.ops.filter (fun o => o.pkt != pid)
        { x with ops := l, state := if l = [] ∧ x.state = 2 then 1 else x.state }
      else x) }

/-- A packet is malformed (R146-R148): the record, the Error state, and placement stops at it. -/
def badPacket (k detail : Nat) (h : Bytes) (s : State) : State :=
  match s.qps.look k with
  | none => s
  | some q =>
    let s1 := queueError k (errReasonOf detail) (s.setQp k { q with sqHead := q.placePos, stopAt := some q.placePos, chain := none })
    let pid := s1.nextPkt
    let p : Packet := { qp := k, gen := (s.fn (k / 16)).gen, epoch := q.epoch, hdr := h, order := pid, placed := s.clk.tick, taken := true }
    match q.chain with
    | some c => if c.ended then s1 else fail c.first stMalformed 8 (unqueue c.first s1)
    | none =>
      let d := if bit (fld h 1 1) 2 ∧ detail ≠ 1 then 8 else detail
      fail pid stMalformed d { s1 with pkts := s1.pkts.put pid p, nextPkt := pid + 1 }

/-- Nothing stands before the next packet of the SQ: no FENCE or WAIT holds it, nothing stopped placement (R118, R119, R147). -/
def State.mayPlace (s : State) (k : Nat) (q : QueuePair) : Bool :=
  decide (q.state = 1 ∨ q.state = 2) && q.hold.isNone && q.stopAt.isNone && s.qfeRuns && (s.fn (k / 16)).state != 3
    && !s.pkts.any (fun e => decide (e.2.qp = k) && !e.2.taken && decide (e.2.opcode = opFence ∨ e.2.opcode = opWait))

/-- The packet joins the chain in progress, or begins one, or stands alone (R104, R950): the queue pair, the packet, and whether it is
taken without effect. -/
def joinChain (q : QueuePair) (pid : Nat) (p : Packet) : QueuePair × Packet × Bool :=
  match q.chain with
  | some c =>
    let c1 : Chain := { c with count := c.count + 1 }
    ({ q with chain := if p.more then some c1 else none }, { p with chainOf := some c.first }, c.ended)
  | none =>
    if p.more then ({ q with chain := some { first := pid, count := 1 } }, { p with chainPkts := [pid], timer := some p.placed, limitMs := q.timeoutMs }, false)
    else (q, { p with timer := if p.opcode = opFence then none else some p.placed, limitMs := q.timeoutMs }, false)

/-- Place the next packet of an SQ (R76, R92, R94, R99, R101, R129): its checks in their order, its payload in the inbox when tokens and a tag are
there (R197, R300), its timer. A packet with a reserved opcode is another command's. -/
def execPacketPlacement (f qp : Nat) (s : State) : Host.Outcome State Fault Refusal :=
  let k := qpKey f qp
  match s.qps.look k with
  | none => .next s
  | some q =>
    match q.slots.look q.placePos with
    | none => .next s
    | some h =>
      if !s.mayPlace k q ∨ reservedOp (fld h 0 1) then .next s
      else
        match verdict s k q h with
        | .malformed d => .next (badPacket k d h s)
        | v =>
          let n := fld h 2 2
          if !q.whole q.placePos n then .next s
          else
            let bytes := fld h 0x14 4
            let body := ((List.range (n - 1)).flatMap (fun i => (q.slots.look ((q.placePos + 1 + i) % q.sqSize)).getD [])).take bytes
            match (if v = .unknown then none else contentBad s k q h body) with
            | some d => .next (badPacket k d h s)
            | none =>
            let pid := s.nextPkt
            let svc := s.visible f (fld h 4 4)
            let op := fld h 0 1
            let p0 : Packet :=
              { qp := k, gen := (s.fn f).gen, epoch := q.epoch, hdr := h, payload := body, order := pid, placed := s.clk.tick,
                part := svc.map (·.1) }
            let (q1, p, silent) := joinChain (q.takeSlots n) pid p0
            if silent then .next (freePlaced k (s.setQp k q1))
            else
              let link (s : State) : State :=
                match p.chainOf with
                | some c => s.modPkt c (fun x => { x with chainPkts := x.chainPkts ++ [pid] })
                | none => s
              let enter (p : Packet) (s : State) : State :=
                let isOp := decide (op = opFeed ∨ op = opStep ∨ op = opClose) && p.chainOf.isNone
                let s1 := s.setQp k { q1 with acct := { q1.acct with placed := q1.acct.placed + b2n isOp } }
                freePlaced k (link { s1 with pkts := s1.pkts.put pid p, nextPkt := pid + 1 })
              match v with
              | .unknown => .next (fail pid stUnknown 0 (enter { p with taken := true } s))
              | .denied d => .next (fail pid stDenied d (enter { p with taken := true } s))
              | _ =>
              if s.pwr.state = 3 ∧ op ≠ opClose ∧ p.chainOf.isNone then .next (fail pid stDraining 1 (enter { p with taken := true } s))
              else match v with
              | _ =>
                let mark (s : State) : State :=
                  let s1 := if op = opClose then s.modSeq (fld h 0x10 4 % 16384) (fun x => { x with closing := true }) else s
                  if op = opDrop then
                    match s.skelOf f (fld h 4 4) (fld h 0x10 4) with
                    | some (hf, i) => s1.modSolver hf (fun v => { v with skels := v.skels.upd i (fun y => { y with dropping := some pid }) })
                    | none => s1
                  else s1
                match svc with
                | none => .next (mark (enter p s))
                | some (part, entry, _) =>
                  if !s.tagRoom f q.qfe ∨ (s.parts.val part {}).resetting then .next s
                  else
                    match takeTokens part 0 (64 * n) s with
                    | none => .next s
                    | some s0 =>
                      if body = [] ∨ !(decide (op = opOpen ∨ op = opFeed ∨ op = opStep)) then .next (mark (enter p s0))
                      else
                        match s.inboxSpot part entry bytes, s.parts.look part with
                        | some a, some y =>
                          match s0.writeVa y a body false with
                          | .ok s1 => .next (mark (enter { p with va := a } (s1.took 1)))
                          | .fault kind => .next (match s.jobOf part entry with | some j => accessFault part 0 kind a true 0xFFFF j s | none => s)
                          | .nack c => .next (serveNack part entry pid c (enter { p with taken := true } s0))
                        | _, _ => .next s

/-- A packet with a reserved opcode (R8, R146): MALFORMED, DETAIL 0x01. -/
def execReservedOpcodePacket (f qp : Nat) (s : State) : Host.Outcome State Fault Refusal :=
  let k := qpKey f qp
  match s.qps.look k with
  | none => .next s
  | some q =>
    match q.slots.look q.placePos with
    | none => .next s
    | some h => .next (if s.mayPlace k q ∧ reservedOp (fld h 0 1) then badPacket k 1 h s else s)

/-! ## Taking a placed packet -/

/-- Take a packet of an opcode: placed, not yet taken, and no earlier packet of its function waits to be taken (R153). Old work is
discarded (R203, R779). -/
def takePkt (pid op : Nat) (s : State) (run : Packet → QueuePair → State → State) : State :=
  match s.pkts.look pid with
  | none => s
  | some p =>
    match s.qps.look p.qp with
    | none => dropPkts [pid] s
    | some q =>
      if p.taken ∨ p.final ∨ p.opcode ≠ op then s
      else if !s.live p then dropPkts [pid] s
      else if s.pkts.any (fun e => decide (e.1 < pid ∧ e.2.fnKey = p.fnKey) && !e.2.taken && !e.2.final && s.live e.2) then s
      else run p q (s.modPkt pid (fun x => { x with taken := true }))

/-- NOP: OK, with no other effect. -/
def execPktNop (pid : Nat) (s : State) : Host.Outcome State Fault Refusal := .next (takePkt pid opNop s (fun _ _ s => finish pid stOk 0 0 [] false s))

/-- FENCE: no later packet of the SQ is placed (R118). -/
def execFence (pid : Nat) (s : State) : Host.Outcome State Fault Refusal :=
  .next (takePkt pid opFence s (fun p _ s => s.modQp p.qp (fun q => { q with hold := some pid })))

/-- Every earlier packet of the SQ is final: the FENCE completes and placement goes on (R118). -/
def execFenceRelease (f qp : Nat) (s : State) : Host.Outcome State Fault Refusal :=
  let k := qpKey f qp
  match s.qps.look k with
  | none => .next s
  | some q =>
    match q.hold with
    | none => .next s
    | some pid =>
      match s.pkts.look pid with
      | none => .next s
      | some p =>
        if p.opcode ≠ opFence ∨ s.pkts.any (fun e => decide (e.1 < pid ∧ e.2.qp = k) && !e.2.final) then .next s
        else .next (finish pid stOk 0 0 [] false (s.setQp k { q with hold := none }))

/-- The value of a WAIT's semaphore, and whether it has reached the THRESHOLD (R119). -/
def State.waitMet (s : State) (p : Packet) : Option (BitVec 64) :=
  let t := (s.fn p.fnKey).targets.val (fld p.hdr 0x20 2) {}
  let v := s.alm.sems.val (2048 * t.half + t.sem) 0
  if fld p.hdr 0x28 8 ≤ v.toNat then some v else none

/-- A WAIT that holds its SQ completes when its semaphore has reached the THRESHOLD (R119, R141). -/
def settleWait (pid : Nat) (s : State) : State :=
  match s.pkts.look pid with
  | none => s
  | some p =>
    match s.qps.look p.qp, s.waitMet p with
    | some q, some v =>
      if q.hold = some pid ∧ p.opcode = opWait ∧ s.live p then finish pid stOk 0 0 (le 8 v.toNat) false (s.setQp p.qp { q with hold := none }) else s
    | _, _ => s

/-- Every WAIT that its semaphore releases. -/
def settleWaits (s : State) : State := forEach (s.qps.filterMap (fun e => e.2.hold)) s (fun s pid => settleWait pid s)

/-- WAIT: taken, it holds later packets (R119); the command again tests the semaphore. -/
def execWait (pid : Nat) (s : State) : Host.Outcome State Fault Refusal :=
  .next (settleWait pid (takePkt pid opWait s (fun p _ s => s.modQp p.qp (fun q => { q with hold := some pid }))))

/-- SIGNAL: issues a signal to the target of its ARGS; where it cannot, a record tells so under every CPL_MODE (R125). -/
def execSignal (pid : Nat) (s : State) : Host.Outcome State Fault Refusal :=
  .next (takePkt pid opSignal s (fun p _ s =>
    let t := fld p.hdr 0x20 2
    let mark (g : Record → Record) (s : State) : State := { s with outbox := s.outbox.map (fun r => if r.pkt = pid ∧ r.fin then g r else r) }
    if s.canSignal p.fnKey t then
      mark (fun r => { r with sigSent := true }) (finish pid stOk 0 0 [] false (issueSignal p.fnKey t (fld p.hdr 0x22 2) p.gtag p.part s))
    else
      let s1 := s.modPkt pid (fun x => { x with hdr := if x.cplMode = 2 then patch x.hdr 1 (le 1 (x.flags - 1)) else x.hdr })
      mark (fun r => { r with sigLost := true }) (finish pid stOk 0 0 [] false s1)))

/-! ## QUERY -/

/-- The record of QUERY kind 0x00 (04). -/
def Acct.bytes (a : Acct) : Bytes :=
  le 8 a.placed ++ le 8 a.admitted ++ le 8 a.deferrals ++ le 8 a.deferredRecs ++ le 8 a.waitSum ++ le 4 a.waitMax ++ le 4 a.preempts
    ++ le 4 a.full ++ le 4 a.quota ++ le 4 a.cls ++ le 4 a.draining ++ le 4 a.timeouts ++ le 4 a.discarded ++ le 4 a.displaced ++ zeros 4

/-- A QUERY of a kind. -/
def takeQuery (pid kind : Nat) (s : State) (answer : Packet → QueuePair → State → Nat × Bytes) : State :=
  match s.pkts.look pid with
  | none => s
  | some p =>
    if fld p.hdr 0x20 1 ≠ kind then s
    else takePkt pid opQuery s (fun p q s => let a := answer p q s; finish pid stOk 0 a.1 a.2 false s)

def execQueryQueueAccounting (pid : Nat) (s : State) : Host.Outcome State Fault Refusal :=
  .next (takeQuery pid 0 s (fun _ q _ => (0, q.acct.bytes)))

/-- The record of QUERY kind 0x01 (04). -/
def SeqEntry.bytes (x : SeqEntry) : Bytes :=
  let o := x.ops.head?
  le 1 x.state ++ le 1 x.ops.length ++ le 2 (match o with | some o => o.consec | none => 0) ++ le 4 x.positions ++ le 4 x.maxTok ++ le 4 x.tokens
    ++ le 4 x.pages.length ++ le 2 x.endStatus ++ le 1 x.endDetail ++ le 1 (match o with | some o => o.reason | none => 0) ++ le 8 x.steps

def execQuerySequence (pid : Nat) (s : State) : Host.Outcome State Fault Refusal :=
  .next (takeQuery pid 1 s (fun p _ s => (p.object, (s.seq (p.object % 16384)).bytes)))

/-! ## A function's use of its quotas (05, Table: VF quotas; R217) -/

/-- The queue pairs of a function that are in use. -/
def State.qpsOf (s : State) (f : Nat) : List (Nat × QueuePair) := s.qps.filter (fun e => decide (e.1 / 16 = f) && !e.2.vacant)

/-- Highest vector bound + 1. -/
def State.vecUse (s : State) (f : Nat) : Nat := (s.qpsOf f).foldl (fun n e => max n (e.2.vector + 1)) 0

/-- The entries of a function's current generation. -/
def State.seqsOf (s : State) (f : Nat) : List (Nat × SeqEntry) :=
  s.seqs.filter (fun e => decide (e.2.state ≠ 0 ∧ e.2.fn = f ∧ e.2.gen = (s.fn f).gen))

def State.seqUse (s : State) (f : Nat) : Nat := (s.seqsOf f).length

/-- Most positions held in one current step of one service. -/
def State.posUse (s : State) (f : Nat) : Nat :=
  s.jobs.foldl (fun n e => max n ((e.2.occupied.filter (fun i => decide ((s.seq i).fn = f ∧ (s.seq i).gen = (s.fn f).gen))).length)) 0

def State.memUse (s : State) (f : Nat) : Nat := (s.seqsOf f).foldl (fun n e => n + e.2.pages.length) 0

def State.tagUse (s : State) (f : Nat) : Nat := (s.mem.xfers.filter (fun e => e.2.tile.isNone && decide (e.2.fn = f ∧ e.2.gen = (s.fn f).gen))).length

def State.skelUse (s : State) (f : Nat) : Nat :=
  [0, 1].foldl (fun n h => n + ((s.solver h).skels.filter (fun e => e.2.used && decide (e.2.fn = f ∧ e.2.gen = (s.fn f).gen))).length) 0

/-- The pages of all partitions' KV pools. -/
def State.kvPool (s : State) : Nat :=
  s.parts.foldl (fun n e => n + (match e.2.season with | some x => (match x.region 2 0 with | some r => r.bytes / 65536 | none => 0) | none => 0)) 0

/-- The quotas that a function's record shows; the PF's shows the pools. -/
def State.quotasOf (s : State) (f : Nat) : Quotas :=
  if f = 512 then { qp := 4080, vec := 8128, seq := 16384, pos := 4096, mem := s.kvPool, tag := 32768, fetch := 128, skel := 8192 } else (s.fn f).quotas

/-- The record of QUERY kind 0x02 and of LQI_VF_STATE's slice record (05). -/
def State.quotaRecord (s : State) (f : Nat) : Bytes :=
  let q := s.quotasOf f
  let x := s.fn f
  le 2 q.qp ++ le 2 (s.qpsOf f).length ++ le 2 q.vec ++ le 2 (s.vecUse f) ++ le 2 q.seq ++ le 2 (s.seqUse f) ++ le 2 q.pos ++ le 2 (s.posUse f)
    ++ le 4 q.mem ++ le 4 (s.memUse f) ++ le 2 q.tag ++ le 2 (s.tagUse f) ++ le 1 q.fetch ++ zeros 1 ++ le 2 q.skel ++ le 2 (s.skelUse f)
    ++ le 2 x.gen.toNat ++ le 4 x.reclaimed ++ le 4 x.resets ++ zeros 20

def execQueryQuotaUse (pid : Nat) (s : State) : Host.Outcome State Fault Refusal :=
  .next (takeQuery pid 2 s (fun p _ s => (0, s.quotaRecord p.fnKey)))

/-! ## Parameter slots (R472, R473, R476) -/

/-- PARAM_WRITE: the slots of the service's window, in ascending order, each one access (R472, R473). -/
def execParamWrite (pid : Nat) (s : State) : Host.Outcome State Fault Refusal :=
  .next (takePkt pid opParamWrite s (fun p _ s1 =>
    match s.visible p.fnKey p.sid with
    | none => fail pid stUnknown 0 s1
    | some (part, entry, v) =>
      let first := v.paramBase + fld p.hdr 0x20 4
      let n := fld p.hdr 0x24 2
      let r := (List.range n).foldl (fun (r : State × Option (Nat × Bool × Nat)) i =>
        match r.2 with
        | some _ => r
        | none =>
          match r.1.parts.look part with
          | none => r
          | some y =>
            let a := y.slotVa (first + i)
            match r.1.writeVa y a (fit 64 (p.payload.drop (64 * i))) false with
            | .ok s2 => (slotWritten part (first + i) s2, none)
            | .fault k => (r.1, some (k, true, a))
            | .nack c => (r.1, some (c, false, a))) (s1, none)
      match r.2 with
      | none => finish pid stOk 0 0 [] false r.1
      | some (k, true, a) => serveFault part entry pid k a true (if k = 4 then r.1 else s)
      | some (c, false, _) => serveNack part entry pid c r.1))

/-- PARAM_READ: the slots in one record (R953); a poisoned slot ends it POISONED (R476). -/
def execParamRead (pid : Nat) (s : State) : Host.Outcome State Fault Refusal :=
  .next (takePkt pid opParamRead s (fun p _ s1 =>
    match s.visible p.fnKey p.sid with
    | none => fail pid stUnknown 0 s1
    | some (part, entry, v) =>
      match s.parts.look part with
      | none => s
      | some y =>
        let a := y.slotVa (v.paramBase + fld p.hdr 0x20 4)
        match s.readVa y a (64 * fld p.hdr 0x24 2) with
        | .ok (b, bad) =>
          let s2 := wakeFor y a (64 * fld p.hdr 0x24 2) s1
          if bad then finish pid stPoisoned 1 0 [] false s2 else finish pid stOk 0 0 b false s2
        | .fault k => serveFault part entry pid k a false (if k = 4 then s1 else s)
        | .nack c => serveNack part entry pid c s1))

end Sys2Proof.Machine
end

