-- ==== Sys2Proof/Machine/Seq.lean ====
section
/-! DEFINITION. Sequences: opening, feeding, stepping and closing them, and what a placed operation is refused for
(04_sequences_and_steps.md, R151-R155, R954, R959, R176; 03, R143). -/

namespace Sys2Proof.Machine

open Sys2Proof

/-! ## The queue of a sequence (R153, R155, R176, R959) -/

/-- The operations of an entry that need no admission end as they come to the head: SEQ_CLOSE (R143), a feed of no items (R959), a step of
a sequence that holds MAX_TOKENS positions (R176). The entry is then Open, or Pending with its head. -/
def advanceSeq (e : Nat) : Nat → State → State
  | 0, s => s
  | n + 1, s =>
    let x := s.seq e
    if x.state = 3 ∨ x.state = 0 ∨ x.stepPkt ≠ 0 ∨ x.nextOpPkt ≠ 0 then s
    else
      match x.ops.find? (fun o => o.kind == opClose) with
      | some o => closeNow e o.pkt s
      | none =>
        match x.ops with
        | [] => if x.state = 4 then s else s.modSeq e (fun x => { x with state := 1 })
        | o :: rest =>
          let pop (s : State) : State := s.modSeq e (fun x => { x with ops := rest })
          if x.state = 4 then advanceSeq e n (fail o.pkt x.endStatus x.endDetail (pop s))
          else if o.kind = opFeed ∧ o.left = 0 ∧ o.closed then
            advanceSeq e n (finish o.pkt stOk 0 (seqHandleOf e x.reuse) (le 4 x.positions) false (pop s))
          else if o.kind = opStep ∧ !x.transient ∧ x.maxTok ≤ x.positions then
            advanceSeq e n (finish o.pkt stOk 2 (seqHandleOf e x.reuse) [] false (pop s))
          else s.modSeq e (fun x => { x with state := 2 })

/-- Settle an entry's queue. -/
def settleSeq (e : Nat) (s : State) : State := advanceSeq e 10 s

/-- An operation placed for an Idle job's service holds its admission close in the next grid cycle (R290). -/
def wakeIdleJob (part entry : Nat) (s : State) : State :=
  match s.jobOf part entry with
  | some j => s.modJob j (fun b => if b.state = 1 ∧ b.readyIn.isNone ∧ b.readyAt.isNone then { b with closeDue := true } else b)
  | none => s

/-! ## Refusals on placement (R954) -/

/-- The partition refuses new operations: draining (R179), or the device in Autumn (R646). -/
def State.refusing (s : State) (part : Nat) : Bool :=
  s.pwr.state == 3 || (match s.parts.look part with | some q => q.draining | none => false)

/-- The class of the queue pair has no positions (items 4 of R954). -/
def classRefused (v : Svc) (lc : Bool) : Option (Nat × Nat) :=
  if lc && v.lcLimit == 0 then some (stClass, 1) else if !lc && v.beLimit == 0 then some (stClass, 2) else none

/-- The VF holds more positions than its share, or has none (item 7). -/
def State.shareRefused (s : State) (f : Nat) : Option (Nat × Nat) :=
  let share := (s.fn f).quotas.pos
  if f ≠ 512 ∧ (share = 0 ∨ share < s.posUse f) then some (stQuota, 2) else none

/-- Items that a sequence has still to absorb: of its queued feeds and of the steps it holds. -/
def SeqEntry.queued (x : SeqEntry) : Nat :=
  let inFlight (p n : Nat) : Nat := if x.ops.any (fun o => o.pkt == p && o.kind == opFeed) then n else 0
  (x.ops.filter (fun o => o.kind == opFeed)).foldl (fun n o => n + o.left) 0 + inFlight x.stepPkt x.stepItems + inFlight x.nextOpPkt x.nextItems

/-- What an operation on an existing entry is refused for, the first that applies (R954). -/
def State.opRefused (s : State) (x : SeqEntry) (v : Svc) (part : Nat) (lc : Bool) (items : Nat) (kind : Nat) : Option (Nat × Nat) :=
  if x.state = 4 then some (x.endStatus, x.endDetail)
  else if s.refusing part then some (stDraining, 1)
  else if 8 ≤ x.ops.length then some (stFull, 2)
  else
    match classRefused v lc with
    | some r => some r
    | none =>
      match s.shareRefused x.fn with
      | some r => some r
      | none => if kind = opFeed ∧ x.maxTok < x.positions + x.queued + items then some (stFull, 4) else none

/-- The lowest Free entry of a partition's slice (R936). -/
def State.freeEntryOf (s : State) (part : Nat) : Option Nat :=
  match s.parts.look part with
  | some q => (firstFree q.seqLen (fun i => decide ((s.seq (q.seqBase + i)).state = 0))).map (fun i => q.seqBase + i)
  | none => none

/-- What an operation that needs a new entry is refused for: items 2 and 4-7 of R954. `step` is a single-pass SEQ_STEP. -/
def State.newRefused (s : State) (f : Nat) (v : Svc) (part : Nat) (lc step : Bool) : Option (Nat × Nat) :=
  if s.refusing part then some (stDraining, 1)
  else
    match if step then classRefused v lc else none with
    | some r => some r
    | none =>
      if f ≠ 512 ∧ (s.fn f).quotas.seq ≤ s.seqUse f then some (stQuota, 1)
      else if (s.freeEntryOf part).isNone then some (stFull, 1)
      else if step then s.shareRefused f else none

/-- The REUSE of an entry's next allocation (R151, R185). -/
def nextReuse (r : Nat) : Nat := if r = 0x3FFFF then 1 else r + 1

/-- Allocate an entry (R151). -/
def allocEntry (e : Nat) (p : Packet) (q : QueuePair) (part maxTok : Nat) (transient : Bool) (s : State) : State :=
  s.modSeq e (fun x =>
    { reuse := nextReuse x.reuse, state := 1, fn := p.fnKey, gen := p.gen, sid := p.sid, part := part, lc := q.lc, openAt := s.clk.tick,
      maxTok := maxTok, transient := transient })

/-! ## The packets -/

/-- SEQ_OPEN: allocates the lowest Free entry and returns its handle (R151, R936, R954). -/
def execSeqOpen (pid : Nat) (s : State) : Host.Outcome State Fault Refusal :=
  .next (takePkt pid opOpen s (fun p q s =>
    match s.visible p.fnKey p.sid with
    | none => fail pid stUnknown 0 s
    | some (part, entry, v) =>
      match s.newRefused p.fnKey v part q.lc false, s.freeEntryOf part with
      | none, some e =>
        let m := if fld p.hdr 0x20 4 = 0 then v.maxTok else fld p.hdr 0x20 4
        let s1 := allocEntry e p q part m false s
        let s2 := inboxNotice part entry e opOpen p.va p.bytes s1
        finish pid stOk 0 (seqHandleOf e (s1.seq e).reuse) [] false s2
      | some r, _ => fail pid r.1 r.2 s
      | none, none => fail pid stFull 1 s))

/-- Queue an operation on an entry. -/
def queueOp (e : Nat) (o : SeqOp) (s : State) : State :=
  s.modSeq e (fun x => { x with ops := x.ops ++ [o], state := if x.state = 1 then 2 else x.state })

/-- SEQ_FEED: a packet, or the next of a chain, adds its items to the operation (R153, R155, R954, R958, R959). -/
def execSeqFeed (pid : Nat) (s : State) : Host.Outcome State Fault Refusal :=
  .next (takePkt pid opFeed s (fun p q s =>
    let e := p.object % 16384
    let x := s.seq e
    let first := p.chainOf.getD pid
    match s.visible p.fnKey p.sid with
    | none => fail first stUnknown 0 (unqueue first s)
    | some (part, entry, v) =>
      let items := fld p.hdr 0x24 4
      let chained := p.chainOf.isSome
      let refused := if chained then (if x.maxTok < x.positions + x.queued + items then some (stFull, 4) else none)
        else s.opRefused x v part q.lc items opFeed
      if chained ∧ !x.ops.any (fun o => o.pkt == first) then s
      else
        match refused with
        | some r => settleSeq e (fail first r.1 r.2 (unqueue first s))
        | none =>
          let s1 := inboxNotice part entry e opFeed p.va p.bytes s
          let s2 :=
            if chained then s1.modSeq e (fun x => { x with ops := x.ops.map (fun o => if o.pkt = first then { o with left := o.left + items, closed := !p.more } else o) })
            else queueOp e { pkt := pid, kind := opFeed, left := items, placedAt := p.placed, closed := !p.more } s1
          wakeIdleJob part entry (settleSeq e s2)))

/-- SEQ_STEP: COUNT steps of a sequence, or one single pass on a transient entry (R151, R153, R155, R176, R936, R954). -/
def execSeqStep (pid : Nat) (s : State) : Host.Outcome State Fault Refusal :=
  .next (takePkt pid opStep s (fun p q s =>
    match s.visible p.fnKey p.sid with
    | none => fail pid stUnknown 0 s
    | some (part, entry, v) =>
      if v.kind = 2 then
        match s.newRefused p.fnKey v part q.lc true, s.freeEntryOf part with
        | none, some e =>
          let s1 := allocEntry e p q part 0 true s
          let s2 := s1.modPkt pid (fun y => { y with entry := some (e, (s1.seq e).reuse) })
          let s3 := inboxNotice part entry e opStep p.va p.bytes s2
          wakeIdleJob part entry (settleSeq e (queueOp e { pkt := pid, kind := opStep, left := 1, placedAt := p.placed, closed := true } s3))
        | some r, _ => fail pid r.1 r.2 s
        | none, none => fail pid stFull 1 s
      else
        let e := p.object % 16384
        match s.opRefused (s.seq e) v part q.lc 0 opStep with
        | some r => fail pid r.1 r.2 s
        | none =>
          let s1 := inboxNotice part entry e opStep p.va p.bytes s
          wakeIdleJob part entry
            (settleSeq e (queueOp e { pkt := pid, kind := opStep, left := fld p.hdr 0x20 2, placedAt := p.placed, closed := true } s1))))

/-- SEQ_CLOSE: ends the operations ahead of it, after the step in flight, and frees the entry with its pages (R143, R153, R169, R177, R179);
of the refusals only the ninth operation applies. -/
def execSeqClose (pid : Nat) (s : State) : Host.Outcome State Fault Refusal :=
  .next (takePkt pid opClose s (fun p _ s =>
    let e := p.object % 16384
    let x := s.seq e
    if x.state = 0 then fail pid stDenied 3 s
    else if 8 ≤ x.ops.length then fail pid stFull 2 (s.modSeq e (fun x => { x with closing := false }))
    else
      let s1 := s.modSeq e (fun x => { x with ops := x.ops ++ [{ pkt := pid, kind := opClose, placedAt := p.placed, closed := true }], closing := true })
      settleSeq e s1))

end Sys2Proof.Machine
end

