-- ==== Sys2Proof/Machine/Admit.lean ====
section
/-! DEFINITION. Admission closes and work lists (04_sequences_and_steps.md, R157-R175, R177-R183). -/

namespace Sys2Proof.Machine

open Sys2Proof

/-! ## Lists in order -/

/-- Lexicographic order of keys. -/
def keyLt : List Nat → List Nat → Bool
  | [], [] => false
  | [], _ :: _ => true
  | _ :: _, [] => false
  | a :: l, b :: m => decide (a < b) || (a == b && keyLt l m)

/-- Insert into a sorted list. -/
def insertKey {α : Type} (key : α → List Nat) (x : α) : List α → List α
  | [] => [x]
  | y :: t => if keyLt (key x) (key y) then x :: y :: t else y :: insertKey key x t

/-- Sort by key, equal keys in their order. -/
def sortKey {α : Type} (key : α → List Nat) (l : List α) : List α := l.foldl (fun t x => insertKey key x t) []

/-! ## Candidates (R157, R203, R779) -/

/-- Class of an operation: that of its packet's queue pair. -/
def State.opLc (s : State) (o : SeqOp) : Bool :=
  match s.pkts.look o.pkt with
  | some p => (match s.qps.look p.qp with | some q => q.lc | none => false)
  | none => false

/-- The operation's packet is still wanted: not final, of the current generation and epoch. -/
def State.opLive (s : State) (o : SeqOp) : Bool :=
  match s.pkts.look o.pkt with
  | some p => !p.final && s.live p
  | none => false

/-- Drop the operations at the head that nobody wants any more, without a record; what a step holds stays to its end (R203, R779). -/
def cleanSeq (e : Nat) (s : State) : State :=
  let x := s.seq e
  let keep (o : SeqOp) : Bool := s.opLive o || decide (o.pkt = x.stepPkt ∨ o.pkt = x.nextOpPkt)
  let gone := (x.ops.filter (fun o => !keep o)).map (·.pkt)
  if gone = [] then s
  else
    let s1 := s.modSeq e (fun x => { x with ops := x.ops.filter keep })
    settleSeq e (dropPkts (gone.filter (fun i => match s.pkts.look i with | some p => !p.final | none => false)) s1)

/-- One candidate of an admission close. -/
structure Cand where
  e : Nat
  op : SeqOp
  cont : Bool
  lc : Bool
deriving DecidableEq, Repr

/-- Positions that a sequence will hold when the coming step begins. -/
def SeqEntry.ahead (x : SeqEntry) : Nat := x.positions + x.stepItems

/-- The candidate of an entry, if it is one (R157): Pending, or continuing. -/
def State.candOf (s : State) (e : Nat) (x : SeqEntry) : Option Cand :=
  match x.ops.head? with
  | none => none
  | some o =>
    let c : Cand := { e := e, op := o, cont := decide (x.state = 3), lc := s.opLc o }
    if x.closing ∨ x.victim ∨ x.gen ≠ (s.fn x.fn).gen ∨ o.kind = opClose ∨ !o.closed ∨ !s.opLive o ∨ x.nextOpPkt ≠ 0 then none
    else if x.state = 2 then some c
    else if x.state = 3 ∧ x.stepPkt = o.pkt ∧ 0 < o.left ∧ (o.kind = opFeed ∨ x.transient ∨ x.ahead < x.maxTok) then some c
    else none

/-- The ranking key (R157, R181). -/
def Cand.key (c : Cand) : List Nat :=
  [2 * b2n (!c.lc) + b2n (!c.cont), 65535 - c.op.consec, if c.cont then c.op.admAt.getD 0 else c.op.placedAt, c.e]

/-- The entries of a service. -/
def State.entriesOf (s : State) (part sid : Nat) : List Nat :=
  (s.seqs.filter (fun e => decide (e.2.state ≠ 0 ∧ e.2.part = part ∧ e.2.sid = sid))).map (·.1)

/-! ## One close (R158, R159, R163-R165, R168, R175) -/

/-- What an admission close counts. -/
structure Tally where
  s : State
  lc : Nat := 0
  be : Nat := 0
  perFn : Tab Nat := []
  won : List Nat := []
deriving DecidableEq, Repr

/-- Change the head operation of an entry. -/
def modHead (e pkt : Nat) (f : SeqOp → SeqOp) (s : State) : State :=
  s.modSeq e (fun x => { x with ops := x.ops.map (fun o => if o.pkt = pkt then f o else o) })

/-- Change the accounting of the queue pair of an operation. -/
def modAcct (pkt : Nat) (f : Acct → Acct) (s : State) : State :=
  match s.pkts.look pkt with
  | some p => s.modQp p.qp (fun q => { q with acct := f q.acct })
  | none => s

/-- The operation ends at the close with a final record (R158, R165); the sequence keeps what it holds. -/
def refuseAt (c : Cand) (status detail : Nat) (s : State) : State :=
  settleSeq c.e (fail c.op.pkt status detail (s.modSeq c.e (fun x => { x with ops := x.ops.filter (fun o => o.pkt != c.op.pkt) })))

/-- A deferral (R163, R165): counted; reported when the reason is not the last one reported; at the queue pair's defer limit the operation
ends REFUSED_FULL, DETAIL 0x03. -/
def deferAt (c : Cand) (reason : Nat) (s : State) : State :=
  let n := sat 16 (c.op.consec + 1)
  let tell := decide (c.op.reason ≠ reason)
  let limit := match s.pkts.look c.op.pkt with | some p => (match s.qps.look p.qp with | some q => q.deferLimit | none => 0) | none => 0
  let full := decide (limit ≠ 0 ∧ limit ≤ n)
  let s1 := modAcct c.op.pkt (fun a => { a with
    deferrals := a.deferrals + 1
    deferredRecs := a.deferredRecs + b2n (tell && !full)
    displaced := a.displaced + b2n (reason == 2) }) s
  if full then refuseAt c stFull 3 s1
  else
    let s2 := modHead c.e c.op.pkt (fun o => { o with consec := n, reason := reason }) s1
    let s3 := s2.modSeq c.e (fun x => { x with ranPrev := false, reason := reason })
    if tell then report c.op.pkt stDeferred reason [] s3 else s3

/-- Items of the coming step: one of a SEQ_STEP, up to CHUNK of a feed. -/
def Cand.items (c : Cand) (v : Svc) : Nat := if c.op.kind = opFeed then min v.chunk c.op.left else 1

/-- An admission (R158, R164, R168, R175). -/
def admitOne (c : Cand) (items : Nat) (pages rest : List Nat) (part : Nat) (s : State) : State :=
  let wait := s.clk.tick - c.op.placedAt
  let s1 := s.modPart part (fun q => { q with kvFree := rest })
  let s2 := s1.modSeq c.e (fun x => { x with
    pages := x.pages ++ pages, state := 3, nextOpPkt := c.op.pkt, nextItems := items, ranPrev := true, reason := 0 })
  let s3 := modHead c.e c.op.pkt (fun o => { o with consec := 0, reason := 0, left := o.left - items, admAt := some (o.admAt.getD s.clk.tick) }) s2
  let s4 := modAcct c.op.pkt (fun a =>
    if c.op.admAt.isNone then { a with admitted := a.admitted + 1, waitSum := a.waitSum + wait, waitMax := max a.waitMax (sat 32 wait) }
    else { a with admitted := a.admitted + 1 }) s3
  s4.modPkt c.op.pkt (fun p => { p with admitted := true })

/-- Visit one candidate (R158). -/
def visit (part : Nat) (v : Svc) (t : Tally) (c : Cand) : Tally :=
  let s := t.s
  let x := s.seq c.e
  let beCap := min v.beLimit (v.positions - max v.lcReserve t.lc)
  let share := (s.fn x.fn).quotas.pos
  let items := c.items v
  let need := ceilDiv ((x.ahead + items) * v.kvBytes) 65536 - x.pages.length
  let pool := match s.parts.look part with | some q => q.kvFree | none => []
  match classRefused v c.lc with
  | some r => { t with s := refuseAt c r.1 r.2 s }
  | none =>
    if (if c.lc then decide (v.lcLimit ≤ t.lc) else decide (beCap ≤ t.be)) then { t with s := deferAt c (if c.cont then 2 else 1) s }
    else if x.fn ≠ 512 ∧ share ≤ t.perFn.val x.fn 0 then { t with s := deferAt c 3 s }
    else if x.fn ≠ 512 ∧ 0 < need ∧ (s.fn x.fn).quotas.mem < s.memUse x.fn + need then { t with s := refuseAt c stQuota 3 s }
    else if pool.length < need then { t with s := deferAt c 4 s }
    else
      { s := admitOne c items (pool.take need) (pool.drop need) part s
        lc := t.lc + b2n c.lc
        be := t.be + b2n (!c.lc)
        perFn := t.perFn.put x.fn (t.perFn.val x.fn 0 + 1)
        won := t.won ++ [c.e] }

/-- The step builder finds the KV list of a candidate poisoned: the entry is Ended (R182). -/
def poisonedList (part : Nat) (s : State) (e : Nat) : Bool :=
  let x := s.seq e
  match s.parts.look part with
  | none => false
  | some q =>
    match q.kvListVa e 0 with
    | none => false
    | some a => if x.pages = [] then false else (match s.readVa q a (4 * x.pages.length) with | .ok (_, bad) => bad | _ => false)

/-- A draining partition admits nothing, and ends each unadmitted operation (R179). -/
def drainClose (es : List Nat) (s : State) : State :=
  forEach es s (fun s e =>
    let x := s.seq e
    let gone := x.ops.filter (fun o => o.admAt.isNone && o.kind != opClose)
    let s1 := s.modSeq e (fun x => { x with ops := x.ops.filter (fun o => o.admAt.isSome || o.kind == opClose) })
    settleSeq e (forEach gone s1 (fun s o => fail o.pkt stDraining 1 s)))

/-- The cycle of the close has come: ADMIT_LEAD_CYCLES before the coming step, or the close that a placed operation holds for an Idle job. -/
def Job.closeNow (b : Job) (se : Season) : Bool := b.closeDue || ((b.state == 2) && !b.closed && decide (se.stepCycles ≤ b.offset + se.lead))

/-- The admission close of a job's coming step (R157-R161, R177-R180, R208). -/
def execAdmissionClose (job : Nat) (s : State) : Host.Outcome State Fault Refusal :=
  match s.jobs.look job with
  | none => .next s
  | some b =>
    match s.parts.look b.part with
    | none => .next s
    | some q =>
      match q.season with
      | none => .next s
      | some se =>
        if !b.closeNow se ∨ b.state = 4 then .next s
        else
          let v := q.svcs.val b.entry {}
          let es := s.entriesOf b.part v.sid
          let s1 := forEach es s (fun s e => cleanSeq e s)
          let bad := es.filter (poisonedList b.part s1)
          let s2 := forEach bad s1 (fun s e => endEntry e stPoisoned 1 s)
          let idle := decide (b.state = 1)
          let done (t : Tally) : State :=
            t.s.modJob job (fun b => { b with
              closeDue := false
              closed := true
              admitted := t.won
              lcAdm := t.lc
              lcLimitAt := v.lcLimit
              build := some s.clk.cycle
              readyIn := if idle then some se.lead else b.readyIn })
          if s.refusing b.part then .next (done { s := drainClose es s2 })
          else
            let cands := sortKey Cand.key (es.filterMap (fun e => s2.candOf e (s2.seq e)))
            .next (done (cands.foldl (visit b.part v) { s := s2 }))

/-! ## Work lists (R166a, R170, R477) -/

/-- Address of the input of a step in the inbox (04, Work-list entry, INPUT_VA): of the item that the step begins with. -/
def State.inputVa (s : State) (pkt consumed : Nat) : Nat :=
  match s.pkts.look pkt with
  | none => 0
  | some p =>
    if p.opcode = opFeed then
      let all := if p.chainPkts = [] then [pkt] else p.chainPkts
      (all.foldl (fun (r : Nat × Option Nat) i =>
        match r.2, s.pkts.look i with
        | none, some y =>
          let n := fld y.hdr 0x24 4
          if r.1 < n then (0, some (if y.va = 0 then 0 else y.va + r.1 * (y.payload.length / max n 1))) else (r.1 - n, none)
        | _, _ => r) (consumed, none)).2.getD 0
    else p.va

/-- The 32 bytes of a work-list entry. -/
def State.workEntry (s : State) (q : Part) (v : Svc) (e : Nat) : Bytes :=
  let x := s.seq e
  match x.ops.find? (fun o => o.pkt == x.nextOpPkt), s.pkts.look x.nextOpPkt with
  | some o, some p =>
    let kind := if v.kind = 2 then 3 else if o.kind = opFeed then 2 else 1
    let total := if o.kind = opFeed then (if p.chainPkts = [] then [x.nextOpPkt] else p.chainPkts).foldl (fun n i =>
        n + (match s.pkts.look i with | some y => fld y.hdr 0x24 4 | none => 0)) 0
      else fld p.hdr 0x20 2
    let before := total - o.left - x.nextItems
    let first := decide (before = 0)
    let last := decide (o.left = 0)
    le 2 e ++ le 1 kind ++ le 1 (b2n first + 2 * b2n last + 4 * b2n (s.opLc o)) ++ le 4 x.ahead ++ le 2 x.nextItems ++ zeros 2
      ++ le 4 (if o.kind = opStep then fld p.hdr 0x24 4 else 0) ++ le 8 (s.inputVa x.nextOpPkt before) ++ le 8 ((q.kvListVa e 0).getD 0)
  | _, _ => zeros 32

/-- The coming step's number: one more than the step in flight, or the job's own while none is. -/
def Job.coming (b : Job) : Nat := if b.stepStart.isSome then b.step + 1 else b.step

/-- Write the 64 bytes of a slot; a fault of the access stands in the way. -/
def writeSlot (part slot : Nat) (b : Bytes) (r : Except (Nat × Nat) State) : Except (Nat × Nat) State :=
  match r with
  | .error x => .error x
  | .ok s =>
    match s.parts.look part with
    | none => .ok s
    | some q =>
      match s.writeVa q (q.slotVa slot) (fit 64 b) false with
      | .ok s1 => .ok (slotWritten part slot s1)
      | .fault k => .error (k, q.slotVa slot)
      | .nack c => .error (16 + c, q.slotVa slot)

/-- The half of a partition's step builder: that of its slice of the sequence table. -/
def Part.builderHalf (q : Part) : Nat := if q.seqBase < 8192 then 0 else 1

/-- The KV lists and the work list of a job's coming step as the step builder writes them, the header last (R166a, R170, R477): the state after the
last write, or the access that stood in the way. -/
def State.workList (s : State) (b : Job) (q : Part) : Except (Nat × Nat) State :=
  let v := q.svcs.val b.entry {}
  let k := b.coming
  let base := v.worklist + (k % 2) * (1 + ceilDiv v.positions 2)
  let s1 := forEach b.admitted s (fun s e =>
    forEach (List.range (s.seq e).pages.length) s (fun s i => kvListWrite b.part e i ((s.seq e).pages.getD i 0) s))
  let bytes := b.admitted.flatMap (fun e => s1.workEntry q v e)
  let slots := List.range (ceilDiv v.positions 2)
  let r1 := slots.foldl (fun r i => writeSlot b.part (base + 1 + i) (bytes.drop (64 * i)) r) (Except.ok s1)
  writeSlot b.part base (le 8 k ++ le 2 b.admitted.length ++ le 2 b.lcAdm) r1

/-- The step builder writes the KV lists and the work list (R166a, R170, R477). -/
def execWorkListBuilt (job : Nat) (s : State) : Host.Outcome State Fault Refusal :=
  match s.jobs.look job with
  | none => .next s
  | some b =>
    match s.parts.look b.part, b.build with
    | some q, some t =>
      if q.hold.isSome then .next s
      else
        match s.workList b q with
        | .ok s2 =>
          let h := q.builderHalf
          let n := s.clk.cycle - t
          .next ({ s2 with buildMax := s2.buildMax.put h (max (s2.buildMax.val h 0) (sat 18 n)) }.modJob job (fun b => { b with build := none }))
        | .error (k, a) =>
          if 16 ≤ k then .next (if k = 18 then s else brokenSeason job s)
          else .next (accessFault b.part q.builderHalf k a true 0xFFFF job s)
    | _, _ => .next s

/-- The bound of R170 has passed without the list (R183). -/
def execStepBuilderBoundMissed (job : Nat) (s : State) : Host.Outcome State Fault Refusal :=
  match s.jobs.look job with
  | none => .next s
  | some b =>
    match s.parts.look b.part, b.build with
    | some q, some t =>
      .next (if q.hold.isNone ∧ t + 1024 + 32 * (q.svcs.val b.entry {}).positions < s.clk.cycle then hang 5 q.builderHalf 0 s else s)
    | _, _ => .next s

end Sys2Proof.Machine
end

