-- ==== Sys2Proof/Machine/Vector.lean ====
section
/-! DEFINITION. The vector instructions (09_tile_instructions.md, R405-R408). -/

namespace Sys2Proof.Machine

open Sys2Proof

/-! ## Arithmetic -/

/-- The rounding mode in force. -/
def TCtx.rm (c : TCtx) : Nat := fpRm c.x.fpcr

/-- Every NaN result is 0x7FC0_0000 (R405). -/
def canon (a : BitVec 32) : BitVec 32 := match f32 a with | .nan => 0x7FC00000 | _ => a

/-- Complete with a value for VD. -/
def TCtx.setV (c : TCtx) (l : List (BitVec 32)) : TRes := c.goT (c.x.setVec c.i.vd l)
def TCtx.lanes1 (c : TCtx) (f : BitVec 32 → BitVec 32) : TRes := c.setV ((c.x.vec c.i.va).map f)
def TCtx.lanes2 (c : TCtx) (f : BitVec 32 → BitVec 32 → BitVec 32) : TRes := c.setV (List.zipWith f (c.x.vec c.i.va) (c.x.vec c.i.vb))

/-- VADD: lane by lane (R405). -/
def bodyVadd (c : TCtx) : TRes := c.lanes2 (fadd c.rm)
def execVadd (t : Nat) (u : Upset) (s : State) : Host.Outcome State Fault Refusal := runTile t u .vadd bodyVadd s

/-- VSUB. -/
def bodyVsub (c : TCtx) : TRes := c.lanes2 (fsub c.rm)
def execVsub (t : Nat) (u : Upset) (s : State) : Host.Outcome State Fault Refusal := runTile t u .vsub bodyVsub s

/-- VMUL. -/
def bodyVmul (c : TCtx) : TRes := c.lanes2 (fmul c.rm)
def execVmul (t : Nat) (u : Upset) (s : State) : Host.Outcome State Fault Refusal := runTile t u .vmul bodyVmul s

/-- VFMA: va × vb + vd. -/
def bodyVfma (c : TCtx) : TRes := c.setV (List.zipWith (fun f z => f z) (List.zipWith (ffma c.rm) (c.x.vec c.i.va) (c.x.vec c.i.vb)) (c.x.vec c.i.vd))
def execVfma (t : Nat) (u : Upset) (s : State) : Host.Outcome State Fault Refusal := runTile t u .vfma bodyVfma s

/-- VMAX. -/
def bodyVmax (c : TCtx) : TRes := c.lanes2 (fun a b => canon (fmaxB a b))
def execVmax (t : Nat) (u : Upset) (s : State) : Host.Outcome State Fault Refusal := runTile t u .vmax bodyVmax s

/-- VMIN. -/
def bodyVmin (c : TCtx) : TRes := c.lanes2 (fun a b => canon (fminB a b))
def execVmin (t : Nat) (u : Upset) (s : State) : Host.Outcome State Fault Refusal := runTile t u .vmin bodyVmin s

/-- VEXP: the function is named, its accuracy is open (log 16). -/
def bodyVexp (c : TCtx) : TRes := c.lanes1 (fun a => canon (Config.vexp a))
def execVexp (t : Nat) (u : Upset) (s : State) : Host.Outcome State Fault Refusal := runTile t u .vexp bodyVexp s

/-- VLOG. -/
def bodyVlog (c : TCtx) : TRes := c.lanes1 (fun a => canon (Config.vlog a))
def execVlog (t : Nat) (u : Upset) (s : State) : Host.Outcome State Fault Refusal := runTile t u .vlog bodyVlog s

/-- VRSQ: the reciprocal square root. -/
def bodyVrsq (c : TCtx) : TRes := c.lanes1 (frsq c.rm)
def execVrsq (t : Nat) (u : Upset) (s : State) : Host.Outcome State Fault Refusal := runTile t u .vrsq bodyVrsq s

/-- VCVTI: FP32 to INT32. -/
def bodyVcvti (c : TCtx) : TRes := c.lanes1 (fcvti c.rm)
def execVcvti (t : Nat) (u : Upset) (s : State) : Host.Outcome State Fault Refusal := runTile t u .vcvti bodyVcvti s

/-- VCVTF: INT32 to FP32. -/
def bodyVcvtf (c : TCtx) : TRes := c.lanes1 (fcvtf c.rm)
def execVcvtf (t : Nat) (u : Upset) (s : State) : Host.Outcome State Fault Refusal := runTile t u .vcvtf bodyVcvtf s

/-- VBCAST: rs[31:0] into every lane. -/
def bodyVbcast (c : TCtx) : TRes := c.setV (List.replicate 64 (c.d.setWidth 32))
def execVbcast (t : Nat) (u : Upset) (s : State) : Host.Outcome State Fault Refusal := runTile t u .vbcast bodyVbcast s

/-- VREDSUM: the fixed tree (R408). -/
def bodyVredsum (c : TCtx) : TRes := c.wr ((tree64 (fadd c.rm) (c.x.vec c.i.va)).setWidth 64)
def execVredsum (t : Nat) (u : Upset) (s : State) : Host.Outcome State Fault Refusal := runTile t u .vredsum bodyVredsum s

/-- VREDMAX: the fixed tree. -/
def bodyVredmax (c : TCtx) : TRes := c.wr ((tree64 (fun a b => canon (fmaxB a b)) (c.x.vec c.i.va)).setWidth 64)
def execVredmax (t : Nat) (u : Upset) (s : State) : Host.Outcome State Fault Refusal := runTile t u .vredmax bodyVredmax s

/-- VIADD: INT32 lanes. -/
def bodyViadd (c : TCtx) : TRes := c.lanes2 (· + ·)
def execViadd (t : Nat) (u : Upset) (s : State) : Host.Outcome State Fault Refusal := runTile t u .viadd bodyViadd s

/-- VIMUL: INT32 lanes, the low 32 bits. -/
def bodyVimul (c : TCtx) : TRes := c.lanes2 (· * ·)
def execVimul (t : Nat) (u : Upset) (s : State) : Host.Outcome State Fault Refusal := runTile t u .vimul bodyVimul s

/-! ## Loads and stores with conversion -/

/-- A lane from the bytes of one element (R406). -/
def laneIn (fmt : Nat) (b : Bytes) : BitVec 32 :=
  if fmt = 2 then widen bf16 (ofLe b)
  else if fmt = 3 then widen e4m3 (ofLe b)
  else if fmt = 4 then widen e5m2 (ofLe b)
  else if fmt = 5 then (BitVec.ofNat 8 (ofLe b)).signExtend 32
  else BitVec.ofNat 32 (ofLe b)

/-- The bytes of one element from a lane (R406). -/
def laneOut (fmt : Nat) (fpcr a : BitVec 32) : Bytes :=
  if fmt = 2 then le 2 (narrow bf16 fpcr a)
  else if fmt = 3 then le 1 (narrow e4m3 fpcr a)
  else if fmt = 4 then le 1 (narrow e5m2 fpcr a)
  else if fmt = 5 then le 1 (satInt8 a)
  else le 4 a.toNat

/-- VLD: loads and converts a vector, consuming it (R406, R407). -/
def bodyVld (c : TCtx) : TRes := 
  let a := c.a.toNat
  let n := vmemBytes c.i.fmt
  if a % n ≠ 0 ∨ storeBytes < a + n then .fault 9 (a / 65536 % 256) none
  else c.consume a n (c.setV ((List.range 64).map (fun k => laneIn c.i.fmt (c.x.store.read (a + k * (n / 64)) (n / 64)))))
def execVld (t : Nat) (u : Upset) (s : State) : Host.Outcome State Fault Refusal := runTile t u .vld bodyVld s

/-- VST: converts and stores a vector under TILE_FPCR (R406, R407). -/
def bodyVst (c : TCtx) : TRes := 
  let a := c.a.toNat
  let n := vmemBytes c.i.fmt
  if a % n ≠ 0 ∨ storeBytes < a + n then .fault 9 (a / 65536 % 256) none
  else c.goT (c.x.storeClean a ((c.x.vec c.i.vd).flatMap (laneOut c.i.fmt c.x.fpcr)))
def execVst (t : Nat) (u : Upset) (s : State) : Host.Outcome State Fault Refusal := runTile t u .vst bodyVst s

end Sys2Proof.Machine
end

