-- ==== Sys2Proof/Machine/Block.lean ====
section
/-! DEFINITION. Block operations: the descriptor and its checks, and the row groups (08_tiles.md, R334-R339; 09_tile_instructions.md,
R402-R412). -/

namespace Sys2Proof.Machine

open Sys2Proof

/-- A block-operation descriptor. -/
structure BlkDesc where
  kind : Nat
  op : Nat
  aFmt : Nat
  bFmt : Nat
  cFmt : Nat
  flags : Nat
  rows : Nat
  k : Nat
  n : Nat
  a : Nat
  aStride : Nat
  b : Nat
  bStride : Nat
  c : Nat
  cStride : Nat
  aScale : Nat
  bScale : Nat
  param0 : BitVec 32
  param1 : BitVec 32
  zero : Bool
deriving DecidableEq, Repr

/-- Read the 64 bytes of a descriptor (Table: Block-operation descriptor). -/
def blkDesc (d : Bytes) : BlkDesc :=
  { kind := fld d 0 1, op := fld d 1 1, aFmt := fld d 2 1, bFmt := fld d 3 1, cFmt := fld d 4 1, flags := fld d 5 1,
    rows := fld d 6 2, k := fld d 8 2, n := fld d 0xA 2, a := fld d 0x10 4, aStride := fld d 0x14 4, b := fld d 0x18 4,
    bStride := fld d 0x1C 4, c := fld d 0x20 4, cStride := fld d 0x24 4, aScale := fld d 0x28 4, bScale := fld d 0x2C 4,
    param0 := word32 d 0x30, param1 := word32 d 0x34, zero := allZero d 0xC 4 && allZero d 0x38 8 }

/-- Bits of an element (Table: Element format codes); 0 for a reserved code. -/
def fmtBits (f : Nat) : Nat :=
  if f = 1 ∨ f = 6 then 32 else if f = 2 then 16 else if f = 0x9 ∨ f = 0xA then 6 else if f = 0xC then 4
  else if 1 ≤ f ∧ f ≤ 0xC then 8 else 0

/-- The MX formats. -/
def isMx (f : Nat) : Bool := decide (7 ≤ f ∧ f ≤ 0xC)

/-- The bytes of a row of `n` elements. -/
def rowBytes (n f : Nat) : Nat := ceilDiv (n * fmtBits f) 8

def BlkDesc.accumulate (d : BlkDesc) : Bool := bit d.flags 0

/-- Elements of an output row. -/
def BlkDesc.cols (d : BlkDesc) : Nat := if d.kind = 1 then d.n else if d.kind = 3 then 1 else d.k

/-- The regions of the descriptor: A, B, C, A's scales and B's scales, each as address and size. -/
def BlkDesc.aReg (d : BlkDesc) : Nat × Nat := (d.a, (d.rows - 1) * d.aStride + rowBytes d.k d.aFmt)
def BlkDesc.bReg (d : BlkDesc) : Nat × Nat := (d.b, if d.kind = 1 then (d.k - 1) * d.bStride + rowBytes d.n d.bFmt else 0)
def BlkDesc.cReg (d : BlkDesc) : Nat × Nat := (d.c, (d.rows - 1) * d.cStride + rowBytes d.cols d.cFmt)
def BlkDesc.sReg (d : BlkDesc) : Nat × Nat := (d.aScale, if isMx d.aFmt then d.rows * (d.k / 32) else 0)
def BlkDesc.tReg (d : BlkDesc) : Nat × Nat := (d.bScale, if isMx d.bFmt && decide (d.kind = 1) then d.k / 32 * d.n else 0)

/-- Two regions share a byte. -/
def overlaps (r q : Nat × Nat) : Bool := decide (0 < r.2 ∧ 0 < q.2 ∧ r.1 < q.1 + q.2 ∧ q.1 < r.1 + r.2)

/-- A permitted pair of operand formats with the output format (R411 and the paragraph after it). -/
def pairOk (a b c : Nat) : Bool :=
  let f8 (x : Nat) : Bool := decide (x = 3 ∨ x = 4)
  let out := decide (c = 1 ∨ c = 2 ∨ c = 3 ∨ c = 4)
  (decide (a = 2 ∧ b = 2) && out) || (decide (a = 5 ∧ b = 5 ∧ c = 6)) || (f8 a && f8 b && out) || (isMx a && isMx b && out)

/-- The kind, the operation and the formats are none of the reserved ones (R411, items 1, 4 and 9). -/
def BlkDesc.kindOk (d : BlkDesc) : Bool :=
  let small := decide (d.aFmt = 1 ∨ d.aFmt = 2 ∨ d.aFmt = 3 ∨ d.aFmt = 4 ∨ d.aFmt = 5)
  let noB := decide (d.bFmt = 0 ∧ d.b = 0 ∧ d.bStride = 0 ∧ d.bScale = 0 ∧ d.n = 0)
  let params := decide ((d.kind = 2 ∧ d.op = 1) ∨ (d.param0 = 0 ∧ d.param1 = 0))
  params && decide (d.flags < 2) && d.zero &&
    (if d.kind = 1 then decide (d.op = 0 ∧ 1 ≤ d.n ∧ d.n ≤ 64) && pairOk d.aFmt d.bFmt d.cFmt && (isMx d.bFmt || decide (d.bScale = 0))
     else if d.kind = 2 then decide (1 ≤ d.op ∧ d.op ≤ 3) && small && decide (d.cFmt = 1 ∨ d.cFmt = 2) && noB
     else if d.kind = 3 then decide (1 ≤ d.op ∧ d.op ≤ 3) && small && decide (d.cFmt = 1 ∨ d.cFmt = 2) && noB
     else if d.kind = 4 then decide (d.op = 0 ∧ 0 < fmtBits d.aFmt ∧ 0 < fmtBits d.cFmt) && noB
     else false)
    && (isMx d.aFmt || decide (d.aScale = 0)) && (!d.accumulate || decide (d.cFmt = 1 ∨ d.cFmt = 6))

/-- The descriptor at an address is valid (R411); `prog` is the program region of the tile. -/
def BlkDesc.ok (d : BlkDesc) (addr : Nat) (prog : List (Nat × Nat)) : Bool :=
  d.kindOk
    && decide (1 ≤ d.rows ∧ d.rows ≤ 4096)
    && decide (d.k % 64 = 0 ∧ 64 ≤ d.k ∧ d.k ≤ 4096)
    && decide (d.a % 64 = 0 ∧ d.b % 64 = 0 ∧ d.c % 64 = 0)
    && decide (d.aStride % 4 = 0 ∧ rowBytes d.k d.aFmt ≤ d.aStride)
    && decide (d.kind ≠ 1 ∨ (d.bStride % 4 = 0 ∧ rowBytes d.n d.bFmt ≤ d.bStride))
    && decide (d.cStride % 4 = 0 ∧ rowBytes d.cols d.cFmt ≤ d.cStride)
    && ([d.aReg, d.bReg, d.cReg, d.sReg, d.tReg].all (fun r => decide (r.1 + r.2 ≤ storeBytes)))
    && !(([(addr, 64), d.aReg, d.bReg, d.sReg, d.tReg] ++ prog).any (overlaps d.cReg))

/-- The program regions of a tile: those of the tasks that the Season puts on it (R411, R413). -/
def State.progOf (s : State) (q : Part) (p : Nat) : List (Nat × Nat) :=
  match q.season with
  | none => []
  | some x => (x.ext.tasks.filter (fun t => decide (t.tile = s.nameOf p))).map (fun t => (t.progFirst, t.progEnd - t.progFirst))

/-- BLK: checks the descriptor at ra and starts the operation (R334, R335, R402); its 64 bytes are consumed (R322). -/
def bodyBlk (c : TCtx) : TRes :=
  let a := c.a.toNat
  if a % 64 ≠ 0 ∨ storeBytes < a + 64 then .fault 9 (a / 65536 % 256) none
  else
    let d := blkDesc (c.x.store.read a 64)
    if !d.ok a (c.s.progOf c.q c.p) then .fault 0xC 0 none
    else c.consume a 64 (c.goT { c.x with
      inBlk := true
      rowsDone := 0
      rowsTotal := d.rows
      descAddr := a
      blkAgain := false
      blkFpcr := c.x.fpcr })
def execBlk (t : Nat) (u : Upset) (s : State) : Host.Outcome State Fault Refusal := runTile t u .blk bodyBlk s

/-! ## Values -/

/-- An element of a float format, as a value; INT8 and INT32 as the integer. -/
def elemVal (f v : Nat) : FVal :=
  if f = 1 then unpackF fp32 v
  else if f = 2 then unpackF bf16 v
  else if f = 3 ∨ f = 7 then unpackF e4m3 v
  else if f = 4 ∨ f = 8 then unpackF e5m2 v
  else if f = 5 then let z := (BitVec.ofNat 8 v).toInt; .fin (decide (z < 0)) z.natAbs 0
  else if f = 6 then let z := (BitVec.ofNat 32 v).toInt; .fin (decide (z < 0)) z.natAbs 0
  else if f = 9 then let e := bits v 4 2; if e = 0 then .fin (bit v 5) (v % 4) (-4) else .fin (bit v 5) (v % 4 + 4) (e - 5)
  else if f = 0xA then let e := bits v 4 3; if e = 0 then .fin (bit v 5) (v % 8) (-3) else .fin (bit v 5) (v % 8 + 8) (e - 4)
  else if f = 0xB then let z := (BitVec.ofNat 8 v).toInt; .fin (decide (z < 0)) z.natAbs (-6)
  else let e := bits v 2 1; if e = 0 then .fin (bit v 3) (v % 2) (-1) else .fin (bit v 3) (v % 2 + 2) (e - 2)

/-- Element `j` of a row that starts at a byte address: the elements lie packed, the first in the low bits (R4). -/
def elemAt (m : Mem) (row f j : Nat) : Nat :=
  let w := fmtBits f
  let o := j * w
  (ofLe (m.read (row + o / 8) (ceilDiv (o % 8 + w) 8)) >>> (o % 8)) % 2 ^ w

/-- A value times the E8M0 scale of its block; the scale 0xFF is NaN. -/
def scaled (v : FVal) (scale : Nat) : FVal :=
  if scale = 255 then .nan else match v with | .fin s m e => .fin s m (e + scale - 127) | x => x

/-- The value of element `j` of row `i` of A, with its scale. -/
def BlkDesc.aVal (d : BlkDesc) (m : Mem) (i j : Nat) : FVal :=
  let v := elemVal d.aFmt (elemAt m (d.a + i * d.aStride) d.aFmt j)
  if isMx d.aFmt then scaled v (m.get (d.aScale + i * (d.k / 32) + j / 32)).toNat else v

/-- One output element: its bits, or none where the spec leaves the bits open. -/
abbrev OutBits := Option Nat

/-- A value as an element of an output format under a rounding mode; a float into an integer format is open (log 15). -/
def outVal (f rm : Nat) (sat : Bool) (v : FVal) : OutBits :=
  if f = 1 then some (packF fp32 rm false v)
  else if f = 2 then some (packF bf16 rm false v)
  else if f = 3 then some (packF e4m3 rm sat v)
  else if f = 4 then some (packF e5m2 rm sat v)
  else none

/-- INT8 and INT32 elements of A. -/
def BlkDesc.aInt (d : BlkDesc) (m : Mem) (i j : Nat) : Int :=
  let v := elemAt m (d.a + i * d.aStride) d.aFmt j
  if d.aFmt = 5 then (BitVec.ofNat 8 v).toInt else (BitVec.ofNat 32 v).toInt

/-- Matrix multiply of INT8 into INT32: exact; a sum beyond INT32 is open (log 15). Float products accumulate in FP32 in an order the
spec does not give: open (log 15). -/
def BlkDesc.mulOut (d : BlkDesc) (m : Mem) (i n : Nat) : OutBits :=
  if d.cFmt = 6 then
    let z := (List.range d.k).foldl (fun (z : Int) k =>
      z + d.aInt m i k * (BitVec.ofNat 8 (elemAt m (d.b + k * d.bStride) d.bFmt n)).toInt) 0
    let old := if d.accumulate then (BitVec.ofNat 32 (elemAt m (d.c + i * d.cStride) 6 n)).toInt else 0
    let r := z + old
    if -(2 ^ 31) ≤ r ∧ r < 2 ^ 31 then some (BitVec.ofInt 32 r).toNat else none
  else none

/-- Vector map (kind 0x02): x × PARAM0 + PARAM1 with one rounding, the exponential, or max(x, 0). -/
def BlkDesc.mapOut (d : BlkDesc) (m : Mem) (rm : Nat) (i j : Nat) : OutBits :=
  let x := toF32 0 (d.aVal m i j)
  let y := if d.op = 1 then ffma rm x d.param0 d.param1 else if d.op = 2 then canon (Config.vexp x) else canon (fmaxB x 0)
  outVal d.cFmt rm false (f32 y)

/-- Reduction (kind 0x03): the maximum; the sum of INT8, which is exact; other sums have no order given: open (log 15). -/
def BlkDesc.redOut (d : BlkDesc) (m : Mem) (rm : Nat) (i : Nat) : OutBits :=
  if d.op = 2 then
    let l := (List.range d.k).map (fun j => toF32 0 (d.aVal m i j))
    outVal d.cFmt rm false (f32 (canon (l.tail.foldl fmaxB (l.headD 0))))
  else if d.op = 1 ∧ d.aFmt = 5 then
    let z := (List.range d.k).foldl (fun (z : Int) j => z + d.aInt m i j) 0
    outVal d.cFmt rm false (.fin (decide (z < 0)) z.natAbs 0)
  else none

/-- Conversion (kind 0x04): a float or integer value into a float format; the same format unchanged; INT8 into INT32 by sign. An MX
format into itself keeps its bits; other results in an integer or MX format are open (log 15). -/
def BlkDesc.cvtOut (d : BlkDesc) (m : Mem) (rm : Nat) (sat : Bool) (i j : Nat) : OutBits :=
  if d.aFmt = d.cFmt then some (elemAt m (d.a + i * d.aStride) d.aFmt j)
  else if d.aFmt = 5 ∧ d.cFmt = 6 then some (BitVec.ofInt 32 (d.aInt m i j)).toNat
  else outVal d.cFmt rm sat (d.aVal m i j)

/-- The elements of an output row. -/
def BlkDesc.rowOut (d : BlkDesc) (m : Mem) (fpcr : BitVec 32) (i : Nat) : List OutBits :=
  (List.range d.cols).map (fun j =>
    if d.kind = 1 then d.mulOut m i j
    else if d.kind = 2 then d.mapOut m (fpRm fpcr) i j
    else if d.kind = 3 then d.redOut m (fpRm fpcr) i
    else d.cvtOut m (fpRm fpcr) (fpSat fpcr) i j)

/-- Fill the open elements from the free values that begin at `base`. -/
def fillOpen (base w : Nat) (l : List OutBits) : List Nat :=
  l.zipIdx.map (fun e => match e.1 with | some v => v | none => Config.free (base + e.2) % 2 ^ w)

/-- The bytes of a packed row. -/
def packRow (w : Nat) (l : List Nat) : Bytes := le (ceilDiv (l.length * w) 8) (l.foldr (fun v acc => acc * 2 ^ w + v % 2 ^ w) 0)

/-! ## Row groups -/

/-- The rows of the group in progress. -/
def Tile.group (x : Tile) : List Nat := (List.range (min 16 (x.rowsTotal - x.rowsDone))).map (fun i => x.rowsDone + i)

/-- The first poisoned granule that a row group consumes: A's rows, B, the scales, and C's rows when it accumulates. -/
def BlkDesc.poisonIn (d : BlkDesc) (x : Tile) (rows : List Nat) : Option Nat :=
  let a := rows.map (fun i => (d.a + i * d.aStride, rowBytes d.k d.aFmt))
  let b := if d.kind = 1 then (List.range d.k).map (fun k => (d.b + k * d.bStride, rowBytes d.n d.bFmt)) else []
  let sa := if isMx d.aFmt then rows.map (fun i => (d.aScale + i * (d.k / 32), d.k / 32)) else []
  let cc := if d.accumulate then rows.map (fun i => (d.c + i * d.cStride, rowBytes d.cols d.cFmt)) else []
  (a ++ b ++ sa ++ [d.tReg] ++ cc).findSome? (fun r => if r.2 = 0 then none else x.poisonAt r.1 r.2)

/-- Write the output rows of the group: tile store, the layer digest (R733), ROWS_DONE (R336). -/
def runGroup (p : Nat) (d : BlkDesc) (s : State) : State :=
  let x := s.tile p
  let w := fmtBits d.cFmt
  let e := match x.job with | some j => (match s.jobs.look j with | some b => b.entry | none => 0) | none => 0
  let rows := x.group.map (fun i => (d.c + i * d.cStride,
    packRow w (fillOpen (s.fresh + (i - x.rowsDone) * d.cols) w (d.rowOut x.store x.blkFpcr i))))
  let y := rows.foldl (fun (y : Tile) r => y.storeClean r.1 r.2) x
  let dg := rows.foldl (fun c r => crc64 c r.2) (x.digest.val e 0)
  (s.setTile p { y with digest := y.digest.put e dg, rowsDone := x.rowsDone + rows.length }).took (16 * d.cols)

/-- The operation is over: the program counter passes BLK. -/
def endBlk (p : Nat) (s : State) : State :=
  let x := s.tile p
  countStep p ((traceEv p 7 0 s).modTile p (fun y => { y with inBlk := false, pc := x.pc + 4, bpPassed := false }))

/-- A row group ends (R336, R337): of an operation that was halted, the descriptor is checked again first (R403); its rows are written; then a fault of the group, a kill or a halt takes effect (R370, R412), and after
the last row the operation ends. While the partition is in Hold only the group in progress ends (R486). -/
def execRowGroupEnd (t : Nat) (u : Upset) (s : State) : Host.Outcome State Fault Refusal :=
  let x := s.tile t
  let hold := match s.partOfTile t with | some p => (match s.parts.look p with | some q => q.hold | none => none) | none => none
  if !x.inBlk ∨ x.power ≠ 1 ∨ x.run ≠ 0 ∨ (hold.isSome ∧ x.blkPause = hold) then .next s
  else
    let d := blkDesc (x.store.read x.descAddr 64)
    let prog := match s.partOfTile t with | some p => s.progOf (s.parts.val p {}) t | none => []
    if x.blkAgain ∧ x.blkEngine.isNone ∧ !d.ok x.descAddr prog then .next (tileFault t 0xC 0 none s)
    else
    let s1 := readUpset t u (some (d.a + x.rowsDone * d.aStride, rowBytes d.k d.aFmt)) s
    let bad := d.poisonIn (s1.tile t) x.group
    let s2 := (runGroup t d s1).modTile t (fun y => { y with blkPause := hold, blkAgain := false })
    let y := s2.tile t
    if x.blkEngine.isSome then
      let z := match y.job with | some j => y.dropJob j | none => y
      .next (s2.setTile t { z with run := 3, inBlk := false, blkEngine := none, lock := none, haltReq := none })
    else
      if u = .mismatch then .next (tileFault t 5 0 none s2)
      else
      match bad with
      | some g => .next (tileFault t 7 (32 * g / 65536) (some (32 * g)) s2)
      | none =>
        if u = .residue then .next (tileFault t 8 0 none s2)
        else
          let s3 := if y.rowsTotal ≤ y.rowsDone then endBlk t s2 else s2
          .next (if x.haltReq.isSome && !x.inTrap then haltTile t s3 else s3)

end Sys2Proof.Machine
end

