-- ==== Sys2Proof/Machine/Xfer.lean ====
section
/-! DEFINITION. Transfers and their tags, Hold, page-table changes, and the stacks' own events (11_device_memory_and_transfers.md). -/

namespace Sys2Proof.Machine

open Sys2Proof

/-! ## Unplanned traffic for a tile (R343, R362) -/

/-- The tile takes unplanned traffic now: awake, no locked sequence open. -/
def State.takesUc (s : State) (p : Nat) : Bool := let x := s.tile p; decide (x.power = 1) && x.lock.isNone

/-- Traffic has reached a tile that unplanned traffic woke. -/
def touchUc (p : Nat) (s : State) : State :=
  s.modTile p (fun x => { x with ucWoken := x.ucWoken.map (fun _ => s.clk.cycle) })

/-- Increments of a tile semaphore that arrive together (R347, R348, R368): a sum above 0xFFFF leaves the count and faults. -/
def incSem (p sem n : Nat) (s : State) : State :=
  let x := s.tile p
  if 0xFFFF < x.sems.val sem 0 + n then tileFault p 0xA sem none s else s.setTile p (x.semAdd sem n)

/-! ## Starting a transfer -/

/-- The 32 bytes of a transfer descriptor obey the table and R507. -/
def xferDescOk (d : Bytes) : Bool :=
  let kind := fld d 0 1
  let flags := fld d 1 1
  let sem := fld d 2 1
  let dst := fld d 4 2
  let loc := fld d 8 4
  let n := fld d 0xC 4
  let rem := fld d 0x10 8
  decide (1 ≤ kind ∧ kind ≤ 3) && decide (flags < 4) && (decide (kind = 3) || !bit flags 1) && decide (sem < 32)
    && (decide (flags ≠ 0) || decide (sem = 0)) && allZero d 3 1 && allZero d 6 2 && allZero d 0x18 8
    && (if kind = 3 then (logOfName dst).isSome else decide (dst = 0))
    && decide (64 ≤ n ∧ n ≤ storeBytes ∧ n % 64 = 0) && decide (loc % 64 = 0 ∧ loc + n ≤ storeBytes)
    && (if kind = 3 then decide (rem % 64 = 0 ∧ rem + n ≤ storeBytes) else decide (rem % 64 = 0 ∧ rem + n ≤ 2 ^ 48))

/-- The transfer that a descriptor describes, executed by a logical tile. -/
def xferOf (d : Bytes) (part job tile : Nat) (planned : Bool) : Xfer :=
  { part := part, job := job, tile := some tile, kind := fld d 0 1, flags := fld d 1 1, sem := fld d 2 1,
    dst := (logOfName (fld d 4 2)).getD 0, localAddr := fld d 8 4, bytes := fld d 0xC 4, remote := fld d 0x10 8, planned := planned }

/-- A free tag of a tile's transfer unit for planned or other transfers (R482, R483): planned ones may take any of the 32, others leave
PLANNED_TAGS for them. -/
def State.freeTag (s : State) (tile : Nat) (planned : Bool) (kept : Nat) : Option Nat :=
  let held := s.mem.xfers.filter (fun e => decide (e.1 / 32 = tile))
  let others := (held.filter (fun e => !e.2.planned)).length
  if planned || decide (others < 32 - kept) then (firstFree 32 (fun i => (s.mem.xfers.look (32 * tile + i)).isNone)).map (32 * tile + ·)
  else none

/-- XFER: hands the descriptor at ra to the transfer unit (R480); it waits for a tag (R483). -/
def bodyXfer (c : TCtx) : TRes :=
  let a := c.a.toNat
  if a % 32 ≠ 0 ∨ storeBytes < a + 32 then .fault 9 (a / 65536 % 256) none
  else
    let d := c.x.store.read a 32
    if !xferDescOk d then .fault 0xC 0 none
    else c.consume a 32 (
      let i := (c.s.logOf c.p).getD 768
      let kept := match c.q.season with | some x => x.plannedTags | none => 0
      match c.s.freeTag i false kept with
      | none => .wait c.s
      | some t => .go (c.s.setMem (fun m => { m with xfers := m.xfers.put t (xferOf d c.part c.j i false) })))
def execXfer (t : Nat) (u : Upset) (s : State) : Host.Outcome State Fault Refusal := runTile t u .xfer bodyXfer s

/-- A transfer-schedule entry starts a planned transfer at its step offset (R479). -/
def execPlannedTransferStart (job idx : Nat) (s : State) : Host.Outcome State Fault Refusal :=
  match s.jobs.look job with
  | none => .next s
  | some j =>
    match s.parts.look j.part with
    | none => .next s
    | some q =>
      match q.season with
      | none => .next s
      | some se =>
        match se.transfers[idx]? with
        | none => .next s
        | some e =>
          if j.state ≠ 2 ∨ q.runJob ≠ some job ∨ q.hold.isSome ∨ j.offset < e.offset ∨ j.xferIdx.contains idx ∨ q.stop.state = 1 ∨ q.stop.state = 2 then .next s
          else
            match logOfName e.tile with
            | none => .next s
            | some i =>
              let s1 := s.modJob job (fun j => { j with xferIdx := j.xferIdx ++ [idx] })
              match s1.freeTag i true 0 with
              | none => .next (brokenSeason job s1)
              | some t =>
                let x : Xfer :=
                  { part := j.part, job := job, tile := some i, kind := e.kind, flags := e.flags, sem := e.sem,
                    dst := (logOfName e.dst).getD 0, localAddr := e.localAddr, bytes := e.bytes, remote := e.remote, planned := true }
                .next (s1.setMem (fun m => { m with xfers := m.xfers.put t x }))

/-! ## Requests -/

/-- The half of a place in the DPA map. -/
def halfOfPlace (p : Place) : Nat := match p with | .stack ch => ch / 64 | .tile i => i / 384 | .nowhere => 0

/-- Bytes of the next request: up to 64 data flits, not past a 4 KiB boundary of the remote address. -/
def Xfer.chunk (x : Xfer) : Nat := min (x.bytes - x.done) (4096 - (x.remote + x.done) % 4096)

/-- The kind of a fault of the transfer: recoverable ones hold the partition (R485), a permission fault kills the job. -/
def xferFault (tag : Nat) (x : Xfer) (kind : Nat) (s : State) : State :=
  let h := match x.tile with | some i => i / 384 | none => 0
  let src := match x.tile with | some i => tileName i | none => 0xFFFF
  let dva := x.remote + x.done
  let write := decide (x.kind = 2)
  if kind < 4 then recoverable x.part h kind dva write src x.done x.job (some tag) s
  else beginKill x.job stJobLost 3 (recordFault x.part kind false dva write src x.done x.job s)

/-- Issue the next translated request of a transfer (R467, R479, R485, R486; a planned one not in a debug stop, R870), when the regulators have tokens for an unplanned one
(R300, R301). -/
def execTransferRequest (tag : Nat) (walkerUe : Bool) (s : State) : Host.Outcome State Fault Refusal :=
  match s.mem.xfers.look tag with
  | none => .next s
  | some x =>
    match s.parts.look x.part, x.tile with
    | some q, some i =>
      if x.issued ≠ x.done ∨ x.bytes ≤ x.done ∨ q.faulted.contains tag ∨ q.hold.isSome ∨ (x.planned ∧ (q.stop.state = 1 ∨ q.stop.state = 2)) then .next s
      else
        let n := x.chunk
        let go (dpa cross : Nat) : State :=
          let bytes := if x.kind = 1 then 64 else 64 + n
          let s0 := if x.planned then some s else takeTokens x.part 1 bytes s
          let s1 := if x.planned ∨ cross = 0 then s0 else s0.bind (takeTokens x.part 2 bytes)
          match s1 with
          | none => s
          | some s1 => s1.setMem (fun m => { m with xfers := m.xfers.put tag { x with issued := x.done + n, reqCycle := s.clk.cycle, dpa := dpa } })
        if x.kind = 3 then .next (go 0 (b2n (x.dst / 384 ≠ i / 384)))
        else if walkerUe then .next (xferFault tag x 3 s)
        else
          match q.walk (x.remote + x.done) (x.kind == 2) with
          | .fault k => .next (xferFault tag x k s)
          | .ok dpa _ => .next (go dpa (b2n (halfOfPlace (placeOf dpa) ≠ i / 384)))
    | _, _ => .next s

/-! ## Responses -/

/-- Move `n` bytes between two 64-byte aligned places, granule by granule, with their poison (R323, R492, R493). -/
def moveIn (p : Nat) (a dpa n : Nat) (s : State) : State :=
  forEach (List.range (n / 64)) s (fun s k =>
    match s.readGran (dpa + 64 * k) with
    | .ok b p0 p1 => s.modTile p (fun x => x.storeWrite (a + 64 * k) b (fun g => if g % 2 = 0 then p0 else p1))
    | .nack _ => s)
def moveOut (p : Nat) (a dpa n : Nat) (s : State) : State :=
  forEach (List.range (n / 64)) s (fun s k =>
    let x := s.tile p
    let o := a + 64 * k
    (s.writeGran (dpa + 64 * k) (x.store.read o 64) (x.poison.val (o / 32) false) (x.poison.val (o / 32 + 1) false)).2)

/-- The physical tile of a logical index as a DPA of its window. -/
def windowOf (i a : Nat) : Nat := tileWindow + 0x200000 * i + a

/-- Ticks of 24 hours in which corrected errors of a page count (R503). -/
def pageTicks (s : State) (l : List Nat) : List Nat := l.filter (fun t => decide (s.clk.tick < t + dayTicks))

/-- A stack page has reached its limit (R503): a KV page moves to a free page of the pool, whose donor page is withdrawn; a region
without a free page keeps the page, with a HEALTH notice. -/
def retirePage (part dva dpa : Nat) (s : State) : State :=
  match s.parts.look part with
  | none => s
  | some q =>
    let kv := match q.season with | some x => x.region 2 0 | none => none
    let keep := noticeHealth (0x8000 + dpa / 0x60000000) 8
      (logEvent { kind := 0x12, severity := 1, unit := 8, part := part, index := dpa / 0x60000000, data := 1 } s)
    match kv with
    | none => keep
    | some r =>
      if dva < r.dva ∨ r.dva + r.bytes ≤ dva ∨ r.page ≠ 0 then keep
      else
        match q.kvFree with
        | [] => keep
        | donor :: rest =>
          match q.walk (r.dva + 65536 * donor) true with
          | .fault _ => keep
          | .ok dst _ =>
            let page := dva / 65536 * 65536
            let e1 := q.l1.val (bits page 47 35) 0
            let e2 := q.entry (pteAddr e1) (bits page 34 21)
            let k3 := pteAddr e2 / 8 + bits page 20 16
            let old := q.tables.val k3 0
            let new := BitVec.ofNat 64 (old.toNat % 256 + dst / 65536 * 65536)
            let src := dpa / 65536 * 65536
            let s1 := forEach (List.range 1024) s (fun s i =>
              match s.readGran (src + 64 * i) with
              | .ok b p0 p1 => (s.writeGran (dst + 64 * i) b p0 p1).2
              | .nack _ => s)
            s1.modPart part (fun q => { q with
              tables := q.tables.put k3 new
              kvFree := rest
              retired := sat 16 (q.retired + 1) })

/-- A stack read of a transfer found an error in its first granule: corrected (counted, R503) or not (poisoned, R491). -/
def stackError (x : Xfer) (r : XferResult) (s : State) : State :=
  match r, placeOf x.dpa with
  | .corrected, .stack _ =>
    let pg := x.dpa / 65536
    let l := pageTicks s (s.mem.pageCe.val pg []) ++ [s.clk.tick]
    let s1 := (s.modPart x.part (fun q => { q with memCe := sat 16 (q.memCe + 1) })).setMem (fun m => { m with
      pageCe := if 16 ≤ l.length then m.pageCe.del pg else m.pageCe.put pg l })
    if 16 ≤ l.length then retirePage x.part (x.remote + x.done) x.dpa s1 else s1
  | .uncorrectable, .stack _ =>
    (s.modPart x.part (fun q => { q with memUe := sat 16 (q.memUe + 1) })).setMem (fun m => { m with poison := m.poison.put (x.dpa / 64) true })
  | _, _ => s

/-- The transfer's last response: the notify semaphores (R481), then the tag returns (R482). -/
def endXfer (tag : Nat) (x : Xfer) (i : Nat) (s : State) : State :=
  let s1 := s.setMem (fun m => { m with xfers := m.xfers.del tag })
  let s2 := if bit x.flags 0 then incSem (s.physOf i) x.sem 1 s1 else s1
  if bit x.flags 1 then incSem (s.physOf x.dst) x.sem 1 s2 else s2

/-- A response to the request in flight: the data moves with its poison, DONE_BYTES advances (R481), and the last response ends the
transfer. A NACK kills the job or, with TARGET_RESET, discards the transfer (Table: Transfer faults). -/
def respond (tag : Nat) (r : XferResult) (s : State) : State :=
  match s.mem.xfers.look tag with
  | none => s
  | some x =>
    match x.tile with
    | none => s
    | some i =>
      let p := s.physOf i
      let n := x.issued - x.done
      let nack (code : Nat) (s : State) : State :=
        let h := if x.kind = 3 then x.dst / 384 else halfOfPlace (placeOf x.dpa)
        s.setHl (fun l =>
          { l with
            nackDark := if code = 1 then l.nackDark.put h (sat 16 (l.nackDark.val h 0 + 1)) else l.nackDark
            nackReset := if code = 2 then l.nackReset.put h (sat 16 (l.nackReset.val h 0 + 1)) else l.nackReset
            nackRoute := if code = 3 then l.nackRoute.put h (sat 16 (l.nackRoute.val h 0 + 1)) else l.nackRoute })
      let drop (s : State) : State := s.setMem (fun m => { m with xfers := m.xfers.del tag })
      if n = 0 then s
      else if r = .nackReset then drop (nack 2 s)
      else if r = .nackDark then xferFault tag x 5 (nack 1 s)
      else if r = .nackRoute then xferFault tag x 5 (nack 3 s)
      else
        let rem : Option Nat := if x.kind = 3 then some x.dst else match placeOf x.dpa with | .tile j => some j | _ => none
        let far := match rem with | some j => s.tileNack j | none => 0
        let asleep (j : Nat) : Bool := !x.planned && decide ((s.tile (s.physOf j)).power = 0)
        if far = 2 then drop (nack 2 s)
        else if far ≠ 0 then xferFault tag x 5 (nack far s)
        else if x.kind = 1 ∧ asleep i then startUcWake p s
        else if rem.any asleep then startUcWake (s.physOf (rem.getD i)) s
        else if !x.planned ∧ ((x.kind = 1 ∧ !s.takesUc p) ∨ rem.any (fun j => !s.takesUc (s.physOf j))) then s
        else
          let s1 := if x.kind = 1 then stackError x r s else s
          let a := x.localAddr + x.done
          let s2 :=
            if x.kind = 1 then touchUc p (moveIn p a x.dpa n s1)
            else if x.kind = 2 then moveOut p a x.dpa n s1
            else moveOut p a (windowOf x.dst (x.remote + x.done)) n s1
          let s2 := match rem with | some j => touchUc (s.physOf j) s2 | none => s2
          let y := { x with done := x.issued }
          if y.done = x.bytes then endXfer tag y i s2
          else s2.setMem (fun m => { m with xfers := m.xfers.put tag y })

def execTransferResponse (tag : Nat) (r : XferResult) (s : State) : Host.Outcome State Fault Refusal := .next (respond tag r s)

/-- No response within 65,536 grid cycles of a request (Table: Transfer faults). -/
def execTransferNoResponse (tag : Nat) (s : State) : Host.Outcome State Fault Refusal :=
  match s.mem.xfers.look tag with
  | none => .next s
  | some x => .next (if x.done < x.issued ∧ x.reqCycle + 65536 ≤ s.clk.cycle then xferFault tag x 6 s else s)

/-! ## The control processors' changes (R468, R469, R487, R488) -/

/-- The table entry that translates an address: the level 3 entry below an L2 table entry, else the L2 entry. -/
def Part.entryOf (q : Part) (dva : Nat) : Option Nat :=
  let e1 := q.l1.val (bits dva 47 35) 0
  if !pteV e1 then none
  else
    let k2 := pteAddr e1 / 8 + bits dva 34 21
    let e2 := q.tables.val k2 0
    if pteV e2 && !pteLeaf e2 then some (pteAddr e2 / 8 + bits dva 20 16) else some k2

/-- The entry names memory of the partition's own, or none (R468). -/
def Part.owns (q : Part) (e : BitVec 64) : Bool :=
  !pteV e || !pteLeaf e ||
    (match placeOf (pteAddr e) with
     | .stack ch => q.chans.contains ch
     | .tile i => q.cols.contains (i / 16)
     | .nowhere => false)

/-- A change of a page-table entry: accesses issued under the old translation complete first (R469). -/
def execPageTableUpdate (part dva : Nat) (pte : BitVec 64) (s : State) : Host.Outcome State Fault Refusal :=
  match s.parts.look part with
  | none => .next s
  | some q =>
    match q.entryOf dva with
    | none => .next s
    | some k =>
      if !q.owns pte then .next s
      else
        let live := (s.mem.xfers.filter (fun e => decide (e.2.part = part ∧ e.2.done < e.2.issued ∧ e.2.kind ≠ 3)
          && (q.entryOf (e.2.remote + e.2.done) == some k))).map (·.1)
        let s1 := forEach live s (fun s t => respond t .done s)
        .next (s1.modPart part (fun q => { q with tables := if pte = 0 then q.tables.del k else q.tables.put k pte }))

/-- A recorded fault is repaired: its address translates now, or its transfer is gone. -/
def State.repaired (s : State) (q : Part) (f : Nat) : Bool :=
  let ok (a : Nat) (w : Bool) : Bool := match q.walk a w with | .ok _ _ => true | .fault k => k == 4
  if f < 32768 then (match s.mem.xfers.look f with | some x => ok (x.remote + x.done) (x.kind == 2) | none => true)
  else ok ((f - 32768) / 64 * 65536) false

/-- Every recorded fault is repaired: the transfers restart and the running cycles resume (R487, R489, R890). -/
def execHoldRepaired (part : Nat) (s : State) : Host.Outcome State Fault Refusal :=
  match s.parts.look part with
  | none => .next s
  | some q => .next (if q.hold.isSome && q.faulted.all (s.repaired q) then endHold part s else s)

/-- The job of a recorded fault. -/
def State.faultJob (s : State) (f : Nat) : Nat :=
  if f < 32768 then (match s.mem.xfers.look f with | some x => x.job | none => 64) else (f - 32768) % 64

/-- A Hold has lasted 10,000 calendar ticks (R488, R497): jobs with an unrepaired fault die and the Hold ends. -/
def execHoldLimit (part : Nat) (s : State) : Host.Outcome State Fault Refusal :=
  match s.parts.look part with
  | none => .next s
  | some q =>
    match q.hold with
    | none => .next s
    | some t =>
      if s.clk.cycle < t + 15000000 then .next s
      else
        let bad := (q.faulted.filter (fun f => !s.repaired q f)).map s.faultJob
        .next (endHold part (forEach bad s (fun s j => beginKill j stJobLost 3 s)))

/-! ## The stacks -/

/-- A stack channel fails (R504): poison for every read, writes discarded, a HEALTH notice; PART_CREATE leaves it out. -/
def failChannel (ch : Nat) (s : State) : State :=
  if 128 ≤ ch ∨ s.mem.failed.contains ch ∨ !s.ident.variant.hasStack (ch / 16) then s
  else
    let s1 := s.setMem (fun m => { m with failed := m.failed ++ [ch] })
    let s2 := logEvent { kind := 0x12, severity := 2, unit := 8, index := ch, data := 2 } s1
    intcLevel (ch / 64) (srcKey 0 (174 + ch % 64)) true (noticeHealth (0x8000 + ch) 9 s2)

def execStackChannelFail (ch : Nat) (s : State) : Host.Outcome State Fault Refusal := .next (failChannel ch s)

/-- The partition of a stack channel runs a job and is not in Hold: its channel is refreshed in gaps only (R466). -/
def State.chanBusy (s : State) (ch : Nat) : Bool :=
  s.parts.any (fun e => e.2.chans.contains ch && e.2.hold.isNone && e.2.runJob.isSome)

/-- A refresh of a channel (R466): at any time while its partition does not run; else in a gap, when 2,880 grid cycles have passed or the
stack is above 85 °C. -/
def execStackRefresh (ch : Nat) (s : State) : Host.Outcome State Fault Refusal :=
  let last := s.mem.refreshAt.val ch 0
  let hot := decide (85 < s.pwr.temps.val (8 + ch / 16) 0)
  if 128 ≤ ch ∨ !s.ident.variant.hasStack (ch / 16) then .next s
  else if !s.chanBusy ch || hot || decide (last + 2880 ≤ s.clk.cycle) then
    .next (s.setMem (fun m => { m with refreshAt := m.refreshAt.put ch s.clk.cycle }))
  else .next s

end Sys2Proof.Machine
end

