-- ==== Sys2Proof/Machine/Steps.lean ====
section
/-! DEFINITION. Steps and layers: what the end of a step delivers, layer boundaries and seams, switches between jobs, planned actions
(07_partitions_jobs_timeslices.md, R288-R298; 04, R162; 01, R27, R40). -/

namespace Sys2Proof.Machine

open Sys2Proof

/-! ## The end of a step (R115, R143, R162, R176, R201, R215) -/

/-- The operation of a step leaves its entry. -/
def popOp (e pkt : Nat) (s : State) : State := s.modSeq e (fun x => { x with ops := x.ops.filter (fun o => o.pkt != pkt) })

/-- Deliver what a step of an operation gave: a feed's final record after its last chunk (R162), a step's output, final with the last step,
with the model's end, or with MAX_TOKENS positions. -/
def deliver (e : Nat) (o : SeqOp) (s : State) : State :=
  let x := s.seq e
  let h := if x.transient then 0 else seqHandleOf e x.reuse
  if x.victim then
    -- the step in flight of a reclaim victim gives a non-final record, whatever it ends (R201)
    (if o.kind = opFeed then s
     else report o.pkt (match x.posted with | some r => r.status | none => stOk) (match x.posted with | some r => r.detail | none => 0) (match x.posted with | some r => r.result | none => []) s)
  else if o.kind = opFeed then
    if o.left = 0 ∧ o.closed ∧ x.nextOpPkt ≠ o.pkt then finish o.pkt stOk 0 h (le 4 x.positions) false (popOp e o.pkt s) else s
  else
    let r := x.posted
    let status := match r with | some r => r.status | none => stOk
    let detail := match r with | some r => r.detail | none => 0
    let result := match r with | some r => r.result | none => []
    let ended : Bool := match r with | some r => r.fin | none => false
    let full := decide (!x.transient ∧ 0 < o.left ∧ x.maxTok ≤ x.positions ∧ x.nextOpPkt ≠ o.pkt)
    if (o.left = 0 ∧ x.nextOpPkt ≠ o.pkt) ∨ ended ∨ status = stPartial then finish o.pkt status detail h result false (popOp e o.pkt s)
    else if full then finish o.pkt stOk 2 h result false (popOp e o.pkt s)
    else report o.pkt status detail result s

/-- The end of the step that an entry ran. -/
def entryStepEnd (s : State) (e : Nat) : State :=
  let x := s.seq e
  let step := x.ops.any (fun o => decide (o.pkt = x.stepPkt ∧ o.kind = opStep))
  let s1 := s.modSeq e (fun x => { x with
    positions := x.positions + x.stepItems, tokens := x.tokens + b2n step, steps := x.steps + 1 })
  let s2 := match x.ops.find? (fun o => o.pkt == x.stepPkt) with
    | some o => deliver e o s1
    | none => s1
  let y := s2.seq e
  if y.state = 5 ∨ y.gen ≠ (s.fn y.fn).gen then
    let ids := y.ops.map (·.pkt)
    if y.nextOpPkt ≠ 0 then s2.modSeq e (fun x => { x with posted := none, stepPkt := x.nextOpPkt, stepItems := x.nextItems, nextOpPkt := 0, nextItems := 0 })
    else freeEntry e (dropPkts ids s2)
  else if y.victim then
    if y.nextOpPkt ≠ 0 then s2.modSeq e (fun x => { x with posted := none, stepPkt := x.nextOpPkt, stepItems := x.nextItems, nextOpPkt := 0, nextItems := 0 })
    else freeEntry e (endOps e stCancelled 3 s2)
  else
    let s3 := s2.modSeq e (fun x => { x with
      posted := none, stepPkt := x.nextOpPkt, stepItems := x.nextItems, nextOpPkt := 0, nextItems := 0
      state := if x.state = 3 ∧ x.nextOpPkt = 0 then 1 else x.state })
    settleSeq e s3

/-- Reclaim victims of a function remain (R202). -/
def settleReclaim (s : State) : State :=
  { s with fns := s.fns.updAll (fun f x =>
      { x with reclaiming := x.reclaiming && s.seqs.any (fun e => e.2.victim && decide (e.2.fn = f)) }) }

/-- A job's step ends: its entries in rank order, the tiles' starting state (R665), the counts, and the coming step's number. -/
def endStep (job : Nat) (s : State) : State :=
  match s.jobs.look job with
  | none => s
  | some b =>
    let s1 := settleReclaim (b.occupied.foldl entryStepEnd s)
    (startingState b.part s1).modJob job (fun b => { b with
      occupied := []
      steps := b.steps + 1
      step := b.step + 1
      layer := 0
      stepStart := none
      wakeIdx := []
      xferIdx := []
      lateCols := [] })

/-- A job's next step begins: what its close admitted holds the positions. -/
def beginStep (job : Nat) (s : State) : State :=
  match s.jobs.look job with
  | none => s
  | some b =>
    let s1 := forEach b.admitted s (fun s e => s.modSeq e (fun x =>
      if x.stepPkt = 0 then { x with stepPkt := x.nextOpPkt, stepItems := x.nextItems, nextOpPkt := 0, nextItems := 0 } else x))
    s1.modJob job (fun b => { b with occupied := b.admitted, admitted := [], closed := false, stepStart := some s.clk.tick, offset := 0, layer := 0 })

/-! ## Which job runs next (R291) -/

/-- The job has work for its next step or layer, or became ready from Idle (R290). -/
def Job.ready (b : Job) : Bool := (b.state == 2) || (b.state == 3) || ((b.state == 1) && b.readyAt.isSome)

/-- The next of equal jobs in job-number order after one. -/
def nextJob (after : Nat) (l : List Nat) : Option Nat :=
  match l.find? (fun j => decide (after < j)) with
  | some j => some j
  | none => l.head?

/-- The pick of R291 among ready jobs (number, priority), with the running job if it is ready and whether it stands at its step boundary. -/
def pickJob (c : List (Nat × Nat)) (run : Nat) (stays atStep : Bool) : Option Nat :=
  match c with
  | [] => none
  | _ =>
    let p := c.foldl (fun m e => min m e.2) 7
    let top := (c.filter (fun e => decide (e.2 = p))).map (·.1)
    if stays && top.contains run && (!atStep || top == [run]) then some run else nextJob run top

/-- The tiles of a partition hold a tile semaphore or a loaned credit of the job (R297, R349, R354). -/
def State.jobHolds (s : State) (q : Part) (job : Nat) : Bool :=
  s.tiles.any (fun e => q.cols.contains (colOf e.1) && (decide (e.2.semJob = job ∧ e.2.semHeld ≠ 0) || decide (e.2.loanJob = job ∧ e.2.loaned ≠ 0)))

/-- The keys of the registers a context keeps: g0-g7 and the window at depth 0. -/
def ctxKeys : List Nat := List.range 24

/-- The context of a tile's task. -/
def Tile.context (x : Tile) : Context :=
  { pc := x.pc, regs := x.regs.keep (fun i _ => ctxKeys.contains i), depth := x.depth, low := x.low, spillBase := x.spillBase,
    spillBytes := x.spillBytes, trapVec := x.trapVec, semKind := x.semKind, live := true }

/-- Save the job's context of every tile into its context store (R292). -/
def saveContexts (q : Part) (job entry : Nat) (s : State) : State :=
  { s with tiles := s.tiles.updAll (fun k x =>
      if q.cols.contains (colOf k) && x.job == some job then
        { x with
          job := none
          run := if x.run = 3 then 3 else 0
          ctx := x.ctx.put entry x.context }
      else x) }

/-- Restore the context of the incoming job on every tile with a task for its entry (R292). -/
def loadContexts (q : Part) (job entry : Nat) (s : State) : State :=
  { s with tiles := s.tiles.updAll (fun k x =>
      let c := x.ctx.val entry {}
      if q.cols.contains (colOf k) && c.live then
        { x with
          job := some job
          run := 0
          pc := c.pc
          regs := if c.fresh then [] else c.regs ++ x.regs.keep (fun i _ => !ctxKeys.contains i)
          vregs := if c.fresh then [] else x.vregs
          depth := c.depth
          low := c.low
          spillBase := c.spillBase
          spillBytes := c.spillBytes
          trapVec := c.trapVec
          semKind := c.semKind
          semHeld := lockMask c.semKind x.sems
          semJob := job
          bpPassed := false }
      else x) }

/-- Bring a partition's tiles to the state that the incoming job's schedule gives at its offset (R668). -/
def bringTiles (part job : Nat) (s : State) : State :=
  match s.parts.look part, s.jobs.look job with
  | some q, some b =>
    match q.season with
    | none => s
    | some x =>
      let many := decide (1 < q.svcs.length)
      let s1 := { s with tiles := s.tiles.updAll (fun k y =>
        if q.cols.contains (colOf k) ∧ y.power ≠ 2 then
          let on := match s.logOf k with | some i => schedAwake many x.wakes (tileName i) b.offset | none => false
          if on then { y with power := 1, ucWoken := none, waking := false, gateDue := false }
          else if y.power = 1 ∧ y.ucWoken.isSome then { y with gateDue := false }
          else { y with power := 0, gateDue := false }
        else y) }
      s1.modJob job (fun b => { b with wakeIdx := (List.range x.wakes.length).filter (fun n =>
        match x.wakes[n]? with
        | some e => decide (e.offset ≤ b.offset) && (decide (e.action = 1 ∨ e.action = 2) || many || b.wakeIdx.contains n)
        | none => false) })
  | _, _ => s

/-- The running job loses the tiles: Waiting with its admitted work, counted as a pre-emption (R296), or Idle. -/
def deschedule (job : Nat) (idle : Bool) (s : State) : State :=
  match s.jobs.look job with
  | none => s
  | some b =>
    match s.parts.look b.part with
    | none => s
    | some q =>
      let s1 := (saveContexts q job b.entry s).modPart b.part (fun q => { q with runJob := none })
      if idle then s1.modJob job (fun b => { b with state := 1, closed := false, readyAt := none, readyIn := none })
      else
        let held := (b.occupied ++ b.admitted).flatMap (fun e => (s1.seq e).ops.filterMap (fun o => (s1.pkts.look o.pkt).map (·.qp)))
        let s2 := forEach held.dedup s1 (fun s k => s.modQp k (fun q => { q with acct := { q.acct with preempts := sat 32 (q.acct.preempts + 1) } }))
        s2.modJob job (fun b => { b with state := 3, preempts := b.preempts + 1 })

/-- Begin a switch to a job (R292). -/
def beginSwitch (part job : Nat) (s : State) : State := s.modPart part (fun q => { q with switch := some (job, s.clk.cycle) })

/-- The ready jobs of a partition with their priorities; fabric-slot jobs start at their Month instead (R33). -/
def State.readyJobs (s : State) (part : Nat) : List (Nat × Nat) :=
  (s.jobs.filter (fun e => decide (e.2.part = part) && e.2.ready)).map (fun e => (e.1, e.2.prio))

/-- With no job on the tiles, the ready job that comes first takes them (R291). -/
def pickIdle (part : Nat) (s : State) : State :=
  match s.parts.look part with
  | none => s
  | some q =>
    let owns : Bool := match q.season with | some x => x.ownsSlots | none => true
    if q.runJob.isSome ∨ q.switch.isSome ∨ q.hold.isSome ∨ q.resetting ∨ owns ∨ q.stop.state ≠ 0 then s
    else
      match pickJob (s.readyJobs part) 64 false false with
      | some j => beginSwitch part j s
      | none => s

/-- A switch completes (R292, R312, R668): the incoming job runs with the tiles as its schedule has them, and begins its step where none is in
progress, for which every column has been powered (R665). -/
def execJobSwitchDone (job : Nat) (s : State) : Host.Outcome State Fault Refusal :=
  match s.jobs.look job with
  | none => .next s
  | some b =>
    match s.parts.look b.part with
    | none => .next s
    | some q =>
      match q.switch with
      | none => .next s
      | some (j, _) =>
        if j ≠ job ∨ b.state = 4 ∨ (b.stepStart.isNone ∧ s.colsMove q = true) then .next s
        else
          let s1 := (loadContexts q job b.entry s).modPart b.part (fun q =>
            { q with runJob := some job, switch := none, switchMax := max q.switchMax (sat 32 b.waited) })
          let s2 := s1.modJob job (fun b => { b with state := 2, readyAt := none, readyIn := none, waited := 0 })
          .next (bringTiles b.part job (if b.stepStart.isNone then beginStep job s2 else s2))

/-! ## Layer boundaries (R215, R291, R296-R298, R307, R371, R733, R940) -/

/-- The digests of a job entry move on at a layer's end (R733). -/
def shiftDigests (q : Part) (entry : Nat) (s : State) : State :=
  { s with tiles := s.tiles.updAll (fun k x =>
      if q.cols.contains (colOf k) then
        { x with digest := ((x.digest.put (32 + entry) (x.digest.val (16 + entry) 0)).put (16 + entry) (x.digest.val entry 0)).put entry 0 }
      else x) }

/-- Old-generation entries of a job become Closing without records (R215); those that no step holds are returned at once. -/
def closeOld (b : Job) (sid : Nat) (s : State) : State :=
  forEach (s.entriesOf b.part sid) s (fun s e =>
    let x := s.seq e
    if x.gen = (s.fn x.fn).gen then s
    else
      let held := b.occupied.contains e || b.admitted.contains e
      let ids := (x.ops.filter (fun o => o.pkt != x.stepPkt)).map (·.pkt)
      let s1 := dropPkts ids (s.modSeq e (fun x => { x with state := 5, ops := x.ops.filter (fun o => o.pkt == x.stepPkt) }))
      if held then s1 else freeEntry e (dropPkts (x.ops.map (·.pkt)) s1))

/-- The rest of a job's work ends with PARTITION_DRAINING (R307), the job stays. -/
def drainWork (job : Nat) (s : State) : State := endJobWork job stPartDrain 0 s

/-- The task of an ended job is gone from a tile. -/
def Tile.endTask (x : Tile) (job : Nat) : Tile :=
  if x.job = some job then
    { (x.dropJob job) with run := 0, job := none, inBlk := false, blkEngine := none, lock := none, watch := none, haltReq := none }
  else x.dropJob job

/-- A partition whose drain is over is no longer Draining (R307): its operation ends. -/
def settleDrain (part : Nat) (s : State) : State :=
  match s.parts.look part with
  | none => s
  | some q =>
    match q.drain with
    | none => s
    | some (_, o) =>
      if s.jobsOf part = [] then
        let s1 := s.setPart part { q with drain := none, draining := false }
        let s2 := noticePart part s1
        if o = 0 then s2 else endOp (o - 1) 0 0 s2
      else s

/-- A job ends without a fault (R307): its work with PARTITION_DRAINING, its tiles' tasks stop, the job goes with a JOB_ENDED notice. -/
def endJob (job : Nat) (s : State) : State :=
  match s.jobs.look job with
  | none => s
  | some b =>
    let s1 := dropTransfers (fun t => decide (t.job = job ∧ t.part = b.part)) (drainWork job s)
    let mine := match s.parts.look b.part with | some q => q.cols | none => []
    let s2 := { s1 with tiles := s1.tiles.updAll (fun k x =>
      if mine.contains (colOf k) then { (x.endTask job) with ctx := x.ctx.del b.entry } else x) }
    let s3 := s2.modPart b.part (fun q => { q with
      runJob := if q.runJob = some job then none else q.runJob
      switch := match q.switch with | some (j, t) => if j = job then none else some (j, t) | none => none })
    noticeJob job stPartDrain 0 (restTiles b.part { s3 with jobs := s3.jobs.del job })

/-- At a step's end in a draining partition, an operation that has work left and is not admitted again ends PARTITION_DRAINING (R648). -/
def drainLeft (job : Nat) (s : State) : State :=
  match s.jobs.look job with
  | none => s
  | some b =>
    let sid := ((s.parts.val b.part {}).svcs.val b.entry {}).sid
    forEach ((s.entriesOf b.part sid).filter (fun e => !b.admitted.contains e)) s (fun s e =>
      let gone := (s.seq e).ops.filter (fun o => o.admAt.isSome && o.kind != opClose)
      let s1 := s.modSeq e (fun x => { x with ops := x.ops.filter (fun o => !(o.admAt.isSome && o.kind != opClose)) })
      settleSeq e (forEach gone s1 (fun s o => fail o.pkt stPartDrain 0 s)))

/-- A tile of the job is in a locked sequence or a block operation, or at a window depth other than 0 (R371). -/
def State.layerOpen (s : State) (q : Part) (job : Nat) : Bool :=
  s.tiles.any (fun e => q.cols.contains (colOf e.1) && e.2.job == some job && (e.2.lock.isSome || e.2.inBlk || e.2.depth != 0))

/-- The end of a layer of the running job: old-generation entries, digests, the step's end, the pick, seams, the switch. -/
def execLayerBoundary (job : Nat) (s : State) : Host.Outcome State Fault Refusal :=
  match s.jobs.look job with
  | none => .next s
  | some b =>
    match s.parts.look b.part with
    | none => .next s
    | some q =>
      match q.season with
      | none => .next s
      | some se =>
        let last := decide (se.layerEnds.length ≤ b.layer + 1)
        let due := if last then se.stepCycles else se.layerEnds.getD b.layer se.stepCycles
        if b.state ≠ 2 ∨ q.runJob ≠ some job ∨ q.hold.isSome ∨ q.switch.isSome ∨ q.stop.state = 1 ∨ q.stop.state = 2 ∨ b.offset < due then .next s
        else if s.layerOpen q job then .next (brokenSeason job s)
        else
          let v := q.svcs.val b.entry {}
          let s1 := (shiftDigests q b.entry (closeOld b v.sid s)).modJob job (fun b => { b with compared := false })
          let past : Bool := match q.drain with | some (t, _) => decide (t = 0) | none => false
          if past then .next (settleDrain b.part (endJob job s1))
          else
          let s2 := if last then endStep job s1 else s1.modJob job (fun b => { b with layer := b.layer + 1 })
          let draining := q.draining && last
          let s2 := if draining then drainLeft job s2 else s2
          if draining && se.ownsSlots && (match s2.jobs.look job with | some x => x.admitted == [] | none => true) then
            .next (settleDrain b.part (endJob job s2))
          else
            match s2.jobs.look job with
            | none => .next s2
            | some b2 =>
              let work := se.ownsSlots || !last || b2.admitted != []
              let others := (s2.readyJobs b.part).filter (fun e => decide (e.1 ≠ job))
              let pick := if se.ownsSlots ∨ q.stop.state = 3 then some job
                else pickJob (sortKey (fun e => [e.1]) (if work then others ++ [(job, b2.prio)] else others)) job work last
              let seam := decide (pick ≠ some job)
              let holds := s2.jobHolds q job
              let go (s : State) : State := if last then beginStep job s else s
              if seam && holds then
                if b2.heldSeam then .next (beginKill job stJobLost 3 s2)
                else .next (go (s2.modJob job (fun b => { b with heldSeam := true, overruns := sat 32 (b.overruns + 1) })))
              else
                let s3 := s2.modJob job (fun b => { b with heldSeam := false })
                if !seam then .next (go s3)
                else
                  let s4 := deschedule job (!work) s3
                  .next (match pick with | some j => beginSwitch b.part j s4 | none => s4)

/-- A drain's grace is over (R307, R314, R649): the jobs that do not run end with the remaining work; the running job, or the one being
switched in, ends at its next layer boundary, but in Hold or debug stop at once (R892, R939). -/
def execDrainGraceExpiry (part : Nat) (s : State) : Host.Outcome State Fault Refusal :=
  match s.parts.look part with
  | none => .next s
  | some q =>
    match q.drain with
    | none => .next s
    | some (t, o) =>
      if s.clk.tick < t then .next s
      else
        let now := q.hold.isSome || decide (q.stop.state ≠ 0)
        let on (j : Nat) : Bool := decide (q.runJob = some j) || (match q.switch with | some (k, _) => k == j | none => false)
        let go := (s.jobsOf part).filter (fun j => now || !on j)
        let s1 := endStop part (s.setPart part { q with drain := some (0, o) })
        .next (settleDrain part (forEach go s1 (fun s j => endJob j s)))

/-- A job of a draining partition has nothing more to do: no admitted work, no close to come, no problem. -/
def State.drained (s : State) (b : Job) : Bool :=
  let sid := ((s.parts.val b.part {}).svcs.val b.entry {}).sid
  if b.solver then
    !s.solvers.any (fun v => v.2.skels.any (fun k => decide (k.2.part = b.part ∧ k.2.sid = sid) && k.2.queue != [])
      || v.2.ctxs.any (fun c => let k := v.2.skels.val c.2.skel {}; decide (k.part = b.part ∧ k.sid = sid)))
  else decide (b.state = 1) && b.admitted == [] && !b.closeDue

/-- The jobs of a draining partition that have finished their admitted work end, and with the last of them the drain (R307, R648). -/
def endDrained (part : Nat) (s : State) : State :=
  match s.parts.look part with
  | none => s
  | some q =>
    if q.drain.isNone then s
    else
      let done := (s.jobs.filter (fun e => decide (e.2.part = part) && s.drained e.2)).map (·.1)
      settleDrain part (forEach done s (fun s j => endJob j s))

/-- The solver problems of a partition that have not started end REFUSED_DRAINING when a drain begins (15, after R649). -/
def refuseQueued (part : Nat) (s : State) : State :=
  let mine := s.solvers.flatMap (fun v => (v.2.skels.filter (fun k => decide (k.2.part = part))).map (fun k => (v.1, k.1)))
  forEach mine s (fun s e =>
    let k := (s.solver e.1).skels.val e.2 {}
    let s1 := s.modSolver e.1 (fun v => { v with skels := v.skels.upd e.2 (fun k => { k with queue := [] }) })
    settleDrops e.1 (forEach k.queue s1 (fun s b => answerProblem b (skelHandle e.1 e.2 k.reuse) stDraining 1 [] s)))

/-- A drain begins (R179, R307, R647): the grace in ms, and 1 + the operation that waits for it, 0 for Autumn. A drain in progress goes on with
the earlier end. -/
def beginDrain (part graceMs op : Nat) (s : State) : State :=
  match s.parts.look part with
  | none => s
  | some q =>
    let stop := if graceMs = 0 then 0 else s.clk.tick + 1000 * graceMs
    match q.drain with
    | some (t, o) => s.setPart part { q with drain := some (min t stop, if o = 0 then op else o) }
    | none => refuseQueued part (noticePart part (s.setPart part { q with draining := true, drain := some (stop, op) }))

/-! ## Planned actions (R27, R40, R429, R446, R454-R456) -/

/-- The tile store takes 64 bytes of a flit with the poison of their halves. -/
def putFlit (p : Nat) (f : PlanFlit) (s : State) : State :=
  s.modTile p (fun x => x.storeWrite f.addr f.data (fun g => f.poison.contains (g - f.addr / 32) || decide (f.err = 2)))

/-- A timetabled flit: at the sending end of the Half Link it takes a timetabled credit (R444, R446); at the far end it returns it; at its last
hop it is stored. Errors are counted where they struck (R455, R456). -/
def planFlit (job : Nat) (f : PlanFlit) (s : State) : State :=
  let count (s : State) : State :=
    s.setHl (fun h =>
      match f.lane with
      | some _ => { h with ce := if f.err = 1 then sat 16 (h.ce + 1) else h.ce, ue := if f.err = 2 then sat 16 (h.ue + 1) else h.ue }
      | none =>
        let k := f.dst / 384
        { h with
          meshCe := if f.err = 1 then h.meshCe.put k (sat 16 (h.meshCe.val k 0 + 1)) else h.meshCe
          meshUeData := if f.err = 2 then h.meshUeData.put k (sat 16 (h.meshUeData.val k 0 + 1)) else h.meshUeData })
  match f.lane, f.onLink with
  | some (dir, _), true =>
    let used := s.hl.ttAvail.val dir 0
    if 1920 ≤ used then brokenSeason job s else s.setHl (fun h => { h with ttAvail := h.ttAvail.put dir (used + 1) })
  | lane, _ =>
    let s1 := match lane with
      | some (dir, _) => count (s.setHl (fun h => { h with ttAvail := h.ttAvail.put dir (h.ttAvail.val dir 0 - 1) }))
      | none => count s
    let p := s.physOf f.dst
    let resetting := match s.partOfTile p with | some q => (match s.parts.look q with | some y => y.resetting | none => false) | none => false
    if resetting then s1
    else if (s.tile p).power ≠ 1 then brokenSeason job s1
    else putFlit p f s1

/-- A message of a planned channel reaches its receiver (R351): the oldest on the wire. -/
def planMessage (p chan : Nat) (s : State) : State :=
  let x := s.tile p
  let c := x.chans.val chan {}
  match c.wire with
  | [] => s
  | m :: rest =>
    let s1 := s.setTile p { x with posted := x.posted - 1, chans := x.chans.put chan { c with wire := rest } }
    chanDeliver (s.physOf c.dst) c.dstChan ((s.logOf p).getD 768) m.1 m.2 s1

/-- A planned action of a running job is issued at its offset (R27), or found broken (R40, R429). -/
def execPlannedAction (job : Nat) (a : PlannedAction) (s : State) : Host.Outcome State Fault Refusal :=
  match s.jobs.look job with
  | none => .next s
  | some b =>
    .next (match a with
      | .flit f => if b.state = 4 then s else planFlit job f s
      | .message t c => planMessage t c s
      | .stray => if b.state = 4 then s else brokenSeason job s
      | .missed _ => if b.state = 4 then s else brokenSeason job s)

end Sys2Proof.Machine
end

