-- ==== Sys2Proof/Machine/Fabric.lean ====
section
/-! DEFINITION. Fabric ports, slots, frames, device semaphores and the Almanac (12_fabric_and_almanac.md; 16, R706-R711). -/

namespace Sys2Proof.Machine

open Sys2Proof

/-! ## Names of states -/

def portOff : Nat := 0
def portListen : Nat := 1
def portTraining : Nat := 2
def portUp : Nat := 3
def portMember : Nat := 4
def portDown : Nat := 5
def almNone : Nat := 0
def almJoining : Nat := 1
def almInStep : Nat := 2
def almOut : Nat := 3
def almAdrift : Nat := 4
def almLeaving : Nat := 5

/-- The device belongs to a domain: it has joined and not left. -/
def Alm.belongs (a : Alm) : Bool := decide (a.state = almInStep ∨ a.state = almOut ∨ a.state = almAdrift ∨ a.state = almLeaving)

/-! ## Ownership of slots (R512-R515; 12, Table: Ownership entry) -/

/-- The Month of the step that a domain Month is: steps begin at its multiples of MONTHS_PER_STEP (R518). -/
def Season.monthOf (x : Season) (domainMonth : Nat) : Nat := domainMonth % max 1 x.monthsPerStep

/-- The send entry that owns slot `n` of a port in a domain Month: its partition and itself. -/
def State.sendEntry (s : State) (port n : Nat) : Option (Nat × OwnEntry) :=
  s.parts.findSome? (fun e =>
    match e.2.season with
    | some x =>
      if x.ownsSlots then
        (x.own.find? (fun o => !o.recv && decide (o.port = port ∧ o.month = x.monthOf s.alm.month ∧ o.first ≤ n ∧ n < o.first + o.slots))).map (fun o => (e.1, o))
      else none
    | none => none)

/-- The bytes that slot `i` of an entry carries (R512). -/
def OwnEntry.slotBytes (o : OwnEntry) (i : Nat) : Nat := min 4000 (o.bytes - 4000 * i)

/-- A receive entry expects slot `n` of a port, counted in the sender's numbers, in the sender's Month. -/
def OwnEntry.expects (o : OwnEntry) (port month n : Nat) : Bool :=
  o.recv && decide (o.port = port ∧ o.month = month ∧ o.first ≤ n ∧ n < o.first + o.slots)

/-- The slots a Season expects to arrive in a local Month of the step: entry, slot number. Those that the receive lag carries past the Month
boundary arrive in the next (12, Slots and ownership; log 32). -/
def Season.expected (x : Season) (m : Nat) : List (OwnEntry × Nat) :=
  let prev := (m + max 1 x.monthsPerStep - 1) % max 1 x.monthsPerStep
  x.own.flatMap (fun o =>
    let lag := x.lags.getD o.port 0
    let l := (List.range o.slots).map (fun i => o.first + i)
    if !o.recv then []
    else if o.month = m ∧ o.month = prev then l.map (fun n => (o, n))
    else if o.month = m then (l.filter (fun n => decide (n + lag < 1024))).map (fun n => (o, n))
    else if o.month = prev then (l.filter (fun n => decide (1024 ≤ n + lag))).map (fun n => (o, n))
    else [])

/-- The job of a partition that owns slots, once its first step has begun. -/
def State.slotJob (s : State) (part : Nat) : Option (Nat × Job) :=
  s.jobs.find? (fun e => decide (e.2.part = part) && e.2.stepStart.isSome)

/-- The job of a partition can supply its slots now (R38, R514, R874). -/
def State.supplies (s : State) (part : Nat) : Bool :=
  match s.parts.look part, s.slotJob part with
  | some q, some (j, b) => decide (b.state = 2 ∧ q.runJob = some j ∧ q.stop.state = 0) && q.hold.isNone && !q.resetting
  | _, _ => false

/-- Kill every job whose Season owns slots (R524, R529). -/
def killSlotJobs (status detail : Nat) (s : State) : State :=
  forEach s.jobs s (fun s e =>
    match s.parts.look e.2.part with
    | some q => (match q.season with | some x => if x.ownsSlots then beginKill e.1 status detail s else s | none => s)
    | none => s)

/-! ## Frames waiting (R531, R533, R711) -/

/-- A frame's place in the filling order: 0 ALM_CTRL and DELAY, 1 SIGNAL_ACK and SEM_DATA, 2 engines' frames, 3 partitions' (R533). -/
def frameClass (e : Nat × Frame) : Nat :=
  if e.2.typ = 5 ∨ e.2.typ = 6 ∨ e.2.typ = 7 then 0 else if e.2.typ = 2 ∨ e.2.typ = 4 then 1 else if 8 ≤ e.1 then 2 else 3

/-- The port may carry the frame (R711; 12, Fabric failures: a foreign port carries none). -/
def State.mayCarry (s : State) (x : Port) (fr : Frame) : Bool :=
  if frameClass (8, fr) = 0 then !x.foreign else decide (x.state = portMember) && s.alm.belongs

/-- Partitions' frames in round robin after the one last served: one frame of each partition in its turn (R533). -/
def robinFrames (last : Nat) : Nat → List (Nat × Frame) → List (Nat × Frame)
  | 0, _ => []
  | n + 1, l =>
    match l.map (fun e => (e.1 + 7 - last) % 8) with
    | [] => []
    | k :: ks =>
      let d := ks.foldl min k
      match l.find? (fun e => decide ((e.1 + 7 - last) % 8 = d)) with
      | some e => e :: robinFrames e.1 n (l.erase e)
      | none => []

/-- The first `n` frames of a queue in the order of R533. -/
def pickFrames (last n : Nat) (l : List (Nat × Frame)) : List (Nat × Frame) :=
  let c (k : Nat) : List (Nat × Frame) := l.filter (fun e => decide (frameClass e = k))
  (c 0 ++ c 1 ++ c 2 ++ robinFrames last (c 3).length (c 3)).take n

/-- The signal target of a waiting frame of this device's own signals. -/
def State.frameTarget (s : State) (fr : Frame) : Option (Nat × Nat) :=
  if fr.typ = 1 ∧ fr.src = s.alm.device then (s.alm.sigs.look fr.seq).map (fun g => (g.fn, g.target)) else none

/-- Frames that no earlier signal of their own target keeps back: signals of one target leave in their order, whichever classes
their work gives them (R127). -/
def State.inTurn (s : State) : List (Nat × Frame) → List (Nat × Frame) → List (Nat × Frame)
  | _, [] => []
  | seen, e :: l =>
    let rest := s.inTurn (seen ++ [e]) l
    match s.frameTarget e.2 with
    | some t => if seen.any (fun b => decide (b.1 ≠ e.1 ∧ s.frameTarget b.2 = some t)) then rest else e :: rest
    | none => e :: rest

/-- The frames that a partition's regulator of unplanned fabric traffic lets go, in their order (R300, R531): 32 bytes of tokens each. -/
def throughRegulator : List (Nat × Frame) → State → List (Nat × Frame)
  | [], _ => []
  | e :: l, s =>
    if 8 ≤ e.1 then e :: throughRegulator l s
    else match takeTokens e.1 3 32 s with
      | some s1 => e :: throughRegulator l s1
      | none => throughRegulator l s

/-- The tokens of the frames that a slot takes. -/
def payFrames (l : List (Nat × Frame)) (s : State) : State :=
  forEach l s (fun s e => if 8 ≤ e.1 then s else (takeTokens e.1 3 32 s).getD s)

/-- Remove frames from a queue. -/
def eraseFrames (l gone : List (Nat × Frame)) : List (Nat × Frame) := gone.foldl (fun l e => l.erase e) l

/-! ## Sending (R509-R514, R520, R531, R555) -/

/-- The POISON field of a payload read from memory: bit j where a 64-byte flit that overlaps bytes 250j to 250j + 249 is poisoned (R555). -/
def poisonBits (s : State) (q : Part) (a n : Nat) : Nat :=
  (List.range 16).foldl (fun m j =>
    let lo := 250 * j
    let hi := min n (lo + 250)
    if lo < hi ∧ (List.range ((a + hi - 1) / 64 + 1 - (a + lo) / 64)).any (fun i =>
        let p := s.poisonVa q (((a + lo) / 64 + i) * 64)
        p.1 || p.2)
    then m + 2 ^ j else m) 0

/-- One slot of an Up port (R509): planned, SILENT, unplanned with frames, or IDLE. `supplied`: the planned flits have reached the face link by the
slot's start (R513). -/
def execSlotSend (port : Nat) (supplied : Bool) (s : State) : Host.Outcome State Fault Refusal :=
  let x := s.port port
  let n := s.clk.phase / 60
  if !x.isUp ∨ !s.ident.variant.hasPort port ∨ !s.clk.monthsOn ∨ 1024 ≤ n ∨ n < x.slot then .next s
  else
    let credits := min 125 x.owed
    let eq := decide (n = 0 ∧ s.alm.month % 256 = 0 ∧ x.state = portMember ∧ s.alm.state ≠ almLeaving) && s.alm.belongs
    let head : FabSlot := { slot := n, month := s.alm.month % 256, credits := credits, equinox := eq, eqCount := if eq then s.alm.month / 256 % 2 ^ 32 else 0 }
    let sent (f : FabSlot) (s : State) : State :=
      (s.modPort port (fun x => { x with slot := n + 1, owed := x.owed - credits })).emit (.slot port f)
    let silent : State := sent { head with kind := 2 } s
    let owner := if x.state = portMember then s.sendEntry port n else none
    match owner with
    | some (part, o) =>
      if !s.supplies part then .next silent
      else if !supplied then .next (match s.slotJob part with | some (j, _) => brokenSeason j silent | none => silent)
      else
        match s.parts.look part with
        | none => .next silent
        | some q =>
          let k := o.slotBytes (n - o.first)
          let a := o.dva + 4000 * (n - o.first)
          match s.readVa q a k with
          | .ok (b, _) => .next (sent { head with kind := 0, flow := o.flow, bytes := k, poison := poisonBits s q a k, payload := b } s)
          | _ => .next (match s.slotJob part with | some (j, _) => brokenSeason j silent | none => silent)
    | none =>
      let l := pickFrames x.lastPart (min 125 x.credits) (throughRegulator (s.inTurn [] (x.queue.filter (fun e => s.mayCarry x e.2))) s)
      if l = [] then .next (sent { head with kind := 3 } s)
      else
        let s1 := (payFrames l s).modPort port (fun x => { x with
          queue := eraseFrames x.queue l
          credits := x.credits - l.length
          sentUncred := x.sentUncred + l.length
          lastPart := match (l.filter (fun e => decide (e.1 < 8))).getLast? with | some e => e.1 | none => x.lastPart })
        .next (sent { head with kind := 1, frames := l.map (·.2) } s1)

/-! ## Frames that arrive (R527-R532, R535-R540, R711) -/

/-- An access violation at a target on the host port die: source 155 of both halves (R818). -/
def violationHost (master target need : Nat) (s : State) : State := intcHalf 1 155 (violation 0 master target need s)

/-- Send a frame towards a device. -/
def frameTo (dev arrived : Nat) (fr : Frame) (s : State) : State := enqueueFrame ((s.routeTo dev).getD arrived) 8 fr s

/-- A frame for another member goes on, or is discarded at the hop limit (R532). -/
def forward (port : Nat) (fr : Frame) (s : State) : State :=
  if 15 ≤ fr.hops then s.modPort port (fun x => { x with discard := sat 16 (x.discard + 1) })
  else
    match s.routeTo fr.dst with
    | some p => enqueueFrame p 8 { fr with hops := fr.hops + 1 } s
    | none => s

/-- The grant of a semaphore gives its source a permission, as it stands now (R552). -/
def State.granted (s : State) (fr : Frame) (read : Bool) : Bool :=
  let g := s.alm.grants.val (2048 * fr.half + fr.sem) {}
  (if read then g.read else g.signal) && (g.any || decide (g.device = fr.src))

/-- SIGNAL (R535-R537, R549): the increment, then the acknowledgement. -/
def takeSignal (port : Nat) (fr : Frame) (s : State) : State :=
  let ack (st : Nat) : Frame := { typ := 2, src := s.alm.device, dst := fr.src, half := fr.half, sem := fr.sem, seq := fr.seq, status := st }
  if s.granted fr false then frameTo fr.src port (ack 0) (settleWaits (addSem fr.half fr.sem fr.value s))
  else frameTo fr.src port (ack 1) (violationHost 0x2A2 6 2 s)

/-- SIGNAL_ACK (R538): the signal is settled; a denied one is lost. -/
def takeAck (fr : Frame) (s : State) : State :=
  match s.alm.sigs.look fr.seq with
  | none => s
  | some g =>
    let s1 := s.setAlm (fun a => { a with sigs := a.sigs.del fr.seq })
    releaseSigs g.fn g.target (
      if g.gen ≠ (s.fn g.fn).gen then s1
      else if fr.status = 1 then signalLost g.fn g.target g.tag s1
      else s1.modFn g.fn (fun y => { y with targets := y.targets.upd g.target (fun t => { t with acked := t.acked + 1 }) }))

/-- SEM_READ (R540). -/
def takeRead (port : Nat) (fr : Frame) (s : State) : State :=
  let ok := s.granted fr true
  let v := if ok then s.alm.sems.val (2048 * fr.half + fr.sem) 0 else 0
  frameTo fr.src port { typ := 4, src := s.alm.device, dst := fr.src, half := fr.half, sem := fr.sem, seq := fr.seq, status := b2n (!ok), value := v } s

/-- Ports whose peer is in the device's domain become Member while the device belongs to it, and the others do not (12, Member). -/
def settleMembers (s : State) : State :=
  forEach s.portList s (fun s p =>
    let x := s.port p
    let mine := s.alm.belongs && decide (s.alm.state ≠ almLeaving) && x.peerDomain == some s.alm.domain
    let other := s.alm.belongs && x.peerDomain.isSome && x.peerDomain != some s.alm.domain
    if !x.isUp then s
    else
      let s1 := s.setPort p { x with state := if mine then portMember else portUp, foreign := if x.peerDomain.isSome then other else x.foreign }
      if other && !x.foreign then noticeFabric p 9 s1 else s1)

/-- The port with the lowest advertised hop count among those whose peer is in the domain, the lowest number on ties (12, upstream port). -/
def State.bestUpstream (s : State) (but : Option Nat) : Option Nat :=
  let l := s.portList.filter (fun p => (s.port p).isUp && (s.port p).peerDomain == some s.alm.domain && some p != but)
  l.foldl (fun m p => match m with | none => some p | some q => if (s.port p).hops < (s.port q).hops then some p else some q) none

/-- The content of an ALM_CTRL frame; the spec leaves it open, and the model fixes it (log 33): VALUE[7:0] is 1 for a JOIN request, 2 for its
answer, 3 for LEAVE and 4 for an advertisement, VALUE[39:8] the DOMAIN; AUX[11:0] is the device number, AUX[15:12] the hop count, AUX[16] says that a
number is named or, in an answer, that the join is refused. -/
def almFrame (kind domain num hops : Nat) (flag : Bool) (src dst : Nat) : Frame :=
  { typ := 5, src := src, dst := dst, value := BitVec.ofNat 64 (kind + 256 * domain), aux := BitVec.ofNat 64 (num + 4096 * hops + 65536 * b2n flag) }

/-- The advertisement of a member. -/
def State.advert (s : State) : Frame := almFrame 4 s.alm.domain s.alm.device s.alm.hops false s.alm.device 0

/-- Advertise on every port that is up. -/
def advertise (s : State) : State := forEach s.portList s (fun s p => if (s.port p).isUp then enqueueFrame p 8 s.advert s else s)

/-- A join ends without having joined (R528). -/
def abandonJoin (s : State) : State :=
  match s.alm.joinOp with
  | none => s
  | some (op, _) =>
    endOp op 0x0107 0 (settleMembers (s.setAlm (fun a => { a with
      state := almNone, domain := 0, device := 0, upstream := 15, hops := 0, joinOp := none, numbered := false, locked := false, aligned := false, root := false })))

/-- ALM_CTRL (R527, R528, R530). -/
def takeAlm (port : Nat) (fr : Frame) (s : State) : State :=
  let kind := bits fr.value.toNat 7 0
  let domain := bits fr.value.toNat 39 8
  let num := bits fr.aux.toNat 11 0
  let hops := bits fr.aux.toNat 15 12
  let flag := bit fr.aux.toNat 16
  if kind = 1 then
    if !s.alm.belongs ∨ domain ≠ s.alm.domain then s
    else if !s.alm.root then
      if fr.hops < 15 ∧ s.alm.upstream ≠ port ∧ s.alm.upstream < 12 then enqueueFrame s.alm.upstream 8 { fr with hops := fr.hops + 1 } s else s
    else
      let n := if flag then (if s.alm.members.contains num then none else some num)
        else firstFree 4096 (fun i => !s.alm.members.contains i)
      match n with
      | some i => enqueueFrame port 8 (almFrame 2 domain i (fr.hops + 1) false s.alm.device i) (s.setAlm (fun a => { a with members := i :: a.members }))
      | none => enqueueFrame port 8 (almFrame 2 domain num (fr.hops + 1) true s.alm.device num) s
  else if kind = 2 then
    if s.alm.state ≠ almJoining ∨ domain ≠ s.alm.domain ∨ s.alm.numbered then s
    else if flag ∨ 8 < hops then abandonJoin s
    else
      let s1 := s.modPort port (fun x => { x with peerDomain := some domain, hops := if x.peerDomain = some domain then x.hops else hops - 1 })
      let up := s1.bestUpstream none
      s1.setAlm (fun a => { a with numbered := true, device := num, hops := hops, upstream := up.getD 15 })
  else if kind = 3 then
    let s1 := if (s.port port).peer = fr.src ∧ (s.port port).isUp then s.modPort port (fun x => { x with state := portUp, peerDomain := none }) else s
    if s.alm.root then s1.setAlm (fun a => { a with members := a.members.filter (· != fr.src) })
    else if s.alm.belongs ∧ s.alm.upstream ≠ port ∧ s.alm.upstream < 12 ∧ fr.hops < 15 then enqueueFrame s.alm.upstream 8 { fr with hops := fr.hops + 1 } s1
    else s1
  else if kind = 4 then
    settleMembers (s.modPort port (fun x => { x with peerDomain := some domain, peer := num, hops := hops }))
  else s

/-- A delay request is answered with its own AUX (R711; log 33). -/
def takeDelayReq (port : Nat) (fr : Frame) (s : State) : State :=
  enqueueFrame port 8 { typ := 7, src := s.alm.device, dst := fr.src, seq := fr.seq, aux := fr.aux } s

/-- A delay answer: half of the round trip, less the grid cycles that AUX says the peer held it, in units of 0.1 ns (R711; log 33). -/
def takeDelayRsp (port : Nat) (fr : Frame) (s : State) : State :=
  match (s.port port).chanDelay with
  | none => s
  | some t => s.modPort port (fun x => { x with chanDelay := none, delay := (s.clk.cycle - t - fr.aux.toNat) * 10 / 3 % 2 ^ 20 })

/-- A frame arrives on a port: its buffer entry is free again once it is taken, and its credit goes back (R531). -/
def frameArrives (port : Nat) (fr : Frame) (s : State) : State :=
  let x := s.port port
  if !x.isUp ∨ !s.mayCarry x fr then s
  else
    let s1 := s.setPort port { x with owed := x.owed + 1 }
    if fr.typ = 5 then takeAlm port fr s1
    else if fr.typ = 6 then takeDelayReq port fr s1
    else if fr.typ = 7 then takeDelayRsp port fr s1
    else if fr.dst ≠ s.alm.device then forward port fr s1
    else if fr.typ = 1 then takeSignal port fr s1
    else if fr.typ = 2 then takeAck fr s1
    else if fr.typ = 3 then takeRead port fr s1
    else s1

/-- Each frame row is the arrival of a frame of its TYPE. -/
def frameRow (typ port : Nat) (fr : Frame) (s : State) : State := if fr.typ = typ then frameArrives port fr s else s

def execSignalFrame (port : Nat) (fr : Frame) (s : State) : Host.Outcome State Fault Refusal := .next (frameRow 1 port fr s)
def execSignalAck (port : Nat) (fr : Frame) (s : State) : Host.Outcome State Fault Refusal := .next (frameRow 2 port fr s)
def execSemRead (port : Nat) (fr : Frame) (s : State) : Host.Outcome State Fault Refusal := .next (frameRow 3 port fr s)
/-- A Sheloth never issues SEM_READ (R540): an arriving SEM_DATA answers nothing, and only its credit goes back. -/
def execSemData (port : Nat) (fr : Frame) (s : State) : Host.Outcome State Fault Refusal := .next (frameRow 4 port fr s)
def execAlmCtrl (port : Nat) (fr : Frame) (s : State) : Host.Outcome State Fault Refusal := .next (frameRow 5 port fr s)
def execDelayReq (port : Nat) (fr : Frame) (s : State) : Host.Outcome State Fault Refusal := .next (frameRow 6 port fr s)
def execDelayRsp (port : Nat) (fr : Frame) (s : State) : Host.Outcome State Fault Refusal := .next (frameRow 7 port fr s)

/-! ## Slots that arrive (R515, R541, R542, R555) -/

/-- The part of a flit at a payload offset overlaps a poisoned range of 250 bytes (R555). -/
def flitBad (poison off len : Nat) : Bool := bit poison (off / 250) || bit poison ((off + len - 1) / 250)

/-- Write a received slot's bytes into its entry's buffer, flit by flit, with their poison (R492, R493, R515). -/
def writeSlotData (part : Nat) (a : Nat) (b : Bytes) (poison : Nat) (s : State) : State :=
  forEach (pieces a b.length) s (fun s e =>
    match s.parts.look part with
    | none => s
    | some q => (match s.writeVa q e.1 ((b.drop (e.1 - a)).take e.2) (flitBad poison (e.1 - a) e.2) with | .ok s1 => s1 | _ => s))

/-- The running job and entry that expect a slot of the sender's Month now: partition, job, entry. -/
def State.recvEntry (s : State) (port n : Nat) (monthLow : Nat) : Option (Nat × Nat × OwnEntry) :=
  s.parts.findSome? (fun e =>
    match e.2.season, s.slotJob e.1 with
    | some x, some (j, _) =>
      if x.ownsSlots then
        let back := if monthLow = s.alm.month % 256 then some s.alm.month
          else if monthLow = (s.alm.month + 255) % 256 ∧ 0 < s.alm.month then some (s.alm.month - 1) else none
        match back with
        | none => none
        | some m => (x.own.find? (fun o => o.expects port (x.monthOf m) n)).map (fun o => (e.1, j, o))
      else none
    | _, _ => none)

/-- The entry that a damaged slot belongs to (R541): of the Month that its sideband names, else of this Month or the one before (log 91). -/
def State.recvDamaged (s : State) (port : Nat) (f : FabSlot) : Option (Nat × Nat × OwnEntry) :=
  (s.recvEntry port f.slot f.month).or
    ((s.recvEntry port f.slot (s.alm.month % 256)).or (s.recvEntry port f.slot ((s.alm.month + 255) % 256)))

/-- A slot of a receive entry is heard: its data goes into the buffer. -/
def hearSlot (port : Nat) (f : FabSlot) (poison : Nat) (e : Nat × Nat × OwnEntry) (s : State) : State :=
  let o := e.2.2
  let i := f.slot - o.first
  writeSlotData e.1 (o.dva + 4000 * i) (fit (o.slotBytes i) f.payload) poison
    (s.modJob e.2.1 (fun b => { b with slotsIn := b.slotsIn ++ [(port, f.slot)] }))

/-- A received slot (R515, R541): its codeword counts and credits, its frames, or its planned payload. A damaged slot of a receive entry is
delivered as poison, whatever its other fields read. -/
def execSlotReceive (port : Nat) (f : FabSlot) (s : State) : Host.Outcome State Fault Refusal :=
  let x := s.port port
  if !x.isUp ∨ !s.ident.variant.hasPort port then .next s
  else
    let tooMany := decide (x.ueMonth ≤ 64 ∧ 64 < x.ueMonth + f.ue)
    let back := min (if f.checkOk then f.credits else 0) x.sentUncred
    let s0 := s.setPort port { x with
      ce := sat 16 (x.ce + f.ce), ue := sat 16 (x.ue + f.ue), ueSinceUp := sat 32 (x.ueSinceUp + f.ue), ueMonth := x.ueMonth + f.ue
      credits := x.credits + back, sentUncred := x.sentUncred - back }
    let s1 := if tooMany then noticeFabric port 0xB s0 else s0
    if f.checkOk ∧ f.ue = 0 then
      if f.kind = 1 then .next ((f.frames.take 125).foldl (fun s fr => frameArrives port fr s) s1)
      else if f.kind ≠ 0 ∨ x.state ≠ portMember then .next s1
      else .next (match s1.recvEntry port f.slot f.month with
        | some e => if e.2.2.flow = f.flow then hearSlot port f f.poison e s1 else s1
        | none => s1)
    else if x.state ≠ portMember then .next s1
    else .next (match s1.recvDamaged port f with | some e => hearSlot port f 0xFFFF e s1 | none => s1)

/-- At a Month's end the receive slots that were not heard are silent (R541-R543, R546, R553): their buffers are written as poison, and outside the
start grace they count for the port, the job and each peer's Month. The result names the jobs whose peer count has reached SILENT_MONTHS (R544). -/
def countSilent (s : State) : State × List Nat :=
  s.parts.foldl (fun (r : State × List Nat) e =>
    match e.2.season, r.1.slotJob e.1 with
    | some x, some (j, b) =>
      if !x.ownsSlots then r
      else
        let want := x.expected (x.monthOf r.1.alm.month)
        let lost := want.filter (fun w => !b.slotsIn.contains (w.1.port, w.2))
        let s1 := forEach lost r.1 (fun s w =>
          let i := w.2 - w.1.first
          writeSlotData e.1 (w.1.dva + 4000 * i) (zeros (w.1.slotBytes i)) 0xFFFF s)
        if b.fabMonths < 256 then (s1.modJob j (fun b => { b with slotsIn := [] }), r.2)
        else
          let s2 := forEach lost s1 (fun s w => s.modPort w.1.port (fun p => { p with silent := sat 16 (p.silent + 1) }))
          let seen := (want.map (fun w => w.1.peer)).dedup
          let peers := seen.foldl (fun t p => if lost.any (fun w => decide (w.1.peer = p)) then t.put p (sat 8 (t.val p 0 + 1)) else t.put p 0) b.peers
          let s3 := s2.modJob j (fun b => { b with slotsIn := [], peers := peers, silentTotal := sat 16 (b.silentTotal + lost.length) })
          (s3, if peers.any (fun p => decide (b.silentMonths ≤ p.2 ∧ p.2 ≠ 0)) then j :: r.2 else r.2)
    | _, _ => r) (s, [])

/-! ## The Almanac (R519-R530, R551) -/

/-- The device comes into step: its join ends, its ports with peers of the domain are Member (R524, R527). -/
def enterStep (s : State) : State :=
  let join := s.alm.joinOp
  let s1 := settleMembers (s.setAlm (fun a => { a with state := almInStep, joinOp := none }))
  let s2 := if join.isSome then noticeFabric 0xFF 3 s1 else s1
  let s3 := noticeFabric 0xFF 6 s2
  match join with
  | some (op, _) => advertise (endOp op 0 0 s3)
  | none => s3

/-- An Equinox from the upstream port (R521, R522, R524, R527, R551): `skew` is e in 0.1 ns, `dm` the domain Month it carries. A locked member that
joins or relocks moves its Month once, and is in step with it: e counts from the moved boundary (log 91). -/
def execEquinox (skew : Int) (dm : Nat) (s : State) : Host.Outcome State Fault Refusal :=
  let a := s.alm
  if a.root ∨ a.state = almNone ∨ a.state = almLeaving ∨ 12 ≤ a.upstream ∨ !(s.port a.upstream).isUp then .next s
  else
    let e := skew.natAbs
    let s1 := s.setAlm (fun a => { a with skewLast := skew, skewMax := max a.skewMax (sat 16 e), lastEq := s.clk.months, slew := skew })
    if a.state = almJoining ∨ a.state = almAdrift then
      if !a.locked ∨ (a.state = almJoining ∧ !a.numbered) then .next s1
      else
        let n : Int := (s.clk.phase : Int) - skew * 3 / 20
        let s2 := s.setAlm (fun a => { a with skewLast := 0, lastEq := s.clk.months, aligned := true, month := dm, slew := 0 })
        .next (enterStep { s2 with clk := { s2.clk with phase := (n % 61440).toNat } })
    else if 200 < e then
      let s2 := s1.setAlm (fun a => { a with state := almOut })
      .next (killSlotJobs stJobLost 2 (if a.state = almInStep then noticeFabric 0xFF 5 s2 else s2))
    else if a.state = almOut then .next (if e ≤ 100 then enterStep s1 else s1)
    else .next s1

/-- Two consecutive Equinoxes have failed to arrive on the upstream port (R525). -/
def execEquinoxMissed (s : State) : Host.Outcome State Fault Refusal :=
  let a := s.alm
  if a.root ∨ a.state = almNone ∨ a.state = almLeaving ∨ s.clk.months < a.lastEq + 512 then .next s
  else
    match s.bestUpstream (some a.upstream) with
    | none => .next s
    | some p => .next (noticeFabric p 8 (s.setAlm (fun a => { a with upstream := p, hops := (s.port p).hops + 1 })))

/-- No Member port has delivered an Equinox for 4 periods (R526). -/
def execAdrift (s : State) : Host.Outcome State Fault Refusal :=
  let a := s.alm
  if a.root ∨ !(decide (a.state = almInStep ∨ a.state = almOut)) ∨ s.clk.months < a.lastEq + 1024 then .next s
  else
    let s1 := s.setAlm (fun a => { a with state := almAdrift, locked := false, aligned := false })
    .next (noticeFabric 0xFF 7 (killSlotJobs stJobLost 2 s1))

/-- A joining or relocking member's grid clock locks to its upstream port (R519, R527). -/
def execFrequencyLock (s : State) : Host.Outcome State Fault Refusal :=
  let a := s.alm
  .next (if a.root ∨ !(decide (a.state = almJoining ∨ a.state = almAdrift)) ∨ (a.state = almJoining ∧ !a.numbered) ∨ 12 ≤ a.upstream then s
    else s.setAlm (fun a => { a with locked := true }))

/-- Join a domain (R527, R528): the root at once, a member by its requests. `named` is the device number named at expert level. -/
def joinStart (domain : Nat) (named : Option Nat) (source : Bool) (op : Nat) (s : State) : State :=
  let ups := s.portList.filter (fun p => (s.port p).isUp)
  let s1 := s.setAlm (fun a => { a with state := almJoining, domain := domain, joinOp := some (op, s.clk.months), numbered := false, locked := false,
                                        aligned := false, lastEq := s.clk.months })
  if ups = [] then abandonJoin s1
  else if source then
    if ups.any (fun p => decide ((s.port p).peerDomain = some domain)) then abandonJoin s1
    else
      let n := named.getD 0
      enterStep (s1.setAlm (fun a => { a with root := true, device := n, hops := 0, upstream := 15, month := s.clk.months, members := [n], numbered := true }))
  else forEach ups s1 (fun s p => enqueueFrame p 8 (almFrame 1 domain (named.getD 0) 0 named.isSome 0 0) s)

/-- The device has left its domain (R529, R530): it keeps its own Months, its ports stay Up. -/
def leaveDone (s : State) : State :=
  let s1 := s.setAlm (fun a => { a with
    state := almNone, root := false, upstream := 15, hops := 0, device := 0, domain := 0, members := [], leaveAt := false, numbered := false, locked := false,
    aligned := false, joinOp := none, slew := 0, month := 0 })
  settleMembers { s1 with ports := s1.ports.updAll (fun _ x => if x.state = portMember then { x with state := portUp } else x) }

/-- Leave begins: LEAVE on every Member port, and no more Equinoxes (R529, R530). -/
def leaveStart (s : State) : State :=
  let s1 := forEach s.memberPorts s (fun s p => enqueueFrame p 8 (almFrame 3 s.alm.domain s.alm.device 0 false s.alm.device 0) s)
  noticeFabric 0xFF 4 (s1.setAlm (fun a => { a with state := almLeaving, leaveAt := true }))

/-! ## Ports (R553, R706-R711, R716) -/

/-- A port's answer window is open (R707): 8 ms of every 96 ms, from 100 ms after the start of the sequence; a call that first appears in the tick at
which the window closes is outside it (R716). -/
def State.windowOpen (s : State) (port : Nat) : Bool :=
  let t := s.clk.tick - s.clk.startTick
  decide (100000 + 8000 * port ≤ t ∧ (t - 100000 - 8000 * port) % 96000 < 8000)

/-- The port answers a present call: training begins (R708, R709). -/
def answerCall (port : Nat) (s : State) : State :=
  let x := s.port port
  if s.ident.variant.hasPort port ∧ x.call ∧ !x.disabled ∧ (x.state = portListen ∨ x.state = portDown) ∧ s.start.listening ∧ s.windowOpen port then
    s.setPort port { x with state := portTraining, trainAt := s.clk.tick, call := false }
  else s

def execPartnerCall (port : Nat) (s : State) : Host.Outcome State Fault Refusal := .next (answerCall port (s.modPort port (fun x => { x with call := true })))

def execAnswerWindow (port : Nat) (s : State) : Host.Outcome State Fault Refusal := .next (answerCall port s)

/-- A port is not Up within 500 ms of the start of training (R709). -/
def execTrainingTimeout (port : Nat) (s : State) : Host.Outcome State Fault Refusal :=
  let x := s.port port
  .next (if x.state = portTraining ∧ x.trainAt + 500000 ≤ s.clk.tick then s.setPort port { x with state := portListen } else s)

/-- A port completes training (R711): Up, with its measured delay and full credits; its source's event and FABRIC notice. -/
def execPortUp (port delay : Nat) (foreign : Bool) (s : State) : Host.Outcome State Fault Refusal :=
  let x := s.port port
  if x.state ≠ portTraining ∨ !s.ident.variant.hasPort port then .next s
  else
    let s1 := s.setPort port { x with
      state := portUp, foreign := foreign, delay := delay % 2 ^ 20, ueSinceUp := 0, credits := 512, sentUncred := 0, rx := 0, owed := 0,
      slot := s.clk.phase / 60 + 1, peerDomain := none, hops := 0, chanDelay := some s.clk.cycle }
    let s2 := intcBoth (88 + port) (noticeFabric port 1 s1)
    let s3 := enqueueFrame port 8 { typ := 6, src := s.alm.device } s2
    let s4 := if s.alm.belongs then enqueueFrame port 8 s3.advert s3 else s3
    .next (if foreign then noticeFabric port 9 s4 else s4)

/-- A port loses lock or training (R553): Down, with its FABRIC notice; its slots are not heard until it is Up again. -/
def execPortDown (port : Nat) (s : State) : Host.Outcome State Fault Refusal :=
  let x := s.port port
  if !x.isUp ∧ x.state ≠ portTraining then .next s
  else
    let s1 := s.setPort port { x with state := portDown, foreign := false, peerDomain := none, chanDelay := none }
    .next (intcBoth (88 + port) (noticeFabric port 2 s1))

end Sys2Proof.Machine
end

