-- ==== Sys2Proof/Machine/Func.lean ====
section
/-! DEFINITION. Functions: VF Enable, function resets and their completion (05_functions_and_slices.md; 06, R261, R262). -/

namespace Sys2Proof.Machine

open Sys2Proof

/-- A mailbox whose function is reset: Idle, its notices gone, a Busy command's response to be discarded (R261, R262). -/
def resetBox (m : Mbox) (s : State) : State :=
  let b := s.box m
  s.setBox m { b with state := 0, ring := [], head := 0, tail := 0, lostBit := false, discard := b.state == 1 || b.discard }

/-- A function reset clears what its configuration space held (R714; log 19). -/
def Func.configReset (x : Func) : Func :=
  { x with ats := false, pri := false, msixEnable := false, msixMask := false, vecUnmasked := [], msixTable := [], vecPending := [] }

/-- A VF reset begins (R204, R209, R211, R214, R262, R833, R952): no more fetching, the generation counts up, the timers of its old work stop. -/
def beginVfReset (v : Nat) (s : State) : State :=
  let x := s.fn v
  if x.state = 0 then s
  else
    let s1 := s.setFn v { x.configReset with
      state := 3
      gen := x.gen + 1
      resets := sat 32 (x.resets + 1)
      resetAt := some (x.resetAt.getD s.clk.tick)
      reclaiming := false
      orphanGens := x.gen :: x.orphanGens
      tdi := 0
      targets := [] }
    let s2 := { s1 with
      pkts := s1.pkts.updAll (fun _ p => if p.fnKey = v then { p with timer := none } else p)
      seqs := s1.seqs.updAll (fun _ e => if e.fn = v then { e with victim := false } else e)
      qps := s1.qps.updAll (fun k q => if k / 16 = v then { q with unsig := 0 } else q) }
    noticeVf v 3 (resetBox (.vf v) s2)

/-- The queue pairs of a function as a function reset leaves them (R96, R97): Disabled and not in use. -/
def disableQps (f : Nat) (s : State) : State :=
  { s with qps := s.qps.updAll (fun k q => if k / 16 = f then { q.restart with state := 0, vacant := true, modCount := 1, modTime := 0 } else q) }

/-- Old-generation entries that no step holds and whose job does not run are returned at once (R960). -/
def returnOld (v : Nat) (s : State) : State :=
  let mine := (s.seqs.filter (fun e => decide (e.2.state ≠ 0 ∧ e.2.fn = v ∧ e.2.gen ≠ (s.fn v).gen))).map (·.1)
  forEach mine s (fun s e =>
    let x := s.seq e
    let held := s.jobs.any (fun j => decide (j.2.part = x.part) && (j.2.occupied.contains e || j.2.admitted.contains e))
    let running := s.jobs.any (fun j => decide (j.2.part = x.part ∧ j.2.state = 2) &&
      (match s.parts.look x.part with | some q => decide ((q.svcs.val j.2.entry {}).sid = x.sid) | none => false))
    if held || running then s else freeEntry e (dropPkts (x.ops.map (·.pkt)) s))

/-- Skeletons of an old generation are free once no started problem of theirs remains (R600). -/
def freeOldSkels (v : Nat) (s : State) : State :=
  { s with solvers := s.solvers.updAll (fun _ z =>
      { z with skels := z.skels.updAll (fun i k =>
          if k.used ∧ k.fn = v ∧ k.gen ≠ (s.fn v).gen ∧ !z.ctxs.any (fun c => decide (c.2.skel = i)) then { reuse := k.reuse } else k) }) }

/-- Old-generation holdings that are not yet returned: LQI_VF_STATE.ORPHANS (R218). -/
def State.orphans (s : State) (v : Nat) : Bool :=
  s.seqs.any (fun e => decide (e.2.state ≠ 0 ∧ e.2.fn = v ∧ e.2.gen ≠ (s.fn v).gen))
    || s.solvers.any (fun z => z.2.skels.any (fun k => k.2.used && decide (k.2.fn = v ∧ k.2.gen ≠ (s.fn v).gen)))

/-- The PF clears VF Enable (R212): every VF is reset as by an FLR and goes; its grants end (R956). -/
def removeVfs (s : State) : State :=
  let mine := (s.fns.filter (fun e => decide (e.1 < 512 ∧ e.2.state ≠ 0))).map (·.1)
  let s1 := forEach mine s (fun s v => clearFetched (fun k => decide (k / 16 = v) && !s.readsOut (· == k)) (beginVfReset v s))
  let s2 := forEach mine s1 (fun s v =>
    let t := freeOldSkels v (returnOld v s)
    noticeVf v 0 (t.setFn v { gen := (t.fn v).gen }))
  { s2 with
    qps := s2.qps.keep (fun k _ => decide (512 ≤ k / 16))
    preqs := s2.preqs.keep (fun _ r => decide (512 ≤ r.fn))
    xlat := s2.xlat.filter (fun x => decide (512 ≤ x.1))
    svcGrants := []
    mail := { s2.mail with boxes := s2.mail.boxes.keep (fun i _ => decide (i < 6)) }
    cfg := { s2.cfg with vfEnable := false, numVfs := 0 } }

/-- The PF's queue pairs are Disabled, its signal targets empty, its old work gone at its commit points, and the VFs go (R213). -/
def pfQueues (s : State) : State :=
  let s0 := removeVfs s
  let x := s0.fn 512
  let s1 := s0.setFn 512 { x.configReset with gen := x.gen + 1, targets := [] }
  let s2 := { s1 with pkts := s1.pkts.updAll (fun _ p => if p.fnKey = 512 then { p with timer := none } else p) }
  let s3 := disableQps 512 { s2 with fslots := s2.fslots.keep (fun _ f => !(decide (f.qp / 16 = 512) && f.back)) }
  let s4 := { s3 with preqs := s3.preqs.keep (fun _ r => decide (r.fn ≠ 512)), xlat := s3.xlat.filter (fun t => decide (t.1 ≠ 512)) }
  clearFetched (fun k => decide (k / 16 = 512) && !s4.readsOut (· == k)) s4

/-- The PF undergoes an FLR (R213, R261): its mailboxes are reset too. -/
def pfFlr (s : State) : State :=
  let s6 := [Mbox.pf 0, .pf 1, .pf 2, .pf 3, .sec].foldl (fun s m => resetBox m s) (pfQueues s)
  { s6 with mail := { s6.mail with ops := s6.mail.ops.map (fun r =>
      if r.done then r else match r.mb with | .pf _ => { r with mb := .pf 0 } | .sec => { r with mb := .pf 0 } | _ => r) } }

/-- FLR of a VF or of the PF. -/
def execFlr (f : Nat) (s : State) : Host.Outcome State Fault Refusal := .next (if f = 512 then pfFlr s else beginVfReset f s)

/-- A VF's reset completes (R97, R149, R210, R216, R217, R960): reads and translations gone. -/
def execVfResetComplete (v : Nat) (s : State) : Host.Outcome State Fault Refusal :=
  let x := s.fn v
  let notify := s.outbox.any (fun r => decide (r.qp / 16 = v) && r.notify.isSome)
  if x.state ≠ 3 ∨ s.readsOut (fun k => decide (k / 16 = v)) ∨ notify then .next s
  else
    let s1 := clearFetched (fun k => decide (k / 16 = v)) s
    let s2 := settleInvs { s1 with xlat := s1.xlat.filter (fun t => decide (t.1 ≠ v)), preqs := s1.preqs.keep (fun _ r => decide (r.fn ≠ v)) }
    let s3 := disableQps v s2
    let q := x.deferred.getD x.quotas
    let st := if q.qp = 0 then 1 else 2
    let s4 := s3.setFn v { (s3.fn v) with state := st, quotas := q, deferred := none, resetAt := none, resetOp := none, targets := [] }
    let s5 := noticeVf v st (freeOldSkels v (returnOld v s4))
    .next (endOpOf x.resetOp 0 0 s5)

/-- A VF reset has run over 60 ms: the engine that holds it up hangs (R220, R798). -/
def execVfResetTimeout (v : Nat) (s : State) : Host.Outcome State Fault Refusal :=
  let x := s.fn v
  match x.resetAt with
  | none => .next s
  | some t =>
    if x.state ≠ 3 ∨ s.clk.tick < t + 60000 then .next s
    else
      let q := (s.fslots.find? (fun e => decide (e.2.qp / 16 = v))).map (fun e => e.1 / 128)
      .next (hang 4 (q.getD 0) v s)

/-- VF Enable is set (R149, R205, R715, R955): the VFs appear Unsized. -/
def execVfEnableSet (numVfs : Nat) (s : State) : Host.Outcome State Fault Refusal :=
  if s.cfg.vfEnable ∨ 512 < numVfs ∨ !s.start.cfgReady then .next s
  else
    let n := if 7 < numVfs ∧ !s.cfg.ari then 7 else numVfs
    let s1 := forEach (List.range n) s (fun s v =>
      let s2 := s.setFn v { gen := (s.fn v).gen, state := 1 }
      noticeVf v 1 (s2.setBox (.vf v) {}))
    .next { s1 with cfg := { s1.cfg with vfEnable := true, numVfs := numVfs } }

def execVfEnableClear (s : State) : Host.Outcome State Fault Refusal := .next (if s.cfg.vfEnable then removeVfs s else s)

end Sys2Proof.Machine
end

