-- ==== Sys2Proof/Machine/Image.lean ====
section
/-! DEFINITION. Season images: their header and sections, the load checks, the memory layout, installing and removing a Season
(01_the_planned_machine.md, Table: Season image header; 06, Table: Season refusal details; 07, Loading a Season; 11, Memory layout; 19, weight
package header). -/

namespace Sys2Proof.Machine

open Sys2Proof

/-! ## The image -/

/-- A field of an image. -/
def Mem.num (m : Mem) (off n : Nat) : Nat := ofLe (Mem.read m off n)

/-- The section table: kind, offset, length. -/
def sections (m : Mem) : List (Nat × Nat × Nat) :=
  (List.range (min 64 (Mem.num m 6 2))).map (fun i => (Mem.num m (0x40 + 16 * i) 2, Mem.num m (0x44 + 16 * i) 4, Mem.num m (0x48 + 16 * i) 8))

/-- Offset and length of a section; an absent section is empty. -/
def sectOf (m : Mem) (kind : Nat) : Option (Nat × Nat) := ((sections m).find? (fun e => decide (e.1 = kind))).map (·.2)

/-- Where the weight package begins: directly after the Season image, whose signature block is last. -/
def packStart (m : Mem) : Nat := (sections m).foldl (fun n e => max n (e.2.1 + e.2.2)) (0x40 + 16 * (sections m).length)

/-- The regions of the memory layout (11, Table: Region record). -/
def regionsOf (m : Mem) : List Region :=
  match sectOf m 5 with
  | none => []
  | some (o, _) => (List.range (min 256 (Mem.num m o 2))).map (fun i =>
      let a := o + 16 + 32 * i
      { kind := Mem.num m a 1, place := Mem.num m (a + 1) 1, page := Mem.num m (a + 2) 1, flags := Mem.num m (a + 3) 1, tile := Mem.num m (a + 4) 2, tiles := Mem.num m (a + 6) 2, dva := Mem.num m (a + 8) 8, bytes := Mem.num m (a + 16) 8, entry := Mem.num m (a + 24) 2 })

/-- The wake schedule (15, Table: Wake-schedule section). -/
def wakesOf (m : Mem) : List WakeEntry :=
  match sectOf m 4 with
  | none => []
  | some (o, _) => (List.range (min 65536 (Mem.num m o 4))).map (fun i =>
      { offset := Mem.num m (o + 16 + 8 * i) 4, tile := Mem.num m (o + 20 + 8 * i) 2, action := Mem.num m (o + 22 + 8 * i) 1 })

/-- The transfer schedule (11, Transfers: entries of 48 bytes). -/
def transfersOf (m : Mem) : List XferEntry :=
  match sectOf m 3 with
  | none => []
  | some (o, n) => (List.range (n / 48)).map (fun i =>
      let a := o + 48 * i
      let d := a + 16
      { offset := Mem.num m a 4, tile := Mem.num m (a + 4) 2, kind := Mem.num m d 1, flags := Mem.num m (d + 1) 1, sem := Mem.num m (d + 2) 1, dst := Mem.num m (d + 4) 2, localAddr := Mem.num m (d + 8) 4, bytes := Mem.num m (d + 12) 4, remote := Mem.num m (d + 16) 8, reserved := Mem.num m (d + 3) 1 + Mem.num m (d + 6) 2 + Mem.num m (d + 24) 8 })

/-- The ownership entries of the fabric-slot section (12, Table: Ownership entry). -/
def ownOf (m : Mem) : List OwnEntry :=
  match sectOf m 6 with
  | none => []
  | some (o, _) => (List.range (min 4096 (Mem.num m o 2))).map (fun i =>
      let a := o + 32 + 32 * i
      { month := Mem.num m a 2, first := Mem.num m (a + 2) 2, slots := Mem.num m (a + 4) 2, port := Mem.num m (a + 6) 1, recv := Mem.num m (a + 7) 1 == 1, peer := Mem.num m (a + 8) 2, flow := Mem.num m (a + 10) 2, bytes := Mem.num m (a + 12) 4, dva := Mem.num m (a + 16) 8 })

/-- The job entries of the service-declaration section (07, Table: Job entry); a solver entry takes R557's record (R556). -/
def svcsOf (m : Mem) : Tab Svc :=
  match sectOf m 7 with
  | none => []
  | some (o, _) => (List.range (min 16 (Mem.num m o 2))).map (fun i =>
      let a := o + 16 + 128 * i
      let kind := Mem.num m (a + 4) 2
      let x : Svc :=
        { sid := Mem.num m a 4, kind := kind, flags := Mem.num m (a + 6) 2, name := Mem.read m (a + 8) 24, maxPkt := Mem.num m (a + 0x20) 2, maxCpl := Mem.num m (a + 0x22) 2, version := Mem.num m (a + 0x24) 4, positions := Mem.num m (a + 0x28) 2, lcReserve := Mem.num m (a + 0x2A) 2, lcLimit := Mem.num m (a + 0x2C) 2, beLimit := Mem.num m (a + 0x2E) 2, chunk := Mem.num m (a + 0x30) 2, feedKinds := Mem.num m (a + 0x32) 2, kvBytes := Mem.num m (a + 0x34) 4, maxTok := Mem.num m (a + 0x38) 4, paramBase := Mem.num m (a + 0x3C) 4, paramSlots := Mem.num m (a + 0x40) 4, worklist := Mem.num m (a + 0x44) 4, stateVa := Mem.num m (a + 0x48) 8, stateBytes := Mem.num m (a + 0x50) 4 }
      (i, if kind = 3 then { sid := x.sid, kind := 3, flags := x.flags, name := x.name, version := x.version, positions := x.positions, lcReserve := x.lcReserve, lcLimit := x.lcLimit, beLimit := x.beLimit, maxPkt := 257, maxCpl := 30 } else x))

/-- The layer table. -/
def layersOf (m : Mem) : List Nat :=
  match sectOf m 7 with
  | none => []
  | some (o, _) =>
    let n := min 16 (Mem.num m o 2)
    (List.range (min 1024 (Mem.num m (o + 2) 2))).map (fun i => Mem.num m (o + 16 + 128 * n + 4 * i) 4)

/-- The Season of an image, with what the sections without a layout say (log 9) and the decrypted weights. -/
def seasonOf (m : Mem) (ext : SeasonExt) (plain : Bytes) : Season :=
  let lay := match sectOf m 5 with | some (o, _) => o | none => 0
  let fab := match sectOf m 6 with | some (o, _) => o | none => 0
  let sh := match sectOf m 1 with | some (o, _) => o | none => 0
  let nl := min 384 (Mem.num m (sh + 2) 2)
  let np := min 768 (Mem.num m (sh + 4) 2)
  let pa := sh + 16 + 4 * ceilDiv (2 * nl) 4
  { id := Mem.num m 0x10 8, version := Mem.num m 0x18 4, likeness := Mem.num m 8 8, columns := Mem.num m 0x1C 4, stepCycles := Mem.num m 0x20 4, longest := Mem.num m 0x24 4, lead := Mem.num m 0x28 4, batch := Mem.num m 0x2C 2, flags := Mem.num m 0x2E 2, hlShare := Mem.num m 0x30 4, monthsPerStep := Mem.num m 0x34 4, layerEnds := layersOf m, regions := regionsOf m, plannedTags := Mem.num m (lay + 2) 1, listEntries := Mem.num m (lay + 4) 4, wakes := wakesOf m, transfers := transfersOf m, ports := Mem.num m (fab + 2) 2, lags := (List.range 12).map (fun i => Mem.num m (fab + 4 + i) 1), domain := Mem.num m (fab + 0x10) 4, device := Mem.num m (fab + 0x14) 2, own := ownOf m, fracMax := Mem.num m sh 1, shadow := (List.range nl).map (fun i => Mem.num m (sh + 16 + 2 * i) 2), pairs := (List.range np).map (fun i => (Mem.num m (pa + 4 * i) 2, Mem.num m (pa + 4 * i + 2) 2)), selectSlot := Mem.num m (sh + 8) 4, ext := ext, packDigest := Mem.read m (packStart m + 0x20) 48, plain := Mem.write [] 0 plain }

/-! ## The memory layout (R470, R471) -/

/-- Page size of a region. -/
def Region.pageBytes (r : Region) : Nat := if r.page = 1 then 0x200000 else 0x10000

/-- The logical tiles of a partition, columns then rows ascending. -/
def Part.logTiles (q : Part) : List Nat := q.cols.flatMap (fun c => (List.range 16).map (fun y => 16 * c + y))

/-- The logical tiles that a tile-store region names: TILE_COUNT tiles of the partition in logical order from TILE. -/
def Part.regionTiles (q : Part) (r : Region) : List Nat :=
  match logOfName r.tile with
  | none => []
  | some t => ((q.logTiles.filter (fun i => decide (t ≤ i))).take r.tiles)

/-- Where the next region begins: 2 MiB units taken per channel of the partition's order, and banks taken per tile. -/
structure Alloc where
  units : Tab Nat := []
  banks : Tab Nat := []
  pages : List (Nat × Nat × Region) := []
  fits : Bool := true

/-- Place the pages of one region (R470): stack regions by 2 MiB units round robin over the channels; tile-store regions one 64 KiB page per
bank, banks ascending, an equal share of the pages on each tile (log 18). -/
def placeRegion (q : Part) (a : Alloc) (r : Region) : Alloc :=
  let pg := r.pageBytes
  let n := r.bytes / pg
  if r.place = 0 then
    let w := q.chans.length
    if w = 0 then { a with fits := a.fits && n == 0 }
    else
      let at_ (i : Nat) : Nat :=
        let u := i * pg / 0x200000
        let k := u % w
        0x60000000 * q.chans.getD k 0 + 0x200000 * (a.units.val k 0 + u / w) + i * pg % 0x200000
      let all := ceilDiv r.bytes 0x200000
      let units := (List.range w).foldl (fun (t : Tab Nat) k => t.put k (a.units.val k 0 + all / w + b2n (decide (k < all % w)))) a.units
      { a with pages := a.pages ++ (List.range n).map (fun i => (r.dva + i * pg, at_ i, r)), units := units, fits := a.fits && units.all (fun e => decide (e.2 ≤ 768)) }
  else
    let ts := q.regionTiles r
    if ts = [] then { a with fits := false }
    else
      let banks := r.bytes / 0x10000
      let per := ceilDiv banks ts.length
      let at_ (i : Nat) : Nat :=
        let b := i * (pg / 0x10000)
        let t := ts.getD (b / per) 0
        tileWindow + 0x200000 * t + 0x10000 * (a.banks.val t 0 + b % per)
      let taken := (List.range ts.length).foldl (fun (x : Tab Nat) k =>
        x.put (ts.getD k 0) (a.banks.val (ts.getD k 0) 0 + min per (banks - k * per))) a.banks
      { a with pages := a.pages ++ (List.range n).map (fun i => (r.dva + i * pg, at_ i, r)), banks := taken, fits := a.fits && decide (ts.length = r.tiles) && taken.all (fun e => decide (e.2 ≤ 32)) }

/-- The pages of a layout on a partition. -/
def layoutOf (q : Part) (rs : List Region) : Alloc := rs.foldl (placeRegion q) {}

/-- Bytes of the layout in stack channels. -/
def stackBytes (rs : List Region) : Nat := (rs.filter (fun r => r.place == 0)).foldl (fun n r => n + r.bytes) 0

/-- The layout breaks R471, or carries a reserved encoding. -/
def layoutBad (q : Part) (x : Season) (svcs : Tab Svc) : Bool :=
  let rs := x.regions
  rs.any (fun r => decide (r.kind = 0 ∨ 8 < r.kind ∨ 1 < r.place ∨ 1 < r.page ∨ r.dva % r.pageBytes ≠ 0 ∨ r.bytes % r.pageBytes ≠ 0 ∨ 2 ^ 48 < r.dva + r.bytes))
    || (List.range rs.length).any (fun i => (List.range i).any (fun j =>
      let a := rs.getD i {}
      let b := rs.getD j {}
      decide (a.dva < b.dva + b.bytes ∧ b.dva < a.dva + a.bytes)))
    || rs.any (fun r => decide (r.place = 0 ∧ q.chans = []))
    || (let p := rs.filter (fun r => r.kind == 4); p.length != 1 || p.any (fun r => decide (65536 < r.bytes / 64)))
    || svcs.any (fun e => (x.region 5 e.1).isNone || (x.region 6 e.1).isNone)
    || decide (32 < x.plannedTags)
    || !(layoutOf q rs).fits

/-- A leaf or table entry of the page tables (11, Table: Page-table entry). -/
def leafPte (r : Region) (dpa : Nat) : BitVec 64 :=
  BitVec.ofNat 64 (1 + 2 + 4 + 8 * b2n (!bit r.flags 0) + 16 * b2n (bit r.flags 1) + 64 * b2n (r.kind == 1) + dpa / 256 * 256)
def tablePte (addr : Nat) : BitVec 64 := BitVec.ofNat 64 (1 + addr)

/-- The page tables that map exactly the pages of a layout (11, Memory layout; log 18). -/
def buildTables (pages : List (Nat × Nat × Region)) : Tab (BitVec 64) × Tab (BitVec 64) :=
  pages.foldl (fun (t : Tab (BitVec 64) × Tab (BitVec 64)) e =>
    let i := bits e.1 47 35
    let j := bits e.1 34 21
    let l1 := t.1.put i (tablePte (l2Table i))
    if e.2.2.page = 1 then (l1, t.2.put (l2Table i / 8 + j) (leafPte e.2.2 e.2.1))
    else (l1, (t.2.put (l2Table i / 8 + j) (tablePte (l3Table i j))).put (l3Table i j / 8 + bits e.1 20 16) (leafPte e.2.2 e.2.1))) ([], [])

/-! ## The load checks (R30, R31, R42-R46, R137, R171, R172, R238, R287, R428, R442, R511, R664) -/

/-- The likeness descriptor (21, SEC_LIKENESS). -/
def State.likeness (s : State) : Nat :=
  if !s.ident.fusesRead then 0
  else
    let v := match s.ident.variant with | .A => 1 | .B => 2 | .C => 3 | .D => 4 | .Z => 5
    1 + 0x100 * v + 0x10000 * s.ident.spareClass + 0x21000000 + 0x0200000000 + 2 ^ 40 * s.ident.level

/-- The Season was compiled for another variant, spare-map class or behaviour level (R43). -/
def State.otherPart (s : State) (like : Nat) : Bool :=
  bits like 15 8 != bits s.likeness 15 8 || bits like 23 16 != bits s.likeness 23 16 || bits like 47 40 != bits s.likeness 47 40

/-- The column at which a port's face links lie (12, Table: Port attachment). -/
def faceCol (port : Nat) : Nat := if port < 4 ∨ port = 8 ∨ port = 9 then 0 else 47

/-- The slots of two ownership entries meet. -/
def OwnEntry.meets (a b : OwnEntry) : Bool :=
  a.port == b.port && a.recv == b.recv && a.month == b.month && decide (a.first < b.first + b.slots ∧ b.first < a.first + a.slots)

/-- The state of a tile that a schedule leaves at the end of the step: true when it is Dormant with its column powered. -/
def endsDormant (l : List WakeEntry) (step name : Nat) : Bool :=
  let col := name / 32 * 32
  l.foldl (fun (on : Bool) e =>
    if e.action = 1 ∧ e.tile = name then false
    else if e.action = 2 ∧ e.tile = name then true
    else if e.action = 4 ∧ e.tile = col then false
    else if e.action = 3 ∧ e.tile = col then decide (e.offset + 60000 ≤ step)
    else on) true

/-- The wake schedule fails a check of R664, or planned traffic meets a tile that is not Awake (R31). -/
def wakesBad (q : Part) (x : Season) (many : Bool) : Bool :=
  let l := x.wakes
  let ons := (l.filter (fun e => e.action == 3)).map (·.offset)
  let names := q.logTiles.map tileName
  x.ext.dark
    || (List.range (l.length - 1)).any (fun i => decide ((l.getD (i + 1) {}).offset < (l.getD i {}).offset))
    || l.any (fun e => decide (x.stepCycles ≤ e.offset ∨ e.action = 0 ∨ 4 < e.action ∨ (3 ≤ e.action ∧ e.tile % 32 ≠ 0)) || !names.contains e.tile)
    || (List.range l.length).any (fun i => (List.range i).any (fun j =>
      decide ((l.getD i {}).tile = (l.getD j {}).tile ∧ (l.getD i {}).offset = (l.getD j {}).offset ∧ (3 ≤ (l.getD i {}).action ↔ 3 ≤ (l.getD j {}).action))))
    || x.transfers.any (fun t => !schedAwake many l t.tile t.offset)
    || ons.any (fun o => decide (2 < (ons.filter (fun p => decide (o ≤ p ∧ p < o + 60000))).length))
    || l.any (fun e => e.action == 4 && x.regions.any (fun r => r.place == 1 && (q.regionTiles r).any (fun t => tileName t / 32 == e.tile / 32)))
    || names.any (fun n => !endsDormant l x.stepCycles n)

/-- A work list overlaps a guest window or the other work list (R172). -/
def listsBad (svcs : Tab Svc) : Bool :=
  let plain := svcs.filter (fun e => e.2.kind != 3)
  let lists := plain.flatMap (fun e =>
    let n := 1 + ceilDiv e.2.positions 2
    [(e.2.worklist, n), (e.2.worklist + n, n)])
  let meets (a b : Nat × Nat) : Bool := decide (a.1 < b.1 + b.2 ∧ b.1 < a.1 + a.2)
  lists.any (fun l => plain.any (fun e => meets l (e.2.paramBase, e.2.paramSlots)))
    || (List.range lists.length).any (fun i => (List.range i).any (fun j => meets (lists.getD i (0, 0)) (lists.getD j (0, 0))))

/-- The first check that a Season fails, by its DETAIL (06, Table: Season refusal details). -/
def State.seasonRefusal (s : State) (q : Part) (m : Mem) (x : Season) (svcs : Tab Svc) (sigOk : Bool) : Option Nat :=
  let ss := sections m
  let owns := x.ownsSlots
  firstTrue
    [(Mem.num m 0 4 != 0x53414553 || Mem.num m 4 2 != 1, 1),
     (s.otherPart x.likeness, 2),
     (!(ss.getLast?.any (fun e => e.1 == 8)) || (ss.dropLast.any (fun e => e.1 == 8)) || !sigOk, 3),
     (x.ext.twice || x.ext.outside
        || (owns && ((List.range x.own.length).any (fun i => (List.range i).any (fun j => (x.own.getD i {}).meets (x.own.getD j {})))
          || x.own.any (fun o => !q.cols.contains (faceCol o.port)))), 4),
     (wakesBad q x (decide (1 < svcs.length)), 5),
     ((owns && x.stepCycles % 61440 != 0) || (owns && x.monthsPerStep != x.stepCycles / 61440) || (!owns && x.monthsPerStep != 0), 6),
     (decide (s.stepLimit * 1500000 < x.stepCycles), 7),
     (svcs.any (fun e => e.2.kind != 3 && decide (x.lead < 1024 + 32 * e.2.positions)), 8),
     (listsBad svcs, 9),
     (x.columns != q.cols.length, 10),
     ((x.hlShare != 0 && !q.spanning) || decide (q.lanes.length * 64 * x.stepCycles / 6 < x.hlShare), 11),
     (owns && !decide (2 ≤ s.alm.state), 12),
     (layoutBad q x svcs, 13),
     (owns && decide (1 < svcs.length), 14)]
where
  firstTrue : List (Bool × Nat) → Option Nat
    | [] => none
    | (b, d) :: l => if b then some d else firstTrue l

/-! ## Changes of the visible services (R49, R956) -/

/-- A function's set of visible services changes: it counts an epoch and gets a SERVICE_CHANGE notice. -/
def epochUp (f : Nat) (s : State) : State :=
  let s1 := s.modFn f (fun x => { x with capEpoch := x.capEpoch + 1 })
  notice (boxOfFn f) 1 (le 2 (s1.fn f).capEpoch.toNat) (s1.emit (.capSvc f (s1.fn f).capEpoch.toNat))

/-- The services of some IDs appear or go: each function to which one of them is visible, by grant or as the PF, is told. -/
def serviceChange (sids : List Nat) (s : State) : State :=
  if sids = [] then s
  else
    let fs := 512 :: ((s.svcGrants.filter (fun g => sids.contains g.2)).map (·.1)).dedup
    forEach fs s (fun s f => epochUp f s)

/-- TDIs that are locked or running and see one of the services go to ERROR (R832). -/
def tdiErrors (sids : List Nat) (s : State) : State :=
  let fs := ((s.svcGrants.filter (fun g => sids.contains g.2)).map (·.1)).dedup
  forEach fs s (fun s f => if (s.fn f).tdi = 1 ∨ (s.fn f).tdi = 2 then s.modFn f (fun x => { x with tdi := 3 }) else s)

/-- The IDs of a partition's installed services. -/
def Part.sids (q : Part) : List Nat := (q.svcs.filter (fun e => !e.2.withdrawn)).map (fun e => e.2.sid)

/-! ## Writing by device physical address -/

/-- The control processors write bytes at a DPA: whole granules they cover lose their poison (R493). -/
def writeDpa (dpa : Nat) (b : Bytes) (s : State) : State :=
  match placeOf dpa with
  | .stack ch =>
    if s.mem.failed.contains ch then s
    else s.setMem (fun m => { m with
      stack := Mem.write m.stack dpa b
      poison := m.poison.keep (fun g _ => !decide (dpa ≤ 64 * g ∧ 64 * g + 64 ≤ dpa + b.length)) })
  | .tile i => s.modTile (s.physOf i) (fun x => x.storeClean ((dpa - tileWindow) % 0x200000) b)
  | .nowhere => s

/-- The decrypted weights fill the weights regions in layout order (R837; log 18). -/
def writeWeights (x : Season) (pages : List (Nat × Nat × Region)) (s : State) : State :=
  ((pages.filter (fun e => e.2.2.kind == 1)).foldl (fun (r : Nat × State) e =>
    let n := e.2.2.pageBytes
    (r.1 + n, writeDpa e.2.1 (Mem.read x.plain r.1 n) r.2)) (0, s)).2

/-! ## Installing (R185, R281, R282, R506, R769; 08, R356, message channels) -/

/-- The channels that a Season configures on a tile. -/
def configureChans (ext : SeasonExt) (s : State) : State :=
  forEach ext.chans s (fun s c =>
    match logOfName c.tile, logOfName c.dst with
    | some t, some d =>
      s.modTile (s.physOf t) (fun x => { x with chans := x.chans.put c.chan { conf := true, dst := d, dstChan := c.dstChan, planned := c.planned, flits := c.flits, credits := c.credits, avail := c.credits, slotBase := c.slotBase, slotCount := c.slotCount } })
    | some t, none =>
      -- a channel towards a solver is named 0x1000 + half (log 9)
      if c.dst = 0x1000 ∨ c.dst = 0x1001 then
        s.modTile (s.physOf t) (fun x => { x with chans := x.chans.put c.chan { conf := true, dst := 768 + c.dst % 2, dstChan := c.dstChan, planned := false, flits := c.flits, credits := c.credits, avail := c.credits, slotBase := c.slotBase, slotCount := c.slotCount } })
      else s
    | none, _ => s)

/-- Install a Season in a partition: tables, programs, channels, weights, KV lists and KV free list, work lists, shadow header. -/
def installSeason (part : Nat) (x : Season) (svcs : Tab Svc) (s : State) : State :=
  match s.parts.look part with
  | none => s
  | some q =>
    let lay := layoutOf q x.regions
    let t := buildTables lay.pages
    let kv := match x.region 2 0 with | some r => r.bytes / 0x10000 | none => 0
    let q1 : Part :=
     { q with
      season := some x
      svcs := svcs
      l1 := t.1
      tables := t.2
      kvFree := List.range kv
      fraction := 0
      compares := 0
      mismatches := 0
      lastLayer := 0
      tableValid := x.shadowOk (fun n => (logOfName n).any (fun i => q.cols.contains (i / 16)))
        (match x.region 4 0 with | some r => r.bytes / 64 | none => 0)
      reload := [] }
    let s1 := s.setPart part q1
    let s2 := forEach x.ext.programs s1 (fun s p =>
      match logOfName p.1 with
      | some i => s.modTile (s.physOf i) (fun y => y.storeClean p.2.1 p.2.2)
      | none => s)
    let s3 := writeWeights x lay.pages (configureChans x.ext s2)
    let ff (n : Nat) : Bytes := List.replicate n 0xFF
    let s4 := forEach (lay.pages.filter (fun e => e.2.2.kind == 3)) s3 (fun s e => writeDpa e.2.1 (ff e.2.2.pageBytes) s)
    forEach (svcs.filter (fun e => e.2.kind != 3)) s4 (fun s e =>
      let n := 2 * (1 + ceilDiv e.2.positions 2)
      match s.parts.look part with
      | none => s
      | some q2 => forEach (List.range n) s (fun s i => match q2.walk (q2.slotVa (e.2.worklist + i)) true with | .ok dpa _ => writeDpa dpa (zeros 64) s | .fault _ => s))

/-! ## Removing (R169, R184, R318, R505, R653) -/

/-- Free every entry of a partition's slice; its queued operations end with the status, if any (R169, R184). -/
def freeSlice (part : Nat) (status : Option (Nat × Nat)) (s : State) : State :=
  let mine := (s.seqs.filter (fun e => decide (e.2.part = part ∧ e.2.state ≠ 0))).map (·.1)
  forEach mine s (fun s e =>
    let s1 := match status with
      | some (st, d) => endOps e st d s
      | none => dropPkts ((s.seq e).ops.map (fun (o : SeqOp) => o.pkt)) s
    s1.setSeq e { reuse := (s1.seq e).reuse })

/-- Free the skeletons of a partition; their problems end with the status (R601). -/
def freeSkels (part status detail : Nat) (s : State) : State :=
  forEach [0, 1] s (fun s h =>
    let s1 := endProblems h (fun k => decide (k.used ∧ k.part = part)) status detail s
    s1.modSolver h (fun v => { v with skels := v.skels.updAll (fun _ k => if k.used ∧ k.part = part then { reuse := k.reuse } else k) }))

/-- Watches of a partition go. -/
def dropWatches (part : Nat) (s : State) : State := s.setMem (fun m => { m with watches := m.watches.filter (fun w => w.1 != part) })

/-- Take the installed Season away: services, page tables, free list, watches, sequences and skeletons. -/
def removeSeason (part : Nat) (s : State) : State :=
  match s.parts.look part with
  | none => s
  | some q =>
    let s1 := freeSkels part stCancelled 4 (freeSlice part (some (stCancelled, 4)) s)
    let s2 := dropWatches part s1
    s2.modPart part (fun y => { y with season := none, svcs := [], l1 := [], tables := [], kvFree := [], tableValid := false, fraction := 0, reload := [], runJob := none, switch := none })
      |> fun s3 => serviceChange q.sids s3

/-! ## Loads -/

/-- The load has room for a staged image (R278): free channel space beyond what the layout uses, as far as the bytes received tell the layout. -/
def Part.roomFor (q : Part) (l : Load) : Bool := decide (l.bytes + stackBytes (regionsOf l.img) ≤ q.chans.length * 0x60000000)

/-- A load ends without a Season (R254, R260, R282, R647): its bytes go, and the tile-store weights regions that it wrote read zero; the partition
is Empty. -/
def abandonLoad (id : Nat) (s : State) : State :=
  match s.loads.look id with
  | none => s
  | some l =>
    let s1 := { s with loads := s.loads.del id }
    let s2 := match s1.parts.look l.part with
      | some q =>
        if l.inOrder then
          forEach ((layoutOf q (regionsOf l.img)).pages.filter (fun (e : Nat × Nat × Region) => e.2.2.kind == 1 && e.2.2.place == 1)) s1
            (fun s (e : Nat × Nat × Region) => writeDpa e.2.1 (zeros e.2.2.pageBytes) s)
        else s1
      | none => s1
    noticePart l.part (s2.modPart l.part (fun q => { q with loading := none }))

/-- The granules of bytes `off` to `off + n`. -/
def granulesOf (off n : Nat) : List Nat := (List.range (ceilDiv n 64)).map (fun i => off / 64 + i)

/-- WEIGHT_CHUNK (R277-R280): the bytes are stored, or the packet is malformed. -/
def execWeightChunk (pid : Nat) (s : State) : Host.Outcome State Fault Refusal :=
  .next (takePkt pid opChunk s (fun p _ s =>
    let id := fld p.hdr 0x20 4
    let off := fld p.hdr 0x28 8
    let bad := fail pid stMalformed 9
    match s.loads.look id with
    | none => bad s
    | some l =>
      let n := p.payload.length
      let inOrder : Bool := match s.parts.look l.part with | some q => !q.roomFor l | none => false
      if l.source ≠ 0 ∨ l.dark ∨ l.bytes < off + n then bad s
      else if inOrder ∧ off ≠ l.nextOff then bad { s with loads := s.loads.put id { l with inOrder := true } }
      else
        let got := granulesOf off n
        let l1 := { l with
          img := Mem.write l.img off p.payload, got := l.got ++ got.filter (fun g => !l.got.contains g)
          inOrder := inOrder, nextOff := if off = l.nextOff then off + n else l.nextOff }
        finish pid stOk 0 0 [] false { s with loads := s.loads.put id l1 }))

/-- The weight package's header holds (19, Table: Weight package header). -/
def packOk (m : Mem) (bytes : Nat) : Bool :=
  let p := packStart m
  Mem.num m p 4 == 0x4B505457 && Mem.num m (p + 4) 2 == 1 && p + Mem.num m (p + 8) 8 == bytes
    && decide (65536 ≤ Mem.num m (p + 0x18) 4 ∧ Mem.num m (p + 0x18) 4 ≤ 4194304 ∧ 1 ≤ Mem.num m (p + 0x1C) 2 ∧ Mem.num m (p + 0x1C) 2 ≤ 4096)
    && Mem.num m (p + 0x18) 4 &&& (Mem.num m (p + 0x18) 4 - 1) == 0

/-- Every granule of the load has been received. -/
def Load.complete (l : Load) : Bool := decide (ceilDiv l.bytes 64 ≤ l.got.length)

/-- SEASON_INSTALL: every granule received and the key imported, the Season is checked, the package verified, the Season installed (R281,
R282, R836), or with VERIFY_ONLY only reported. -/
def execSeasonInstall (load : Nat) (facts : InstallFacts) (s : State) : Host.Outcome State Fault Refusal :=
  match s.loads.look load with
  | none => .next s
  | some l =>
    match s.parts.look l.part with
    | none => .next s
    | some q =>
      if !l.complete ∨ l.dark then .next s
      else
        let x := seasonOf l.img facts.ext facts.plain
        let svcs := svcsOf l.img
        match s.seasonRefusal q l.img x svcs facts.sigOk with
        | some d => .next (endOp l.op 0x0300 d (abandonLoad load s))
        | none =>
          if !l.key ∧ !(l.source = 1 ∧ q.contentKey) then .next s
          else if !packOk l.img l.bytes ∨ !facts.tagsOk ∨ (l.key ∧ l.setDigest ≠ x.packDigest) then .next (endOp l.op 0x0301 0 (abandonLoad load s))
          else if l.verifyOnly then .next (endOp l.op 0 0 (abandonLoad load s))
          else
            let staged := q.roomFor l
            let s1 := { s with loads := s.loads.del load }
            let s2 := s1.setPart l.part { q with loading := none, contentKey := true, staged := if staged then some l.img else none, stagedBytes := if staged then l.bytes else 0 }
            let s3 := installSeason l.part x svcs s2
            let s4 := s3.setSec (fun c => { c with pkgDigests := c.pkgDigests.put (0x10 + l.part) (c.pkgDigests.val (0x10 + l.part) 0 + 1) })
            .next (endOp l.op 0 0 (noticePart l.part (serviceChange (svcs.map (fun e => e.2.sid)) s4)))

end Sys2Proof.Machine
end

