-- ==== Sys2Proof/Machine/Mail.lean ====
section
/-! DEFINITION. The mailbox protocol: taking a request, the checks of R236 in their order, responses, long operations and locks
(06_mailboxes_and_commands.md). -/

namespace Sys2Proof.Machine

open Sys2Proof

/-! ## Return codes (Table: Return codes) -/

def rcOk : Nat := 0x0000
def rcStarted : Nat := 0x0001
def rcOpcode : Nat := 0x0100
def rcPermit : Nat := 0x0101
def rcLockedOut : Nat := 0x0102
def rcStarting : Nat := 0x0103
def rcAbsent : Nat := 0x0104
def rcInvalid : Nat := 0x0105
def rcNoObject : Nat := 0x0106
def rcState : Nat := 0x0107
def rcBusy : Nat := 0x0200
def rcFull : Nat := 0x0201
def rcOverridden : Nat := 0x0202
def rcAborted : Nat := 0x0203
def rcRefused : Nat := 0x0300
def rcSignature : Nat := 0x0301
def rcUnbound : Nat := 0x0302

/-! ## The command set (Tables: Device commands to Debug commands; R222, R267, R268) -/

/-- The channels of the Who column. -/
def whoP : Nat := 1
def whoV : Nat := 2
def whoN : Nat := 4
def whoS : Nat := 8

/-- The commands: opcode, Who as OWNERSHIP_READ gives it, and whether the command is marked L. -/
def cmdTable : List (Nat × Nat × Bool) :=
  [(0x0101, 7, false), (0x0102, 5, false), (0x0103, 5, false), (0x0104, 5, true), (0x0105, 15, false), (0x0106, 7, false), (0x0107, 5, false)]
  ++ [(0x0201, 7, false), (0x0202, 5, false), (0x0203, 5, true)]
  ++ [(0x0301, 5, false), (0x0302, 5, true), (0x0303, 5, true), (0x0304, 5, true), (0x0305, 5, false), (0x0306, 5, false)]
  ++ [(0x0401, 5, true), (0x0402, 5, false), (0x0403, 5, false), (0x0404, 5, true), (0x0405, 5, false), (0x0406, 5, false)]
  ++ [(0x0407, 5, false), (0x0408, 5, false), (0x0409, 5, true)]
  ++ [(0x0501, 7, false), (0x0502, 3, false), (0x0503, 3, false), (0x0504, 3, false), (0x0505, 3, false), (0x0506, 1, false)]
  ++ [(0x0507, 5, false), (0x0508, 5, false)]
  ++ [(0x0601, 5, false), (0x0602, 5, false), (0x0603, 5, true), (0x0604, 5, false), (0x0605, 4, true), (0x0606, 5, false)]
  ++ [(0x0701, 5, true), (0x0702, 5, false), (0x0703, 5, false), (0x0704, 5, false), (0x0705, 5, true), (0x0706, 5, false)]
  ++ [(0x0801, 12, false), (0x0802, 4, true), (0x0803, 12, false), (0x0804, 4, false), (0x0805, 4, false), (0x0806, 4, true), (0x0807, 12, false)]
  ++ [(0x0901, 5, false), (0x0902, 5, true), (0x0903, 5, true), (0x0904, 5, true), (0x0905, 5, false)]
  ++ [(0x0A01, 5, false), (0x0A02, 5, false), (0x0A03, 5, false), (0x0A04, 5, false), (0x0A05, 5, false)]

/-- The channel of a mailbox. -/
def boxWho : Mbox → Nat
  | .pf _ => whoP
  | .vf _ => whoV
  | .mgmt => whoN
  | .sec => whoS

/-- The mailbox takes commands of the group (R222): the PF mailboxes all but 0x08xx, the security mailbox 0x08xx alone. -/
def boxTakes (m : Mbox) (g : Nat) : Bool :=
  match m with
  | .pf _ => g != 8
  | .sec => g == 8
  | _ => true

/-- The mailbox is there: PF mailboxes 0-3, and the mailboxes of VFs that exist. -/
def State.hasBox (s : State) (m : Mbox) : Bool :=
  match m with
  | .pf k => decide (k < 4)
  | .vf v => decide (v < 512 ∧ (s.fn v).state ≠ 0)
  | _ => true

/-- Request fields (R233: bytes beyond PARAM_BYTES count as 0). -/
def trimReq (r : Bytes) : Bytes := fit 512 ((fit 512 r).take (16 + fld r 6 2))
def reqOpcode (r : Bytes) : Nat := fld r 0 2

/-! ## Responses (R10, R227, R229, R231) -/

/-- RETRY_MS: with BUSY and STARTING (R700; log 20). -/
def retryMs (rc : Nat) : Nat := if rc = rcBusy ∨ rc = rcStarting then 100 else 0

/-- The bytes of a response: OPCODE, FLAGS and TOKEN echoed, RESULT_BYTES, RC, DETAIL, OP, RETRY_MS, the results. -/
def respBytes (r : Bytes) (rc detail op : Nat) (result : Bytes) : Bytes :=
  (fit 8 r).take 3 ++ le 1 0 ++ (r.drop 4).take 2 ++ le 2 result.length ++ le 2 rc ++ le 2 detail ++ le 2 op ++ le 2 (retryMs rc) ++ result

/-- The owner record becomes a new key, or none; the management session ends (R847, R859; log 8). -/
def setOwner (key : Bytes) (s : State) : State :=
  remeasure 8 (remeasure 7 (s.setSec (fun c => { c with ownerKey := if key = [] then none else some key, mgmt := none, ownerDue := none })))

/-- An OWNER_UPDATE that waited for the command takes effect (R859). -/
def settleOwner (s : State) : State := match s.sec.ownerDue with | some key => setOwner key s | none => s

/-- Answer the command that a mailbox has taken: Done with its response and the vector 0 message, or a message to the management host;
the response of a command whose mailbox was reset is discarded (R227, R229, R261, R262). -/
def answerBox (m : Mbox) (rc detail op : Nat) (result : Bytes) (s : State) : State :=
  let b := s.box m
  match b.taken with
  | none => s
  | some r =>
    let data := respBytes r rc detail op result
    if b.discard then s.setBox m { b with taken := b.queued, queued := none, discard := false }
    else
      match Mbox.fn m with
      | none => settleOwner ((s.setBox m { b with state := 0, taken := none }).emit (.response m data))
      | some f =>
        let s1 := s.setBox m { b with state := 2, rsp := fit 512 data, taken := none }
        if b.doneIrq then msix f 0 s1 else s1

/-! ## Taking a request (R222-R224, R236, R250, R265, R702, R721) -/

/-- The device answers commands as before readiness (R265, R657): a start is in progress, Winter, Spring, or a flush phase. -/
def State.starting (s : State) : Bool :=
  s.start.stage != 6 || decide (s.pwr.state ≠ 2 ∧ s.pwr.state ≠ 3) || s.ladder.flush.isSome

/-- A CP restart is in progress: CP mailboxes wait (R795). -/
def State.cpsOut (s : State) : Bool := s.ladder.cpRestart != []

/-- A VF mailbox names another function (R224). -/
def vfNamesOther (m : Mbox) (r : Bytes) : Bool :=
  match m with
  | .vf _ => [0x0201, 0x0502, 0x0503, 0x0504, 0x0505].contains (reqOpcode r) && fld r 0x10 2 != 0xFFFF
  | _ => false

/-- The first four checks of R236, and the Failed stage (R721). -/
def State.earlyCheck (s : State) (m : Mbox) (r : Bytes) : Option (Nat × Nat) :=
  let op := reqOpcode r
  match cmdTable.find? (fun c => decide (c.1 = op)) with
  | none => some (rcOpcode, 0)
  | some c =>
    let free := decide (op = 0x0101 ∨ op = 0x0102 ∨ op = 0x0105)
    let host : Bool := match m with | .pf _ => true | .sec => true | _ => false
    if !boxTakes m (op / 256) || (c.2.1 &&& boxWho m) == 0 then some (rcPermit, 1)
    else if vfNamesOther m r then some (rcPermit, 2)
    else if op / 256 = 0x0A ∧ !s.sec.unlocked then some (rcPermit, 3)
    else if op = 0x0502 ∧ (boxWho m = whoV ∨ fld r 0x10 2 ≠ 0xFFFF) ∧ bit (fld r 0x14 1) 1 then some (rcPermit, 4)
    else if host && !free && s.mail.lockout.getLsbD (op / 256) then some (rcLockedOut, 0)
    else if s.start.stage = 7 then
      (if op = 0x0101 ∨ op = 0x0102 ∨ op = 0x0704 ∨ (op = 0x0806 ∧ boxWho m = whoN) then none else some (rcState, 0))
    else if s.starting && !decide (op = 0x0101 ∨ op = 0x0102) then some (rcStarting, 0)
    else none

/-- Serve a request that a mailbox holds Busy as far as the first four checks go. -/
def serveBox (m : Mbox) (s : State) : State :=
  match (s.box m).taken with
  | none => s
  | some r =>
    match s.earlyCheck m r with
    | some (rc, d) => answerBox m rc d 0 [] s
    | none => s

/-- The interrupt source of a mailbox's requests; the security processor takes its own (14, Table: Source map). -/
def boxSource : Mbox → Option Nat
  | .pf k => some (66 + k)
  | .mgmt => some 70
  | .vf v => some (71 + v / 32)
  | .sec => none

/-- Take a request (R225, R261): one that comes while a discarded command still runs waits for it. -/
def takeRequest (m : Mbox) (req : Bytes) (s0 : State) : State :=
  let s := match boxSource m with | some n => intcBoth n s0 | none => s0
  let b := s.box m
  let r := trimReq req
  let s1 := s.setBox m (if b.taken.isSome && b.discard then { b with state := 1, queued := some r } else { b with state := 1, taken := some r, rsp := [] })
  if s.cpsOut && boxWho m != whoS && !(boxWho m == whoN && reqOpcode r / 256 == 8) then s1
  else if b.taken.isSome && b.discard then s1
  else serveBox m s1

/-- Writing MB_CTRL.GO (R225, R226). Before configuration ready no BAR responds; in the Failed stage VF mailboxes are not served. -/
def execGo (mb : Mbox) (s : State) : Host.Outcome State Fault Refusal :=
  let b := s.box mb
  if boxWho mb = whoN ∨ !s.hasBox mb ∨ b.state = 1 ∨ !s.start.cfgReady ∨ s.pins.perst ∨ s.pins.thermtrip then .next s
  else .next (takeRequest mb (b.req.read 0 512) s)

/-- Writing MB_CTRL.ACK (R230). -/
def execAck (mb : Mbox) (s : State) : Host.Outcome State Fault Refusal :=
  let b := s.box mb
  .next (if b.state = 2 then s.setBox mb { b with state := 0 } else s)

/-- Writing MB_NOTICE_HEAD (R266): a value between the head and the tail. -/
def execMbNoticeHead (mb : Mbox) (val : Nat) (s : State) : Host.Outcome State Fault Refusal :=
  let b := s.box mb
  let v := val % 16
  .next (if boxWho mb ≠ whoN ∧ s.hasBox mb ∧ (v + 16 - b.head) % 16 ≤ (b.tail + 16 - b.head) % 16 then s.setBox mb { b with head := v } else s)

/-! ## Long operations, locks and overrides (R239-R242, R248, R254, R255) -/

/-- The next number not held by an outstanding operation (R240). -/
def nextOpFrom (ops : List OpRec) : Nat → Nat → Nat
  | 0, n => n
  | k + 1, n =>
    let m := if n = 0 ∨ 65536 ≤ n then 1 else n
    if ops.any (fun r => decide (r.op = m) && !r.done) then nextOpFrom ops k (m + 1) else m

/-- Open an operation with its locks: the number and the state. -/
def openOp (m : Mbox) (opcode : Nat) (locks : List LockObj) (s : State) : Nat × State :=
  let n := nextOpFrom s.mail.ops 65 s.mail.nextOp
  let r : OpRec := { op := n, mb := m, opcode := opcode }
  (n, s.setMail (fun x => { x with
    nextOp := if n = 65535 then 1 else n + 1
    ops := r :: x.ops.filter (fun y => !decide (y.op = n))
    locks := x.locks ++ locks.map (fun l => (l, n)) }))

/-- Outstanding long operations (R242). -/
def State.opsOut (s : State) : Nat := (s.mail.ops.filter (fun r => !r.done)).length

/-- The locks that stand in the way of the objects a command needs; the whole device stands in the way of every change. -/
def State.conflicts (s : State) (needs : List LockObj) : List Nat :=
  (s.mail.locks.filter (fun l => l.1 == .whole || needs.contains .whole || needs.contains l.1)).map (·.2)

/-- The load that an operation carries. -/
def State.loadOfOp (s : State) (op : Nat) : Option Nat := (s.loads.find? (fun e => decide (e.2.op = op))).map (·.1)

/-- Undo the work of an operation that ends early: a load, an upload, a PROBE or a capture (R254, R260, R803). -/
def undoOp (op : Nat) (s : State) : State :=
  let s0 := match s.loadOfOp op with | some id => abandonLoad id s | none => s
  let s1 := s0.setSec (fun c => { c with uploads := c.uploads.filter (fun u => !decide (u.op = op)) })
  let s2 := { s1 with probes := s1.probes.filter (fun p => !decide (p.op = op)) }
  match s2.ladder.capture with
  | some c => if c.op = some op then s2.setRec (fun r => { r with capture := none }) else s2
  | none => s2

/-- A PF operation that a management command overrides (R254); tenant turnover ends those of every mailbox (R839). -/
def OpRec.overridable (r : OpRec) (all : Bool) : Bool :=
  (all || (match r.mb with | .pf _ => true | _ => false)) && [0x0401, 0x0603, 0x0701].contains r.opcode && !r.done

/-- What a command checks beyond the first four checks, and what it does (R236, R237, R239). -/
structure Plan where
  /-- 5: it names a block that the variant lacks. -/
  absent : Bool := false
  /-- 6: invalid fields, by ascending offset. -/
  bad : List (Nat × Bool) := []
  /-- 7: objects that do not exist, with the DETAIL. -/
  missing : List (Bool × Nat) := []
  /-- 8: a state that the command does not accept. -/
  state : Bool := false
  /-- 9: other reasons to be BUSY, with the DETAIL. -/
  busy : List (Bool × Nat) := []
  /-- 9: objects that must not be locked; `none` for a command whose result is its only effect (R249). -/
  needs : Option (List LockObj) := none
  /-- 10: exhausted resources, with the DETAIL. -/
  full : List (Bool × Nat) := []
  /-- 11: the command's own codes. -/
  own : List (Bool × Nat) := []
  /-- The response waits for something else that has to end first. -/
  waits : Bool := false
  /-- A command marked L that this time is done at once (R675). -/
  quick : Bool := false
  /-- The effect, given the operation's number, and the results. -/
  run : Nat → State → State × Bytes := fun _ s => (s, [])

/-- The first condition that holds, with its code. -/
def firstOf (l : List (Bool × Nat)) : Option Nat := (l.find? (·.1)).map (·.2)

/-- Reserved header fields of a request (R9): FLAGS, byte 3, PARAM_BYTES above 496, bytes 8-15. -/
def headBad (r : Bytes) : List (Nat × Bool) :=
  [(2, fld r 2 1 > 1), (3, fld r 3 1 != 0), (6, decide (496 < fld r 6 2)), (8, fld r 8 8 != 0)]

/-- The checks from 5 on, short of locks (R236). -/
def Plan.check (p : Plan) (r : Bytes) (long : Bool) (s : State) : Option (Nat × Nat) :=
  if p.absent then some (rcAbsent, 0)
  else
    match ((headBad r ++ p.bad).find? (·.2)).map (·.1) with
    | some off => some (rcInvalid, off)
    | none =>
      match firstOf p.missing with
      | some d => some (rcNoObject, d)
      | none =>
        if p.state then some (rcState, 0)
        else
          match firstOf p.busy with
          | some d => some (rcBusy, d)
          | none => if long ∧ 64 ≤ s.opsOut then some (rcBusy, 3) else none

/-- The checks after the locks. -/
def Plan.last (p : Plan) : Option (Nat × Nat) :=
  match firstOf p.full with
  | some d => some (rcFull, d)
  | none => (firstOf p.own).map (fun rc => (rc, 0))

/-- How a command that has run is answered: at its mailbox, or as the operation that it had become (R255). -/
def answerAs (late : Option Nat) (m : Mbox) (rc detail op : Nat) (result : Bytes) (s : State) : State :=
  match late with
  | some o => endOp o rc detail s
  | none => answerBox m rc detail op result s

/-- Run a command's plan once nothing locks its objects. -/
def runPlan (late : Option Nat) (m : Mbox) (opcode : Nat) (long : Bool) (p : Plan) (s : State) : State :=
  match p.last with
  | some (rc, d) => answerAs late m rc d 0 [] s
  | none =>
    let locks := p.needs.getD []
    if long && !p.quick then
      match late with
      | some o => (p.run o (s.setMail (fun x => { x with locks := x.locks ++ locks.map (fun l => (l, o)) }))).1
      | none =>
        -- the response goes first, then the work (R239)
        let (n, s1) := openOp m opcode locks s
        (p.run n (answerBox m rcStarted 0 n (p.run n s1).2 s1)).1
    else
      let r := p.run 0 s
      if p.waits then
        let n := 65536 + (Mbox.num m)
        r.1.setMail (fun x => { x with locks := x.locks ++ locks.map (fun l => (l, n)) })
      else answerAs late m rcOk 0 0 r.2 r.1

/-- A command that has passed the first four checks: the remaining checks, the locks, the effect. A management command overrides the PF's
loads, probes and captures (R254) and waits for every other lock (R255). -/
def serveCmd (late : Option Nat) (m : Mbox) (opcode : Nat) (r : Bytes) (s : State) (plan : Bytes → State → Plan) : State :=
  let long := (cmdTable.find? (fun c => decide (c.1 = opcode))).any (·.2.2)
  let p := plan r s
  match p.check r long s with
  | some (rc, d) => answerAs late m rc d 0 [] s
  | none =>
    let mine := 65536 + (Mbox.num m)
    let held := match p.needs with | none => [] | some n => (s.conflicts n).filter (fun o => o != mine)
    if held = [] then runPlan late m opcode long p s
    else if boxWho m ≠ whoN then answerBox m rcBusy 1 0 [] s
    else
      let given := s.mail.ops.filter (fun o => o.overridable (decide (opcode = 0x0802)) && held.contains o.op)
      let s1 := forEach given s (fun s o => endOp o.op rcOverridden 0 (undoOp o.op s))
      let held1 : List Nat := match p.needs with | none => [] | some n => (s1.conflicts n).filter (fun o => o != mine)
      if held1 = [] then runPlan late m opcode long (plan r s1) s1
      else if late.isSome then s1
      else s1.setMail (fun x => { x with mgmtWait := some (x.mgmtWait.getD (opcode, s.clk.tick)) })

/-- A command of the command set comes to be served at a mailbox. -/
def runCmd (opcode : Nat) (m : Mbox) (s : State) (plan : Bytes → State → Plan) : State :=
  if (s.cpsOut && opcode / 256 != 8) || s.pins.thermtrip then s
  else
    match (if boxWho m = whoN then s.mail.late.find? (fun l => decide (reqOpcode l.2 = opcode)) else none) with
    | some (o, r) =>
      let s1 := serveCmd (some o) m opcode r s plan
      if (s1.mail.ops.any (fun x => decide (x.op = o) && x.done)) || s1.mail.locks.any (fun l => decide (l.2 = o)) then
        s1.setMail (fun x => { x with late := x.late.filter (fun l => !decide (l.1 = o)) })
      else s1
    | none =>
      match (s.box m).taken with
      | none => s
      | some r =>
        if reqOpcode r ≠ opcode ∨ ((s.box m).state ≠ 1 ∧ !(s.box m).discard) ∨ (s.mail.locks.any (fun l => decide (l.2 = 65536 + (Mbox.num m)))) then s
        else
          let s1 := serveCmd none m opcode r s plan
          if (s1.box m).taken.isNone ∧ boxWho m = whoN then s1.setMail (fun x => { x with mgmtWait := none }) else s1

/-- A management command has waited 10,000 calendar ticks behind a lock (R255): it is answered STARTED and goes on as a long operation. -/
def execMgmtQueueTimeout (op : Nat) (s : State) : Host.Outcome State Fault Refusal :=
  match s.mail.mgmtWait, (s.box .mgmt).taken with
  | some (o, t), some r =>
    if o ≠ op ∨ s.clk.tick < t + 10000 then .next s
    else
      let (n, s1) := openOp .mgmt o [] s
      let s2 := s1.setMail (fun x => { x with mgmtWait := none, late := x.late ++ [(n, r)] })
      .next (answerBox .mgmt rcStarted 0 n [] s2)
  | _, _ => .next s

/-! ## What commands name -/

/-- The function that FUNC names (R224): 0xFFFF is the issuing function, the PF for the management host. -/
def funcOf (m : Mbox) (n : Nat) : Nat := if n = 0xFFFF then (Mbox.fn m).getD 512 else n

/-- FUNC carries a reserved encoding. -/
def funcBad (n : Nat) : Bool := decide (512 ≤ n ∧ n ≠ 0xFFFF)

/-- The function does not exist. -/
def State.noFn (s : State) (f : Nat) : Bool := decide (f ≠ 512 ∧ (s.fn f).state = 0)

/-- The LEVEL bit. -/
def expert (r : Bytes) : Bool := bit (fld r 2 1) 0

/-- Results laid out under R232: each field, its size and value, at the next multiple of its size. -/
def pack (l : List (Nat × Nat)) : Bytes :=
  l.foldl (fun b e => b ++ zeros ((e.1 - b.length % e.1) % e.1) ++ le e.1 e.2) []

/-- The request of an opcode that a mailbox's command would serve now: a management command that became an operation (R255), else the one taken. -/
def State.requestOf (s : State) (opcode : Nat) (m : Mbox) : Bytes :=
  match (if boxWho m = whoN then s.mail.late.find? (fun l => decide (reqOpcode l.2 = opcode)) else none) with
  | some (_, r) => r
  | none => (s.box m).taken.getD []

/-- Bytes between fields must be 0 (R232): offset and count. -/
def gap (r : Bytes) (off n : Nat) : Nat × Bool := (off, fld r off n != 0)

end Sys2Proof.Machine
end

