-- ==== Sys2Proof/Machine/Intc.lean ====
section
/-! DEFINITION. The interrupt controllers: claim and complete, source configuration, hold-off, wake latches and the register words
(14_interrupt_controller.md). -/

namespace Sys2Proof.Machine

open Sys2Proof

/-- The value that the last read returned (log 13). -/
def State.answer (s : State) (v : Nat) : State := { s with out := { s.out with read := BitVec.ofNat 64 v } }

/-- The source is connected on this part (R603, R604), at a target's bank or as a shared source. -/
def State.srcOk (s : State) (h tgt src : Nat) : Bool := decide (h < 2 ∧ tgt < 2) && srcConnected s.ident.variant h src

/-- A rising edge of a source's input (R606-R608, R610, R612). -/
def execSourceEdge (h tgt src : Nat) (s : State) : Host.Outcome State Fault Refusal :=
  .next (if s.srcOk h tgt src then intcEdge h (srcKey tgt src) s else s)

/-- A level input is asserted or withdrawn (R609, R625). -/
def execLevelInputChange (h tgt src : Nat) (active : Bool) (s : State) : Host.Outcome State Fault Refusal :=
  .next (if s.srcOk h tgt src then intcLevel h (srcKey tgt src) active s else s)

/-- A claim (R614-R617, R622): the number that it returns, and the state. -/
def claim (h t : Nat) (s : State) : Nat × State :=
  let c := s.intc h
  if (c.service.look t).isSome then (1023, s)
  else
    match c.best t with
    | none => (1023, s.setIntc h { c with spurious := c.spurious.put t (sat 16 (c.spurious.val t 0 + 1)) })
    | some n =>
      let k := srcKey t n
      let x := c.srcs.val k {}
      let hold := c.holdoff.val x.group 0
      (n, s.setIntc h { c with
        service := c.service.put t n
        srcs := c.srcs.put k { x with pend := false }
        remain := if hold = 0 then c.remain else c.remain.put x.group hold })

/-- A complete (R618-R620, R625, R626, R640). -/
def complete (h t num : Nat) (s : State) : State :=
  let c := s.intc h
  if c.service.look t = some num then
    let k := srcKey t num
    let x := c.srcs.val k {}
    let n := min 1024 (x.reclaims + 1)
    let c1 := { c with service := c.service.del t }
    if x.edge then s.setIntc h c1
    else if !x.input then s.setIntc h { c1 with srcs := c.srcs.put k { x with reclaims := 0 } }
    else if n < 1024 then s.setIntc h { c1 with srcs := c.srcs.put k { x with reclaims := n } }
    else
      let s1 := s.setIntc h { c1 with srcs := c.srcs.put k { x with reclaims := n, masked := true, held := true }, automask := true }
      intcAttention h (logEvent { kind := 0xF, severity := 0, unit := 0xB, index := h, data := num } s1)
  else
    let s1 := s.setIntc h { c with bad := if c.bad.contains t then c.bad else c.bad ++ [t] }
    intcAttention h (logEvent { kind := 0xE, severity := 0, unit := 0xB, index := h, data := num } s1)

/-- A CP reads INTC_CLAIM. -/
def execIntcClaim (h tgt : Nat) (s : State) : Host.Outcome State Fault Refusal :=
  if 2 ≤ h ∨ 2 ≤ tgt ∨ !s.pwr.cpClock then .next s
  else let r := claim h tgt s; .next (r.2.answer r.1)

/-- A CP writes INTC_COMPLETE. -/
def execIntcComplete (h tgt num : Nat) (s : State) : Host.Outcome State Fault Refusal :=
  if 2 ≤ h ∨ 2 ≤ tgt ∨ !s.pwr.cpClock then .next s else .next (complete h tgt num s)

/-- A write of INTC_SRC (R604, R611, R627): its configuration, the pending edge that a disable discards, the W1C bits. -/
def writeSrc (h tgt src : Nat) (w : BitVec 32) (s : State) : State :=
  let c := s.intc h
  let k := srcKey tgt src
  let x := c.srcs.val k {}
  let shared := decide (64 ≤ src)
  let on := w.getLsbD 0
  let y := { x with
    enable := on
    edge := w.getLsbD 1
    wake := decide (64 ≤ src ∧ src < 128) && w.getLsbD 2
    target := if shared then bits w.toNat 3 3 else 0
    group := bits w.toNat 8 4
    pend := x.pend && (on || !x.enable)
    lost := x.lost && !w.getLsbD 14
    masked := x.masked && !w.getLsbD 15
    held := x.held && !w.getLsbD 15
    reclaims := if w.getLsbD 15 then 0 else x.reclaims }
  s.setIntc h { c with srcs := c.srcs.put k y }

def execIntcSrc (h tgt src : Nat) (w : BitVec 32) (s : State) : Host.Outcome State Fault Refusal :=
  .next (if s.srcOk h tgt src && s.pwr.cpClock then writeSrc h tgt src w s else s)

/-- The tick edge at which a group's REMAIN reaches 0 (R623). -/
def execHoldoffEnd (h g : Nat) (s : State) : Host.Outcome State Fault Refusal :=
  let c := s.intc h
  .next (if c.remain.val g 0 = 1 then s.setIntc h { c with remain := c.remain.del g } else s)

/-- An armed wake source rises while the controller's clock is stopped (R628, R629). -/
def execWakeLatch (h src : Nat) (s : State) : Host.Outcome State Fault Refusal :=
  .next (if s.pwr.cpClock then s else latchWake h src s)

/-! ## Register words -/

/-- The word of a source's INTC_SRC register. -/
def Intc.srcWord (c : Intc) (k : Nat) : Nat :=
  let x := c.srcs.val k {}
  b2n x.enable + 2 * b2n x.edge + 4 * b2n x.wake + 8 * x.target + 16 * x.group + 4096 * b2n (c.pending k) + 8192 * b2n (c.inService k)
    + 16384 * b2n x.lost + 32768 * b2n x.masked + 65536 * x.reclaims

/-- A bit map of the numbers below 32 that pass a test. -/
def bitMap (n : Nat) (f : Nat → Bool) : Nat := (List.range n).foldl (fun a i => if f i then a + 2 ^ i else a) 0

/-- The 32-bit word at a byte offset, with no read effect (R604, R631). -/
def State.intcPeek (s : State) (h off : Nat) : Nat :=
  let c := s.intc h
  let src (k n : Nat) : Nat := if s.srcOk h 0 n then c.srcWord k else 0
  if off = 0 then b2n (c.bad.contains 0) + 2 * b2n (c.bad.contains 1) + 4 * b2n c.automask + 8 * b2n c.parity
  else if off = 8 then c.lostCount
  else if off = 0x10 then bitMap 32 (fun i => c.latch.contains (64 + i))
  else if off = 0x14 then bitMap 32 (fun i => c.latch.contains (96 + i))
  else if 0x400 ≤ off ∧ off < 0x480 then
    let g := (off - 0x400) / 4
    c.holdoff.val g 0 + 65536 * c.remain.val g 0
  else if 0x1000 ≤ off ∧ off < 0x1400 then
    let t := (off - 0x1000) / 0x200
    let o := (off - 0x1000) % 0x200
    if o = 0 then (if (c.service.look t).isSome then 1023 else (c.best t).getD 1023)
    else if o = 8 then (match c.service.look t with | some n => n + 2 ^ 31 | none => 0)
    else if o = 0xC then c.spurious.val t 0
    else if 0x80 ≤ o ∧ o < 0x100 then
      let w := (o - 0x80) / 4
      bitMap 32 (fun i => let n := 32 * w + i; decide (c.routed (srcKey t n) = t) && c.pending (srcKey t n))
    else 0
  else if 0x2000 ≤ off ∧ off < 0x2200 then src (64 * ((off - 0x2000) / 0x100) + (off - 0x2000) % 0x100 / 4) ((off - 0x2000) % 0x100 / 4)
  else if 0x3000 ≤ off ∧ off < 0x4000 then
    let n := (off - 0x3000) / 4
    if 64 ≤ n then src (64 + n) n else 0
  else 0

/-- A read of a word with its effect, as a CP makes it: a claim, or the clear of an RC field (R11, R614). -/
def intcTake (h off : Nat) (s : State) : Nat × State :=
  let c := s.intc h
  if off = 0x1000 ∨ off = 0x1200 then claim h ((off - 0x1000) / 0x200) s
  else
    let v := s.intcPeek h off
    if off = 8 then (v, s.setIntc h { c with lostCount := 0 })
    else if off = 0x100C ∨ off = 0x120C then (v, s.setIntc h { c with spurious := c.spurious.del ((off - 0x1000) / 0x200) })
    else (v, s)

/-- A write of a word, as a CP makes it (R611, R618, R624). -/
def intcWrite (h off : Nat) (w : BitVec 32) (s : State) : State :=
  let c := s.intc h
  if off = 0 then
    intcAttention h (s.setIntc h { c with
      bad := c.bad.filter (fun t => !w.getLsbD t)
      automask := c.automask && !w.getLsbD 2
      parity := c.parity && !w.getLsbD 3 })
  else if 0x400 ≤ off ∧ off < 0x480 then s.setIntc h { c with holdoff := c.holdoff.put ((off - 0x400) / 4) (w.toNat % 65536) }
  else if off = 0x1004 ∨ off = 0x1204 then complete h ((off - 0x1000) / 0x200) (w.toNat % 1024) s
  else if 0x2000 ≤ off ∧ off < 0x2200 then
    let t := (off - 0x2000) / 0x100
    let n := (off - 0x2000) % 0x100 / 4
    if s.srcOk h t n then writeSrc h t n w s else s
  else if 0x3000 ≤ off ∧ off < 0x4000 then
    let n := (off - 0x3000) / 4
    if 64 ≤ n ∧ s.srcOk h 0 n then writeSrc h 0 n w s else s
  else s

/-- A CP reads INTC_LOST_COUNT, and INTC_SPURIOUS of a target (R11). -/
def execIntcLostCountRead (h : Nat) (s : State) : Host.Outcome State Fault Refusal := let r := intcTake h 8 s; .next (r.2.answer r.1)
def execIntcSpuriousRead (h tgt : Nat) (s : State) : Host.Outcome State Fault Refusal :=
  let r := intcTake h (0x100C + 0x200 * tgt) s; .next (r.2.answer r.1)

end Sys2Proof.Machine
end

