-- ==== Sys2Proof/Machine/TileCtl.lean ====
section
/-! DEFINITION. The tile's loads and stores, control flow with the register windows, locked sequences, waits on the timetable and special registers (08_tiles.md; 09_tile_instructions.md). -/

namespace Sys2Proof.Machine

open Sys2Proof

/-! ## Loads -/

/-- The address of a load or a store. -/
def TCtx.addr (c : TCtx) : Nat := (c.a + c.i.simm).toNat

/-- A load of n bytes (R381-R383). -/
def TCtx.load (c : TCtx) (n : Nat) : TRes :=
  let a := c.addr
  if a % n ≠ 0 ∨ storeBytes < a + n then .fault 9 (a / 65536 % 256) none
  else c.consume a n (c.wr (BitVec.ofNat 64 (ofLe (c.x.storeRead a n))))

/-- A store of n bytes, buffered inside a locked sequence (R342, R381). -/
def TCtx.store (c : TCtx) (n : Nat) : TRes :=
  let a := c.addr
  let b := le n c.d.toNat
  if a % n ≠ 0 ∨ storeBytes < a + n then .fault 9 (a / 65536 % 256) none
  else
    match c.x.lock with
    | some l => c.goT { c.x with lock := some { l with stores := l.stores ++ b.zipIdx.map (fun e => (a + e.2, e.1)) } }
    | none => c.goT (c.x.storeClean a b)

/-- LD: 8 bytes (R381-R383). -/
def bodyLd (c : TCtx) : TRes := c.load 8
def execLd (t : Nat) (u : Upset) (s : State) : Host.Outcome State Fault Refusal := runTile t u .ld bodyLd s

/-- LW: 4 bytes, zero-extended (R382). -/
def bodyLw (c : TCtx) : TRes := c.load 4
def execLw (t : Nat) (u : Upset) (s : State) : Host.Outcome State Fault Refusal := runTile t u .lw bodyLw s

/-- LH: 2 bytes, zero-extended. -/
def bodyLh (c : TCtx) : TRes := c.load 2
def execLh (t : Nat) (u : Upset) (s : State) : Host.Outcome State Fault Refusal := runTile t u .lh bodyLh s

/-- LB: 1 byte, zero-extended. -/
def bodyLb (c : TCtx) : TRes := c.load 1
def execLb (t : Nat) (u : Upset) (s : State) : Host.Outcome State Fault Refusal := runTile t u .lb bodyLb s

/-! ## Stores -/

/-- ST: 8 bytes of rd (R381). -/
def bodySt (c : TCtx) : TRes := c.store 8
def execSt (t : Nat) (u : Upset) (s : State) : Host.Outcome State Fault Refusal := runTile t u .st bodySt s

/-- SW: 4 bytes of rd. -/
def bodySw (c : TCtx) : TRes := c.store 4
def execSw (t : Nat) (u : Upset) (s : State) : Host.Outcome State Fault Refusal := runTile t u .sw bodySw s

/-- SH: 2 bytes of rd. -/
def bodySh (c : TCtx) : TRes := c.store 2
def execSh (t : Nat) (u : Upset) (s : State) : Host.Outcome State Fault Refusal := runTile t u .sh bodySh s

/-- SB: 1 byte of rd. -/
def bodySb (c : TCtx) : TRes := c.store 1
def execSb (t : Nat) (u : Upset) (s : State) : Host.Outcome State Fault Refusal := runTile t u .sb bodySb s

/-! ## Branches -/

/-- The target that an offset field of the instruction names (R384). -/
def TCtx.rel (c : TCtx) (w : Nat) : Nat :=
  (BitVec.ofNat 64 c.x.pc + ((BitVec.ofNat w c.i.imm).signExtend 64 <<< 2)).toNat

/-- Transfer control; a target beyond the tile store faults at the transferring instruction (R384). -/
def TCtx.goto (c : TCtx) (t : Nat) : TRes := if storeBytes ≤ t ∨ t % 4 ≠ 0 then .fault 9 (t / 65536 % 256) none else .jump c.s t

/-- A conditional branch by IMM16. -/
def TCtx.branch (c : TCtx) (b : Bool) : TRes := if b then c.goto (c.rel 16) else .go c.s

/-- BEQ: rd = ra (R384). -/
def bodyBeq (c : TCtx) : TRes := c.branch (c.d == c.a)
def execBeq (t : Nat) (u : Upset) (s : State) : Host.Outcome State Fault Refusal := runTile t u .beq bodyBeq s

/-- BNE: rd differs from ra. -/
def bodyBne (c : TCtx) : TRes := c.branch (c.d != c.a)
def execBne (t : Nat) (u : Upset) (s : State) : Host.Outcome State Fault Refusal := runTile t u .bne bodyBne s

/-- BLT: rd < ra, signed. -/
def bodyBlt (c : TCtx) : TRes := c.branch (c.d.slt c.a)
def execBlt (t : Nat) (u : Upset) (s : State) : Host.Outcome State Fault Refusal := runTile t u .blt bodyBlt s

/-- BGE: rd ≥ ra, signed. -/
def bodyBge (c : TCtx) : TRes := c.branch (!c.d.slt c.a)
def execBge (t : Nat) (u : Upset) (s : State) : Host.Outcome State Fault Refusal := runTile t u .bge bodyBge s

/-- BLTU: rd < ra, unsigned. -/
def bodyBltu (c : TCtx) : TRes := c.branch (c.d.ult c.a)
def execBltu (t : Nat) (u : Upset) (s : State) : Host.Outcome State Fault Refusal := runTile t u .bltu bodyBltu s

/-- BGEU: rd ≥ ra, unsigned. -/
def bodyBgeu (c : TCtx) : TRes := c.branch (!c.d.ult c.a)
def execBgeu (t : Nat) (u : Upset) (s : State) : Host.Outcome State Fault Refusal := runTile t u .bgeu bodyBgeu s

/-! ## Jumps, calls, locks, Season state and special registers -/

/-- CALL with the next window free: arguments, the return address, depth + 1 (R329, R385). -/
def Tile.enter (x : Tile) (ret : Nat) : Tile :=
  let k := x.depth % 7
  let n := (x.depth + 1) % 7
  let y := (List.range 4).foldl (fun (y : Tile) i => y.setWreg n i (x.wreg k (8 + i))) x
  { (y.setWreg n 15 (BitVec.ofNat 64 ret)) with depth := x.depth + 1 }

/-- RET with the caller's window resident: results, depth - 1 (R329). -/
def Tile.leave (x : Tile) : Tile :=
  let k := x.depth % 7
  let n := (x.depth - 1) % 7
  { ((x.setWreg n 8 (x.wreg k 0)).setWreg n 9 (x.wreg k 1)) with depth := x.depth - 1 }

/-- Take a window trap (R330): w12-w15 of the trap window, and the handler's address. -/
def TCtx.windowTrap (c : TCtx) (cause depth : Nat) (target : Option Nat) : TRes :=
  let x := c.x
  let sa := x.spillBase.toNat + 128 * depth
  let y := (((x.setWreg 7 12 (BitVec.ofNat 64 sa)).setWreg 7 13 (BitVec.ofNat 64 (depth % 7))).setWreg 7 14 (BitVec.ofNat 64 cause)).setWreg 7 15
    (BitVec.ofNat 64 x.pc)
  let z : Tile := { y with inTrap := true, trapPc := x.pc, trapJump := target }
  .jump (traceEv c.p 4 cause (c.s.setTile c.p z)) (x.trapVec.toNat + 64 * cause)

/-- CALL and CALLR (R329, R332, R333; the order of the causes is R419's). -/
def TCtx.callTo (c : TCtx) (t : Nat) : TRes :=
  let x := c.x
  if storeBytes ≤ t ∨ t % 4 ≠ 0 then .fault 9 (t / 65536 % 256) none
  else if x.depth + 1 - x.low = 7 ∧ x.spillBytes.toNat ≤ 128 * x.low then .fault 3 0 none
  else if x.inTrap then .fault 2 0 none
  else if x.depth + 1 - x.low = 7 then c.windowTrap 0 x.low (some t)
  else .jump (c.s.setTile c.p (x.enter (x.pc + 4))) t

/-- RET (R329, R332). It continues at w15 of the window it leaves. -/
def TCtx.retTo (c : TCtx) : TRes :=
  let x := c.x
  let t := (x.wreg (if x.inTrap then 7 else x.depth % 7) 15).toNat
  if x.depth = 0 then .fault 1 0 none
  else if storeBytes ≤ t ∨ t % 4 ≠ 0 then .fault 9 (t / 65536 % 256) none
  else if x.inTrap then .fault 2 0 none
  else if x.depth - 1 < x.low then c.windowTrap 1 (x.depth - 1) none
  else .jump (c.s.setTile c.p x.leave) t

/-- TRET (R331): back in the trapping window, with the lowest resident depth moved, the CALL or RET completes. -/
def TCtx.tretTo (c : TCtx) : TRes :=
  let x := c.x
  if !x.inTrap then .fault 1 0 none
  else
    let y : Tile := { x with inTrap := false }
    match x.trapJump with
    | some t =>
      let z : Tile := { y with low := x.low + 1 }
      .jump (traceEv c.p 2 t (c.s.setTile c.p (z.enter (x.trapPc + 4)))) t
    | none =>
      let t := (y.wreg (y.depth % 7) 15).toNat
      let z : Tile := { y with low := x.low - 1 }
      .jump (traceEv c.p 3 t (c.s.setTile c.p z.leave)) t

/-- STEP_CYCLES of the job's Season. -/
def TCtx.stepCycles (c : TCtx) : Nat := match c.q.season with | some x => x.stepCycles | none => 0

/-- The value of a special register, by its number (08, Registers and structures). -/
def specialRead (n : Nat) (x : Tile) : BitVec 64 :=
  match n with
  | 0 => BitVec.ofNat 64 (x.power + 4 * x.run + 16 * b2n x.inTrap + 32 * b2n x.lock.isSome + 64 * b2n x.inBlk + 128 * b2n x.lockAborted
      + 256 * x.job.getD 0 + 65536 * x.pc)
  | 1 => BitVec.ofNat 64 (x.cause.toNat + 256 * x.fdetail.toNat + 65536 * x.faultPc.toNat)
  | 2 => BitVec.ofNat 64 (x.depth + 4096 * x.low)
  | 3 => BitVec.ofNat 64 (x.rowsDone + 65536 * x.rowsTotal + 2 ^ 32 * x.descAddr)
  | 4 => x.spillBase.setWidth 64
  | 5 => x.spillBytes.setWidth 64
  | 6 => x.trapVec.setWidth 64
  | 7 => x.semKind.setWidth 64
  | 8 => BitVec.ofNat 64 (x.semHeld.toNat + 2 ^ 32 * x.semJob)
  | 9 => BitVec.ofNat 64 (x.loaned + 65536 * x.loanJob)
  | 10 => BitVec.ofNat 64 (x.ce + 65536 * x.ue)
  | 11 => x.fpcr.setWidth 64
  | _ => 0

/-- The clear of the RC fields of a special register. -/
def specialClear (n : Nat) (x : Tile) : Tile :=
  match n with
  | 1 => { x with cause := 0, fdetail := 0, faultPc := 0 }
  | 10 => { x with ce := 0, ue := 0 }
  | _ => x

/-- J: jumps by IMM26 instructions (R384). -/
def bodyJ (c : TCtx) : TRes := c.goto (c.rel 26)
def execJ (t : Nat) (u : Upset) (s : State) : Host.Outcome State Fault Refusal := runTile t u .j bodyJ s

/-- JR: jumps to the address in ra; a target that is not 4-byte aligned is an address fault (log 26). -/
def bodyJr (c : TCtx) : TRes := c.goto c.a.toNat
def execJr (t : Nat) (u : Upset) (s : State) : Host.Outcome State Fault Refusal := runTile t u .jr bodyJr s

/-- CALL: R329, R385. -/
def bodyCall (c : TCtx) : TRes := c.callTo (c.rel 26)
def execCall (t : Nat) (u : Upset) (s : State) : Host.Outcome State Fault Refusal := runTile t u .call bodyCall s

/-- CALLR: calls the address in ra. -/
def bodyCallr (c : TCtx) : TRes := c.callTo c.a.toNat
def execCallr (t : Nat) (u : Upset) (s : State) : Host.Outcome State Fault Refusal := runTile t u .callr bodyCallr s

/-- RET: R329, R385. -/
def bodyRet (c : TCtx) : TRes := c.retTo
def execRet (t : Nat) (u : Upset) (s : State) : Host.Outcome State Fault Refusal := runTile t u .ret bodyRet s

/-- TRET: completes the trapping CALL or RET (R331). -/
def bodyTret (c : TCtx) : TRes := c.tretTo
def execTret (t : Nat) (u : Upset) (s : State) : Host.Outcome State Fault Refusal := runTile t u .tret bodyTret s

/-- NOP: nothing. -/
def bodyNop (c : TCtx) : TRes := .go c.s
def execNop (t : Nat) (u : Upset) (s : State) : Host.Outcome State Fault Refusal := runTile t u .nop bodyNop s

/-- SPILLW: window ra[2:0] to tile store [rb] (R386). -/
def bodySpillw (c : TCtx) : TRes := 
  let a := c.b.toNat
  if !c.x.inTrap then .fault 1 0 none
  else if a % 128 ≠ 0 ∨ storeBytes < a + 128 then .fault 9 (a / 65536 % 256) none
  else c.goT (c.x.storeClean a ((List.range 16).flatMap (fun n => le 8 (c.x.wreg (c.a.toNat % 8) n).toNat)))
def execSpillw (t : Nat) (u : Upset) (s : State) : Host.Outcome State Fault Refusal := runTile t u .spillw bodySpillw s

/-- FILLW: window ra[2:0] from tile store [rb], consuming it (R386, R387). -/
def bodyFillw (c : TCtx) : TRes := 
  let a := c.b.toNat
  if !c.x.inTrap then .fault 1 0 none
  else if a % 128 ≠ 0 ∨ storeBytes < a + 128 then .fault 9 (a / 65536 % 256) none
  else c.consume a 128 (c.goT ((List.range 16).foldl (fun (x : Tile) n =>
    x.setWreg (c.a.toNat % 8) n (word64 (c.x.store.read (a + 8 * n) 8) 0)) c.x))
def execFillw (t : Nat) (u : Upset) (s : State) : Host.Outcome State Fault Refusal := runTile t u .fillw bodyFillw s

/-- LOCK: opens a locked sequence (R340, R345, R409). -/
def bodyLock (c : TCtx) : TRes := 
  match c.x.lock with
  | some _ => .fault 4 0 none
  | none => c.goT { c.x with lock := some { pc := c.x.pc, saved := c.x.regs } }
def execLock (t : Nat) (u : Upset) (s : State) : Host.Outcome State Fault Refusal := runTile t u .lock bodyLock s

/-- The buffered semaphore changes of a locked sequence, oldest first (R342, R347); an increment past 0xFFFF answers its semaphore (R348). -/
def Tile.applySems (x : Tile) (j : Nat) : List (Nat × Nat) → Except Nat Tile
  | [] => .ok x
  | e :: l =>
    if e.1 < 32 then (if 0xFFFF < x.sems.val e.1 0 + e.2 then .error e.1 else (x.semAdd e.1 e.2).applySems j l)
    else (x.semSub (e.1 - 32) e.2 j).applySems j l

/-- UNLOCK: applies the buffered stores and semaphore changes at once (R342, R409); an increment past 0xFFFF faults (R348). -/
def bodyUnlock (c : TCtx) : TRes := 
  match c.x.lock with
  | none => .fault 1 0 none
  | some l =>
    match ({ c.x with lock := none } : Tile).applySems c.j l.sems with
    | .error i => .fault 0xA i none
    | .ok y => c.goT (l.stores.foldl (fun (z : Tile) e => z.storeClean e.1 [e.2]) y)
def execUnlock (t : Nat) (u : Upset) (s : State) : Host.Outcome State Fault Refusal := runTile t u .unlock bodyUnlock s

/-- SYNC: waits until every earlier posted operation is acknowledged (R431). -/
def bodySync (c : TCtx) : TRes := if c.x.posted = 0 then .go c.s else .wait c.s
def execSync (t : Nat) (u : Upset) (s : State) : Host.Outcome State Fault Refusal := runTile t u .sync bodySync s

/-- WAITCYC: waits until the step offset reaches ra (R390, R391). -/
def bodyWaitcyc (c : TCtx) : TRes := 
  if c.stepCycles ≤ c.a.toNat then .fault 0xD 0 none
  else if c.a.toNat ≤ c.jb.offset then .go c.s
  else .wait c.s
def execWaitcyc (t : Nat) (u : Upset) (s : State) : Host.Outcome State Fault Refusal := runTile t u .waitcyc bodyWaitcyc s

/-- WAITCYC.S: the same, and faults when the offset has already passed ra as it issues (R391). -/
def bodyWaitcycS (c : TCtx) : TRes := 
  if c.stepCycles ≤ c.a.toNat then .fault 0xD 0 none
  else if c.a.toNat < c.jb.offset ∧ c.x.run = 0 then .fault 0xD 0 none
  else if c.a.toNat ≤ c.jb.offset then .go c.s
  else .wait c.s
def execWaitcycS (t : Nat) (u : Upset) (s : State) : Host.Outcome State Fault Refusal := runTile t u .waitcycS bodyWaitcycS s

/-- RDOFF: the job's step offset in running cycles. -/
def bodyRdoff (c : TCtx) : TRes := c.wr (BitVec.ofNat 64 c.jb.offset)
def execRdoff (t : Nat) (u : Upset) (s : State) : Host.Outcome State Fault Refusal := runTile t u .rdoff bodyRdoff s

/-- RDSTEP: the job's step number. -/
def bodyRdstep (c : TCtx) : TRes := c.wr (BitVec.ofNat 64 c.jb.step)
def execRdstep (t : Nat) (u : Upset) (s : State) : Host.Outcome State Fault Refusal := runTile t u .rdstep bodyRdstep s

/-- RDID: the tile's logical name, PHYS 0. -/
def bodyRdid (c : TCtx) : TRes := c.wr (BitVec.ofNat 64 (c.s.nameOf c.p))
def execRdid (t : Nat) (u : Upset) (s : State) : Host.Outcome State Fault Refusal := runTile t u .rdid bodyRdid s

/-- RDJOB: the job number. -/
def bodyRdjob (c : TCtx) : TRes := c.wr (BitVec.ofNat 64 c.j)
def execRdjob (t : Nat) (u : Upset) (s : State) : Host.Outcome State Fault Refusal := runTile t u .rdjob bodyRdjob s

/-- SRR: reads a special register, applying the clear of RC fields (R392). -/
def bodySrr (c : TCtx) : TRes := 
  if 11 < c.i.imm then .fault 1 0 none
  else c.goT ((specialClear c.i.imm c.x).setReg c.i.rd (specialRead c.i.imm c.x))
def execSrr (t : Nat) (u : Upset) (s : State) : Host.Outcome State Fault Refusal := runTile t u .srr bodySrr s

/-- SRW: writes TILE_FPCR and clears TILE_STATUS.LOCK_ABORTED; other registers ignore it (R392, R393). Reserved rounding codes change nothing (R7). -/
def bodySrw (c : TCtx) : TRes := 
  if 11 < c.i.imm then .fault 1 0 none
  else if c.i.imm = 11 then
    let v := c.a.setWidth 32 &&& 7
    c.goT (if v.getLsbD 2 then { c.x with fpcr := (c.x.fpcr &&& 6) ||| (v &&& 1) } else { c.x with fpcr := v })
  else if c.i.imm = 0 ∧ c.a.getLsbD 7 then c.goT { c.x with lockAborted := false }
  else .go c.s
def execSrw (t : Nat) (u : Upset) (s : State) : Host.Outcome State Fault Refusal := runTile t u .srw bodySrw s

end Sys2Proof.Machine
end

