-- ==== Sys2Proof/Machine/TileMsg.lean ====
section
/-! DEFINITION. The tile's semaphores, message channels and parameter slots (08_tiles.md; 09_tile_instructions.md, R395-R401). -/

namespace Sys2Proof.Machine

open Sys2Proof

/-! ## Semaphores -/

/-- The poisoned 32-byte halves of a message read from an address. -/
def Tile.halves (x : Tile) (a n : Nat) : List Nat := (List.range (ceilDiv n 32)).filter (fun i => (x.poisonAt (a + 32 * i) (min 32 (n - 32 * i))).isSome)

/-- The header fields that every request of the tile carries. -/
def TCtx.header (c : TCtx) : UcPacket := { src := 0x280 + c.part, part := c.part, job := c.j }

/-- Post a request when the UC regulator has tokens for its flits, else wait at the tile (R300). -/
def TCtx.post (c : TCtx) (bytes : Nat) (k : UcPacket) (chan : Nat) (f : State → State) : TRes :=
  match takeTokens c.part 1 bytes c.s with
  | none => .wait c.s
  | some s1 =>
    let h := { k with src := c.header.src, part := c.header.part, job := c.header.job }
    .go (sendUc c.p chan true h (f s1))

/-- SEM.INC: adds n to a local semaphore (R347, R348); buffered inside a locked sequence (R342). -/
def bodySemInc (c : TCtx) : TRes := 
  let n := c.a.toNat % 65536
  if 0xFFFF < c.x.sem c.i.res + n then .fault 0xA c.i.res none
  else
    match c.x.lock with
    | some l => c.goT { c.x with lock := some { l with sems := l.sems ++ [(c.i.res, n)] } }
    | none => c.goT (c.x.semAdd c.i.res n)
def execSemInc (t : Nat) (u : Upset) (s : State) : Host.Outcome State Fault Refusal := runTile t u .semInc bodySemInc s

/-- SEM.ACQ: waits until the count is at least n, then subtracts n (R347). -/
def bodySemAcq (c : TCtx) : TRes := 
  let n := c.a.toNat % 65536
  if c.x.sem c.i.res < n then .wait c.s
  else
    match c.x.lock with
    | some l => c.goT { c.x with lock := some { l with sems := l.sems ++ [(32 + c.i.res, n)] } }
    | none => c.goT (c.x.semSub c.i.res n c.j)
def execSemAcq (t : Nat) (u : Upset) (s : State) : Host.Outcome State Fault Refusal := runTile t u .semAcq bodySemAcq s

/-- SEM.TRY: subtracts n when it can; rd = 1 or 0 (R347). -/
def bodySemTry (c : TCtx) : TRes := 
  let n := c.a.toNat % 65536
  if c.x.sem c.i.res < n then c.wr 0 else c.goT ((c.x.semSub c.i.res n c.j).setReg c.i.rd 1)
def execSemTry (t : Nat) (u : Upset) (s : State) : Host.Outcome State Fault Refusal := runTile t u .semTry bodySemTry s

/-- SEM.INCR: posts an increment of another tile's semaphore (R395, R396). -/
def bodySemIncr (c : TCtx) : TRes := 
  if 2048 ≤ c.a.toNat then .fault 1 c.i.res none
  else c.post 64 { typ := 4, dest := c.a.toNat, addr := c.i.res, count := c.d.toNat % 65536 } 64 id
def execSemIncr (t : Nat) (u : Upset) (s : State) : Host.Outcome State Fault Refusal := runTile t u .semIncr bodySemIncr s

/-! ## Channels -/

/-- SEND: takes a credit and sends the message at ra (R350, R352, R397); the other faults of its operands are address faults (log 26). -/
def bodySend (c : TCtx) : TRes := 
  let k := c.x.chans.val c.i.res {}
  let a := c.a.toNat
  let n := 64 * k.flits
  if 60 ≤ c.i.res ∨ !k.conf then .fault 1 c.i.res none
  else if k.planned ∧ k.avail = 0 then .fault 0xD c.i.res none
  else if storeBytes < a + n then .fault 9 (a / 65536 % 256) none
  else if k.avail = 0 then .wait c.s
  else
    let data := c.x.store.read a n
    let bad := c.x.halves a n
    if k.planned then
      c.goT { c.x with
        posted := c.x.posted + 1
        chans := c.x.chans.put c.i.res { k with avail := k.avail - 1, wire := k.wire ++ [(data, bad)] } }
    else
      c.post (64 * (1 + k.flits)) { typ := 5, len := k.flits, dest := if k.dst < 768 then tileName k.dst else 0x8041 + 1024 * (k.dst - 768), addr := k.dstChan, data := data, poison := bad } c.i.res
        (fun s => s.modTile c.p (fun x => { x with chans := x.chans.put c.i.res { k with avail := k.avail - 1, flying := k.flying + 1 } }))
def execSend (t : Nat) (u : Upset) (s : State) : Host.Outcome State Fault Refusal := runTile t u .send bodySend s

/-- RECV: waits for a message and returns its address (R353, R397). -/
def bodyRecv (c : TCtx) : TRes := 
  let k := c.x.chans.val c.i.res {}
  if 62 ≤ c.i.res ∨ !k.conf then .fault 1 c.i.res none
  else
    match k.queue with
    | [] => .wait c.s
    | m :: r => c.goT ({ c.x with chans := c.x.chans.put c.i.res { k with queue := r, held := k.held ++ [m] } }.setReg c.i.rd (BitVec.ofNat 64 m.1))
def execRecv (t : Nat) (u : Upset) (s : State) : Host.Outcome State Fault Refusal := runTile t u .recv bodyRecv s

/-- RELEASE: returns the oldest message slot held and sends its credit back to the sender (R353, R397, R398); of a solver reply it also
returns the request slot, which is the credit of the channel that the request took (R586). -/
def bodyRelease (c : TCtx) : TRes := 
  let k := c.x.chans.val c.i.res {}
  if !k.conf then .fault 1 c.i.res none
  else
    match k.held with
    | [] => .fault 0xB c.i.res none
    | m :: r =>
      let s1 := c.s.setTile c.p { c.x with chans := c.x.chans.put c.i.res { k with held := r } }
      if 2048 ≤ m.2 then
        .go (s1.modTile c.p (fun y => { y with chans := y.chans.upd (m.2 - 2048) (fun e => e.credit) }))
      else if 768 ≤ m.2 then .go s1
      else
        let y := c.s.tile (c.s.physOf m.2)
        let me := (c.s.logOf c.p).getD 768
        let ch := (y.chans.find? (fun e => decide (e.2.dst = me ∧ e.2.dstChan = c.i.res) && e.2.conf)).map (·.1)
        .go (sendUc c.p 64 false { c.header with typ := 6, dest := tileName m.2, addr := ch.getD 64 }
          (s1.modTile (c.s.physOf m.2) (fun y => { y with chans := y.chans.upd (ch.getD 64) (fun e => { e with returning := e.returning + 1 }) })))
def execRelease (t : Nat) (u : Upset) (s : State) : Host.Outcome State Fault Refusal := runTile t u .release bodyRelease s

/-- CRED.BORROW: a credit of the lending channel ra[5:0] (R354, R397); a lender without a credit lends none (log 27). -/
def bodyCredBorrow (c : TCtx) : TRes := 
  let l := c.a.toNat % 64
  let k := c.x.chans.val c.i.res {}
  let o := c.x.chans.val l {}
  if !k.conf || !o.conf then .fault 1 c.i.res none
  else if o.avail = 0 ∨ l = c.i.res then .go c.s
  else
    let t := c.x.chans.put l { o with avail := o.avail - 1, lent := o.lent + 1 }
    c.goT { c.x with
      chans := t.put c.i.res { k with avail := k.avail + 1, borrowed := k.borrowed.put l (k.borrowed.val l 0 + 1) }
      loaned := c.x.loaned + 1
      loanJob := c.j }
def execCredBorrow (t : Nat) (u : Upset) (s : State) : Host.Outcome State Fault Refusal := runTile t u .credBorrow bodyCredBorrow s

/-- CRED.RETURN: a borrowed credit goes back to its lender (R398); a channel with no credit at hand has none to return (log 27). -/
def bodyCredReturn (c : TCtx) : TRes := 
  let l := c.a.toNat % 64
  let k := c.x.chans.val c.i.res {}
  let o := c.x.chans.val l {}
  if !k.conf || !o.conf then .fault 1 c.i.res none
  else if l = 64 ∨ k.borrowed.val l 0 = 0 ∨ k.avail = 0 then .fault 0xB c.i.res none
  else
    let t := c.x.chans.put l { o with avail := o.avail + 1, lent := o.lent - 1 }
    c.goT { c.x with
      chans := t.put c.i.res { k with avail := k.avail - 1, borrowed := (k.borrowed.put l (k.borrowed.val l 0 - 1)).keep (fun _ n => n != 0) }
      loaned := c.x.loaned - 1 }
def execCredReturn (t : Nat) (u : Upset) (s : State) : Host.Outcome State Fault Refusal := runTile t u .credReturn bodyCredReturn s

/-! ## Parameter slots -/

/-- A slot number or a tile-store address that R401 does not allow. -/
def TCtx.slotBad (c : TCtx) (n : Nat) : Bool := decide (c.d.toNat % 64 ≠ 0 ∨ storeBytes < c.d.toNat + 64 ∨ c.q.slotCount ≤ n)

/-- DEST of a request for an address of the partition: a stack channel's edge client or a tile (10, Table: UC header flit). -/
def Part.destOf (q : Part) (a : Nat) : Nat :=
  match q.walk a true with
  | .ok dpa _ => (match placeOf dpa with | .stack ch => 0x8000 + 1024 * (ch / 64) + ch % 64 | .tile i => tileName i | .nowhere => 0x8000)
  | .fault _ => 0x8000

/-- One indivisible read of a parameter slot with the poison of its halves (R472). -/
def TCtx.readSlot (c : TCtx) (n : Nat) : Acc (Bytes × Bool × Bool) :=
  match c.q.walk (c.q.slotVa n) false with
  | .fault k => .fault k
  | .ok dpa _ => (match c.s.readGran dpa with | .ok b p0 p1 => .ok (b, p0, p1) | .nack k => .nack k)

/-- WATCH: reads slot ra until its first word equals rb, then copies it to [rd] (R399-R401, R474, R475). -/
def bodyWatch (c : TCtx) : TRes := 
  let n := c.a.toNat
  if c.slotBad n then .fault 9 (c.d.toNat / 65536 % 256) none
  else
    match c.readSlot n with
    | .fault k => .stay (accessFault c.part (c.p / 408) k (c.q.slotVa n) false (c.s.nameOf c.p) c.j c.s)
    | .nack _ => .wait c.s
    | .ok (b, p0, p1) =>
      if p0 then .fault 7 0 none
      else if word64 b 0 = c.b then
        let s1 := c.s.setMem (fun m => { m with watches := m.watches.filter (fun w => !decide (w.2.2 = c.p)) })
        .go (s1.setTile c.p ({ c.x with watch := none }.storeWrite c.d.toNat b (fun g => if g % 2 = 0 then p0 else p1)))
      else
        let mine := c.s.mem.watches.any (fun w => decide (w.2.2 = c.p))
        let ctl := State.watchCtl c.q n
        let used := c.s.mem.watches.filter (fun w => decide (w.1 = c.part ∧ State.watchCtl c.q w.2.1 = ctl))
        let s1 := if mine ∨ 64 ≤ used.length then c.s else c.s.setMem (fun m => { m with watches := m.watches ++ [(c.part, n, c.p)] })
        .wait (s1.setTile c.p { c.x with watch := some n })
def execWatch (t : Nat) (u : Upset) (s : State) : Host.Outcome State Fault Refusal := runTile t u .watch bodyWatch s

/-- PREAD: copies slot ra to [rd] and consumes nothing (R400, R401). -/
def bodyPread (c : TCtx) : TRes := 
  let n := c.a.toNat
  if c.slotBad n then .fault 9 (c.d.toNat / 65536 % 256) none
  else
    match c.readSlot n with
    | .fault k => .stay (accessFault c.part (c.p / 408) k (c.q.slotVa n) false (c.s.nameOf c.p) c.j c.s)
    | .nack _ => .wait c.s
    | .ok (b, p0, p1) => c.goT (c.x.storeWrite c.d.toNat b (fun g => if g % 2 = 0 then p0 else p1))
def execPread (t : Nat) (u : Upset) (s : State) : Host.Outcome State Fault Refusal := runTile t u .pread bodyPread s

/-- PWRITE: posts a 64-byte write of [rd] to slot ra (R401). -/
def bodyPwrite (c : TCtx) : TRes := 
  let n := c.a.toNat
  let a := c.d.toNat
  if c.slotBad n then .fault 9 (a / 65536 % 256) none
  else c.post 128 { typ := 1, len := 1, dest := c.q.destOf (c.q.slotVa n), addr := c.q.slotVa n, count := 64, data := c.x.store.read a 64, poison := c.x.halves a 64 } 64 id
def execPwrite (t : Nat) (u : Upset) (s : State) : Host.Outcome State Fault Refusal := runTile t u .pwrite bodyPwrite s

end Sys2Proof.Machine
end

