-- ==== Sys2Proof/Machine/Uc.lean ====
section
/-! DEFINITION. The unplanned channel: requests at their targets, the access tables, responses at their requesters, and the Half Link
(10_mesh_and_half_link.md; 19_trust_tenancy_management.md, R816-R822). -/

namespace Sys2Proof.Machine

open Sys2Proof

/-! ## Access tables (R817, R820) -/

/-- The permissions a target asks for: Read, Write, Signal, Config (SEC_VIOLATION.NEED). -/
def needRead : Nat := 0
def needWrite : Nat := 1
def needSignal : Nat := 2
def needConfig : Nat := 3

/-- A service of the partition is visible to the function (R48, R956). -/
def State.seesPart (s : State) (f part : Nat) : Bool :=
  match s.parts.look part with
  | none => false
  | some q => q.svcs.any (fun e => !e.2.withdrawn && (decide (f = 512) || s.svcGrants.contains (f, e.2.sid)))

/-- A solver service of the partition is served by solver h: its half holds columns of the partition (log 28). -/
def State.solverPart (s : State) (h part : Nat) : Bool :=
  match s.parts.look part with
  | none => false
  | some q => q.svcs.any (fun e => decide (e.2.kind = 3)) && q.cols.any (fun c => decide (c / 24 = h))

/-- Half of a partition's slice of sequence entries. -/
def Part.sliceHalf (q : Part) : Nat := q.seqBase / 8192

/-- The permission that Table: Default permissions gives a master on a stack channel or tile window of a partition. -/
def State.memPerm (s : State) (part : Option Nat) (window : Bool) (m need : Nat) : Bool :=
  if 0x298 ≤ m ∧ m ≤ 0x29B then need != needSignal
  else if m = 0x2A1 then s.sec.unlocked && window && decide (need = needRead ∨ need = needConfig)
  else
    match part with
    | none => false
    | some p =>
      if m = 0x280 + p then decide (need = needRead ∨ need = needWrite) || (window && decide (need = needSignal))
      else if m = 0x288 + p then decide (need = needRead ∨ need = needWrite)
      else if m = 0x290 ∨ m = 0x291 then
        match s.parts.look p with
        | some q =>
          decide (q.sliceHalf = m - 0x290) && (if window then decide (need = needWrite ∨ need = needSignal) else decide (need = needRead ∨ need = needWrite))
        | none => false
      else if m = 0x292 ∨ m = 0x293 then window && s.solverPart (m - 0x292) p && decide (need = needWrite ∨ need = needSignal)
      else if m ≤ 0x200 then s.seesPart m p && decide (need = needRead ∨ need = needWrite)
      else false

/-- The partition of a stack channel. -/
def State.partOfChan (s : State) (ch : Nat) : Option Nat := (s.parts.find? (fun e => e.2.chans.contains ch)).map (·.1)

/-! ## Requests at their targets -/

/-- Where a request goes: a tile, a stack channel, another edge client; or a NACK code (R436-R438, R461). -/
inductive Dest where
  | tile (i : Nat)
  | chan (ch : Nat)
  | client (h c : Nat)
  | nack (code : Nat)
deriving DecidableEq, Repr

def State.destOf (s : State) (d : Nat) : Dest :=
  if d < 0x8000 then
    match logOfName d with
    | some i => if s.tileNack i = 0 then .tile i else .nack (s.tileNack i)
    | none => .nack 3
  else
    let h := bits d 10 10
    let c := d % 256
    if bits d 14 11 ≠ 0 ∨ bits d 9 8 ≠ 0 then .nack 3
    else if c < 0x40 then (if !s.ident.variant.hasStack (4 * h + c / 16) then .nack 3 else if s.chanReset (64 * h + c) then .nack 2 else .chan (64 * h + c))
    else if c = 0x44 ∧ (s.ladder.cpRestart.look (2 * h)).isSome ∧ (s.ladder.cpRestart.look (2 * h + 1)).isSome then .nack 2
    else if c ≤ 0x45 then .client h c
    else .nack 3

/-- A tile's own request, as it was issued, with what the mesh found on the way; other masters' requests come as they are. A request
whose header was discarded or that has been served is not there (R457). -/
def State.reqOf (s : State) (typ : Nat) (p : UcPacket) : Option (Nat × UcPacket) :=
  if tileSrc p.src then
    match s.hl.reqs.look p.tag with
    | some r =>
      if r.pkt.typ = typ ∧ r.pkt.flags = 0 ∧ !s.hl.waiting.any (fun w => decide (w.tag = p.tag)) then
        some (r.tile, { r.pkt with ce := p.ce, ueHead := p.ueHead, ueData := p.ueData, hops := p.hops, behind := p.behind,
                                   poison := if p.ueData = 0 then r.pkt.poison else r.pkt.poison ++ [2 * (p.ueData - 1), 2 * (p.ueData - 1) + 1] })
      else none
    | none => none
  else some (1536, { p with poison := if p.ueData = 0 then p.poison else p.poison ++ [2 * (p.ueData - 1), 2 * (p.ueData - 1) + 1] })

/-- The response to a request starts back (R431); a NACK is counted at the target's half. -/
def respondUc (k : UcPacket) (typ nack : Nat) (data : Bytes) (s : State) : State :=
  let h := destHalf k.dest
  s.setHl (fun l => { l with
    reqs := if tileSrc k.src then l.reqs.upd k.tag (fun r => { r with pkt := { r.pkt with flags := 1 } }) else l.reqs
    resps := l.resps ++ [{ typ := typ, flags := 1, nack := nack, src := k.src, tag := k.tag, part := k.part, job := k.job, data := data }]
    nackDark := if nack = 1 then l.nackDark.put h (sat 16 (l.nackDark.val h 0 + 1)) else l.nackDark
    nackReset := if nack = 2 then l.nackReset.put h (sat 16 (l.nackReset.val h 0 + 1)) else l.nackReset
    nackRoute := if nack = 3 then l.nackRoute.put h (sat 16 (l.nackRoute.val h 0 + 1)) else l.nackRoute })

/-- Counts of a request's way: check codes (R455, R456) and the interference of its partition (R305). -/
def countWay (k : UcPacket) (s : State) : State :=
  let h := destHalf k.dest
  let s1 := s.setHl (fun l => { l with
    meshCe := l.meshCe.put h (sat 16 (l.meshCe.val h 0 + k.ce))
    meshUeData := if k.ueData = 0 then l.meshUeData else l.meshUeData.put h (sat 16 (l.meshUeData.val h 0 + 1)) })
  s1.modPart k.part (fun q => let f := q.intf.val 1 {}; { q with intf := q.intf.put 1 { f := f.f + k.hops, w := f.w + k.behind } })

/-- A header with an uncorrectable error: the packet is discarded and counted, and source 152 is raised (R457). -/
def dropHeader (k : UcPacket) (s : State) : State :=
  let h := destHalf k.dest
  intcHalf h 152 (s.setHl (fun l => { l with
    reqs := if tileSrc k.src then l.reqs.upd k.tag (fun r => { r with pkt := { r.pkt with typ := 0 } }) else l.reqs
    meshUeHead := l.meshUeHead.put h (sat 16 (l.meshUeHead.val h 0 + 1)) }))

/-- A request reaches its target: discarded header, NACK, a wake or a wait at the arrival buffer (R343, R362), or its effect. -/
def arrive (typ : Nat) (p : UcPacket) (act : Nat → UcPacket → Dest → State → State) (s : State) : State :=
  match s.reqOf typ p with
  | none => s
  | some (t, k) =>
    let cross (s : State) : State :=
      if t < 816 then (match crossing (t / 408) k.dest with | some d => hlDone d (1 + k.len) s | none => s) else s
    if k.ueHead then cross (dropHeader k s)
    else if k.flags ≠ 0 ∨ k.nack ≠ 0 then cross (respondUc k 8 3 [] (countWay k s))
    else
      match s.destOf k.dest with
      | .nack c => cross (respondUc k 8 c [] (countWay k s))
      | .tile i =>
        let x := s.physOf i
        if (s.tile x).power = 0 then
          let s1 := startUcWake x s
          if t = 1536 ∧ (s.tile x).arrivals.length < 4 then s1.modTile x (fun y => { y with arrivals := y.arrivals ++ [k] }) else s1
        else if !s.takesUc x then s
        else cross (act t k (.tile i) (touchUc x (countWay k s)))
      | d => cross (act t k d (countWay k s))

/-- A violation at a target of a half (R818): zero data, the write or increment discarded, and the report. -/
def deny (h target need : Nat) (k : UcPacket) (typ : Nat) (data : Bytes) (s : State) : State :=
  respondUc k typ 0 data (violation h k.src target need s)

/-- WRITE: a tile's PWRITE or an engine's write by DVA, or a write into a tile store. -/
def actWrite (_ : Nat) (k : UcPacket) (d : Dest) (s : State) : State :=
  match d with
  | .tile i =>
    let x := s.physOf i
    if !s.memPerm (s.partOfTile x) true k.src needWrite then deny (x / 408) 1 needWrite k 7 [] s
    else if tileSrc k.src then
      match s.parts.look k.part with
      | none => respondUc k 7 0 [] s
      | some q =>
        match s.writeVa q k.addr k.data (k.poison ≠ []) with
        | .ok s1 => respondUc k 7 0 [] (slotWritten k.part ((k.addr - q.slotVa 0) / 64) s1)
        | .fault n => accessFault k.part (x / 408) n k.addr true 0xFFFF k.job s
        | .nack n => respondUc k 8 n [] s
    else if storeBytes < k.addr + k.data.length then respondUc k 8 3 [] s
    else respondUc k 7 0 [] (s.modTile x (fun y => y.storeWrite k.addr k.data (fun g => k.poison.contains (g - k.addr / 32))))
  | .chan ch =>
    if !s.memPerm (s.partOfChan ch) false k.src needWrite then deny (ch / 64) 0 needWrite k 7 [] s
    else
      match s.parts.look k.part with
      | none => respondUc k 7 0 [] s
      | some q =>
        match s.writeVa q k.addr k.data (k.poison ≠ []) with
        | .ok s1 => respondUc k 7 0 [] (slotWritten k.part ((k.addr - q.slotVa 0) / 64) s1)
        | .fault n => accessFault k.part (ch / 64) n k.addr true 0xFFFF k.job s
        | .nack n => respondUc k 8 n [] s
  | .client _ _ => respondUc k 7 0 [] s
  | .nack n => respondUc k 8 n [] s

def execUcWrite (p : UcPacket) (s : State) : Host.Outcome State Fault Refusal := .next (arrive 1 p actWrite s)

/-- READ: bytes of a tile store or, by DVA, of a stack channel. -/
def actRead (_ : Nat) (k : UcPacket) (d : Dest) (s : State) : State :=
  match d with
  | .tile i =>
    let x := s.physOf i
    if !s.memPerm (s.partOfTile x) true k.src needRead then deny (x / 408) 1 needRead k 3 (zeros k.count) s
    else if storeBytes < k.addr + k.count then respondUc k 8 3 [] s
    else respondUc k 3 0 ((s.tile x).store.read k.addr k.count) s
  | .chan ch =>
    if !s.memPerm (s.partOfChan ch) false k.src needRead then deny (ch / 64) 0 needRead k 3 (zeros k.count) s
    else
      match s.parts.look k.part with
      | none => respondUc k 3 0 (zeros k.count) s
      | some q =>
        match s.readVa q k.addr k.count with
        | .ok (b, _) => respondUc k 3 0 b s
        | .fault n => accessFault k.part (ch / 64) n k.addr false 0xFFFF k.job s
        | .nack n => respondUc k 8 n [] s
  | .client _ _ => respondUc k 3 0 (zeros k.count) s
  | .nack n => respondUc k 8 n [] s

def execUcRead (p : UcPacket) (s : State) : Host.Outcome State Fault Refusal := .next (arrive 2 p actRead s)

/-- SEM_INC at a tile (R347, R348, R367, R368). -/
def actSemInc (_ : Nat) (k : UcPacket) (d : Dest) (s : State) : State :=
  match d with
  | .tile i =>
    let x := s.physOf i
    if !s.memPerm (s.partOfTile x) true k.src needSignal then deny (x / 408) 1 needSignal k 7 [] s
    else respondUc k 7 0 [] (if k.addr < 32 then incSem x k.addr k.count s else s)
  | .nack n => respondUc k 8 n [] s
  | _ => respondUc k 8 3 [] s

def execUcSemInc (p : UcPacket) (s : State) : Host.Outcome State Fault Refusal := .next (arrive 4 p actSemInc s)

/-- CHAN_MSG at a tile: the message joins the receiving channel's queue, after those sent before it (R351). -/
def actChanMsg (t : Nat) (k : UcPacket) (d : Dest) (s : State) : State :=
  match d with
  | .tile i =>
    let x := s.physOf i
    if !s.memPerm (s.partOfTile x) true k.src needSignal then deny (x / 408) 1 needSignal k 7 [] s
    else
      let r := s.hl.reqs.val k.tag {}
      let from0 := if t < 816 then (s.logOf t).getD 1536 else 1536
      let s1 := chanDeliver x k.addr from0 k.data k.poison s
      let s2 := if t < 816 then s1.modTile t (fun y => { y with chans := y.chans.upd r.chan (fun c => { c with flying := c.flying - 1 }) }) else s1
      respondUc k 7 0 [] s2
  | .nack n => respondUc k 8 n [] s
  | _ => respondUc k 8 3 [] s

/-- No earlier message of the same channel is still on its way. -/
def State.msgFirst (s : State) (p : UcPacket) : Bool :=
  match s.hl.reqs.look p.tag with
  | none => true
  | some r => s.hl.reqs.all (fun e => !(decide (e.2.tile = r.tile ∧ e.2.chan = r.chan ∧ e.2.pkt.typ = 5 ∧ e.2.pkt.flags = 0)
      && decide ((p.tag + 65536 - e.1) % 65536 < 32768) && e.1 != p.tag))

/-- A message for another tile; one for a solver is another command's. -/
def execUcChanMsg (p : UcPacket) (s : State) : Host.Outcome State Fault Refusal :=
  let solver := match s.reqOf 5 p with
    | some (_, k) => (match s.destOf k.dest with | .client _ c => decide (c = 0x41) | _ => false)
    | none => false
  .next (if s.msgFirst p && !solver then arrive 5 p actChanMsg s else s)

/-- CHAN_CREDIT at the sending tile (R353, R369). -/
def actChanCredit (_ : Nat) (k : UcPacket) (d : Dest) (s : State) : State :=
  match d with
  | .tile i =>
    respondUc k 7 0 [] (s.modTile (s.physOf i) (fun y =>
      { y with chans := y.chans.upd k.addr (fun c => { c.credit with returning := c.returning - 1 }) }))
  | .nack n => respondUc k 8 n [] s
  | _ => respondUc k 8 3 [] s

def execUcChanCredit (p : UcPacket) (s : State) : Host.Outcome State Fault Refusal := .next (arrive 6 p actChanCredit s)

/-- A tile's register that configuration writes reach (08, Table: Other tile registers). -/
def specialWrite (n : Nat) (v : BitVec 32) (x : Tile) : Tile :=
  let a := v &&& 0x001FFF80
  match n with
  | 4 => { x with spillBase := a }
  | 5 => { x with spillBytes := a }
  | 6 => { x with trapVec := a }
  | 7 => { x with semKind := v, semHeld := lockMask v x.sems, semJob := x.job.getD 0 }
  | 11 => if v.getLsbD 2 then { x with fpcr := (x.fpcr &&& 6) ||| (v &&& 1) } else { x with fpcr := v &&& 7 }
  | _ => x

/-- CFG_READ and CFG_WRITE at a tile's register space or an INTC. -/
def actCfgRead (_ : Nat) (k : UcPacket) (d : Dest) (s : State) : State :=
  match d with
  | .tile i =>
    let x := s.physOf i
    if !s.memPerm (s.partOfTile x) true k.src needRead then deny (x / 408) 1 needRead k 0xB (zeros 8) s
    else respondUc k 0xB 0 (le 8 (specialRead (k.addr / 8) (s.tile x)).toNat) (s.modTile x (specialClear (k.addr / 8)))
  | .client h 0x44 =>
    if k.src = 0x2A1 ∧ s.sec.unlocked then respondUc k 0xB 0 (le 4 (s.intcPeek h k.addr)) s
    else if 0x298 ≤ k.src ∧ k.src ≤ 0x29B then let r := intcTake h k.addr s; respondUc k 0xB 0 (le 4 r.1) r.2
    else deny h 2 needRead k 0xB (zeros 4) s
  | .nack n => respondUc k 8 n [] s
  | _ => respondUc k 0xB 0 (zeros 8) s

def actCfgWrite (_ : Nat) (k : UcPacket) (d : Dest) (s : State) : State :=
  match d with
  | .tile i =>
    let x := s.physOf i
    if !s.memPerm (s.partOfTile x) true k.src needConfig then deny (x / 408) 1 needConfig k 7 [] s
    else respondUc k 7 0 [] (s.modTile x (specialWrite (k.addr / 8) (word32 k.inl 0)))
  | .client h 0x44 =>
    if (k.src = 0x2A1 ∧ s.sec.unlocked) ∨ (0x298 ≤ k.src ∧ k.src ≤ 0x29B) then respondUc k 7 0 [] (intcWrite h k.addr (word32 k.inl 0) s)
    else deny h 2 needConfig k 7 [] s
  | .nack n => respondUc k 8 n [] s
  | _ => respondUc k 7 0 [] s

def execUcCfgRead (p : UcPacket) (s : State) : Host.Outcome State Fault Refusal := .next (arrive 9 p actCfgRead s)
def execUcCfgWrite (p : UcPacket) (s : State) : Host.Outcome State Fault Refusal := .next (arrive 0xA p actCfgWrite s)

/-! ## Responses at their requesters -/

/-- The response of a type that waits for the requester of a number. -/
def State.respOf (s : State) (typ tag : Nat) : Option UcPacket := s.hl.resps.find? (fun r => decide (r.typ = typ ∧ r.tag = tag))

/-- A response is taken: a posted operation of the tile is acknowledged (R431). -/
def takeResp (typ tag : Nat) (k : UcPacket) (s : State) : State :=
  let s1 := s.setHl (fun l => { l with resps := l.resps.eraseP (fun r => decide (r.typ = typ ∧ r.tag = tag)) })
  match (if tileSrc k.src then s.hl.reqs.look tag else none) with
  | none => s1
  | some r =>
    let s2 := s1.setHl (fun l => { l with reqs := l.reqs.del tag })
    if r.pkt.typ = 1 ∨ r.pkt.typ = 4 ∨ r.pkt.typ = 5 then s2.modTile r.tile (fun x => { x with posted := x.posted - 1 }) else s2

/-- ACK, read data and configuration data reach the requester. -/
def execUcAck (p : UcPacket) (s : State) : Host.Outcome State Fault Refusal :=
  .next (match s.respOf 7 p.tag with | some r => takeResp 7 p.tag r s | none => s)
def execUcReadData (p : UcPacket) (s : State) : Host.Outcome State Fault Refusal :=
  .next (match s.respOf 3 p.tag with | some r => (takeResp 3 p.tag r s).emit (.uc r) | none => s)
def execUcCfgData (p : UcPacket) (s : State) : Host.Outcome State Fault Refusal :=
  .next (match s.respOf 0xB p.tag with | some r => (takeResp 0xB p.tag r s).emit (.uc r) | none => s)

/-- A NACK reaches its requester (R458): a tile's partition counts it and a SEND's credit goes back; an engine's is a broken Season of the
job that named the target, unless the target was being reset. -/
def execUcNack (p : UcPacket) (s : State) : Host.Outcome State Fault Refusal :=
  match s.respOf 8 p.tag with
  | none => .next s
  | some r =>
    let q := if tileSrc r.src then s.hl.reqs.look p.tag else none
    let s1 := takeResp 8 p.tag r s
    let isTile := decide (0x280 ≤ r.src ∧ r.src ≤ 0x287)
    let engine := decide (r.src ≤ 0x200 ∨ (0x290 ≤ r.src ∧ r.src ≤ 0x293))
    if isTile then
      let s2 := s1.modPart r.part (fun y => { y with
        nackDark := if r.nack = 1 then sat 16 (y.nackDark + 1) else y.nackDark
        nackReset := if r.nack = 2 then sat 16 (y.nackReset + 1) else y.nackReset
        nackRoute := if r.nack = 3 then sat 16 (y.nackRoute + 1) else y.nackRoute })
      match q with
      | some e =>
        if e.pkt.typ = 5 then
          .next (s2.modTile e.tile (fun x => { x with chans := x.chans.upd e.chan (fun c => { c.credit with flying := c.flying - 1 }) }))
        else .next s2
      | none => .next s2
    else if engine && decide (r.nack ≠ 2) then .next (brokenSeason r.job s1)
    else .next s1

/-! ## The Half Link -/

/-- A Half Link end loses training, overflows or fails its audit (R459): Down, and a hang of a shared engine. -/
def execHalfLinkDown (s : State) : Host.Outcome State Fault Refusal :=
  .next (if s.hl.state = 2 then
      hang 3 0 0 (intcLevel 1 (srcKey 0 154) true (intcLevel 0 (srcKey 0 154) true (s.setHl (fun h => { h with state := 0 }))))
    else s)

/-! ## Tiles that unplanned traffic woke (R362; 15_power_and_clocks.md) -/

/-- The tile reaches Awake, 3,000 grid cycles after its wake began; its arrival buffer delivers what it holds. -/
def execTileAwake (t : Nat) (s : State) : Host.Outcome State Fault Refusal :=
  let x := s.tile t
  match x.ucWoken with
  | none => .next s
  | some c =>
    if !x.waking ∨ x.power ≠ 0 ∨ s.clk.cycle < c + 3000 then .next s
    else
      let s1 := s.setTile t { x with power := 1, waking := false, ucWoken := some s.clk.cycle, arrivals := [] }
      .next (forEach x.arrivals s1 (fun s k =>
        let f := if k.typ = 1 then actWrite else if k.typ = 2 then actRead else if k.typ = 4 then actSemInc else if k.typ = 5 then actChanMsg
          else if k.typ = 6 then actChanCredit else if k.typ = 9 then actCfgRead else actCfgWrite
        match s.logOf t with
        | some i => f 1536 k (.tile i) s
        | none => s))

/-- After 256 grid cycles without traffic the tile is Dormant again, where the schedule still has it Dormant. -/
def execUnplannedWakeIdle (t : Nat) (s : State) : Host.Outcome State Fault Refusal :=
  let x := s.tile t
  match x.ucWoken with
  | none => .next s
  | some c =>
    if x.waking ∨ x.power ≠ 1 ∨ s.clk.cycle < c + 256 then .next s
    else .next (s.setTile t { x with power := 0, ucWoken := none })

end Sys2Proof.Machine
end

