-- ==== Sys2Proof/Machine/Solver.lean ====
section
/-! DEFINITION. The constraint solvers: skeletons, problems, contexts and engines (13_constraint_solver.md; 03, R144). -/

namespace Sys2Proof.Machine

open Sys2Proof

/-! ## Services and jobs (R556-R558, R589; log 28) -/

/-- The solver that serves a partition's solver services: of its half, H0 for a spanning one. -/
def State.solverOf (s : State) (part : Nat) : Nat :=
  match s.parts.look part with
  | some q => if q.spanning then 0 else (match q.cols with | c :: _ => c / 24 | [] => 0)
  | none => 0

/-- The running solver job of a service; a withdrawn service's job still runs what it has (06, SERVICE_WITHDRAW). -/
def State.solverJob (s : State) (sid : Nat) : Option Nat :=
  let at1 (gone : Bool) : Option (Nat × Nat) :=
    s.parts.findSome? (fun e => (e.2.svcs.find? (fun x => decide (x.2.sid = sid) && x.2.withdrawn == gone)).map (fun x => (e.1, x.1)))
  match (at1 false).or (at1 true) with
  | some (part, entry) => (s.jobOf part entry).filter (fun j => decide ((s.jobs.val j {}).state ≠ 4))
  | none => none

/-- The grid cycle at which a guest deadline of `n` ticks falls: `n` ticks after the first tick edge at or after now (13, deadline). -/
def State.guestDeadline (s : State) (n : Nat) : Option Nat :=
  if n = 0 then none else some (s.clk.cycle + (if s.clk.sub = 0 then 0 else 1500 - s.clk.sub) + 1500 * n)

/-! ## Acceptance -/

/-- A problem joins its skeleton's queue, or is refused (R566, R589): the status of the refusal. -/
def acceptProblem (h i : Nat) (b : Problem) (s : State) : Option (Nat × Nat) × State :=
  let k := (s.solver h).skels.val i {}
  if (s.solverJob k.sid).isNone then (some (stJobLost, 1), s)
  else if 8 ≤ k.queue.length then (some (stFull, 2), s)
  else (none, s.modSolver h (fun v => { v with skels := v.skels.upd i (fun k => { k with queue := k.queue ++ [b] }) }))

/-- SOLVE_SET: stores the image and returns the new handle (R197, R560, R562, R563); a chain does with its last packet. Which free index the
handle takes is open (log 20). -/
def execSolveSet (pid : Nat) (s : State) : Host.Outcome State Fault Refusal :=
  .next (takePkt pid opSet s (fun p _ s =>
    let first := p.chainOf.getD pid
    if p.more then s
    else
      match s.visible p.fnKey p.sid with
      | none => fail first stUnknown 0 s
      | some (part, _, _) =>
        let img := match s.pkts.look first with
          | some x => (x.group first).flatMap (fun i => match s.pkts.look i with | some y => y.payload | none => [])
          | none => []
        let h := s.solverOf part
        let v := s.solver h
        let need := ceilDiv img.length 1024
        let used := v.skels.foldl (fun n e => n + (if e.2.used then e.2.blocks else 0)) 0
        let start := s.free % 4096
        if p.fnKey ≠ 512 ∧ (s.fn p.fnKey).quotas.skel ≤ s.skelUse p.fnKey then fail first stQuota 1 s
        else
          match (List.range 4096).find? (fun n => !(v.skels.val ((start + n) % 4096) {}).used) with
          | none => fail first stFull 1 s
          | some n =>
            if 12288 < used + need then fail first stFull 1 s
            else
              let i := (start + n) % 4096
              let r := nextReuse (v.skels.val i {}).reuse
              let k : Skeleton := { used := true, reuse := r, fn := p.fnKey, gen := p.gen, sid := p.sid, part := part, blocks := need, image := img }
              finish first stOk 0 (skelHandle h i r) [] false ((s.took 1).modSolver h (fun v => { v with skels := v.skels.put i k }))))

/-- SOLVE_DELTA: accepted as a problem on its skeleton (R179, R566, R583, R589). -/
def execSolveDelta (pid : Nat) (s : State) : Host.Outcome State Fault Refusal :=
  .next (takePkt pid opDelta s (fun p q s0 =>
    let s := modAcct pid (fun a => { a with placed := a.placed + 1 }) s0
    match s.skelOf p.fnKey p.sid p.object with
    | none => fail pid stDenied 3 s
    | some (h, i) =>
      if s.refusing ((s.solver h).skels.val i {}).part then fail pid stDraining 1 s
      else
        let b : Problem :=
          { skel := i, pkt := some pid, fn := p.fnKey, gen := p.gen, lc := q.lc, method := fld p.hdr 0x20 1, iters := fld p.hdr 0x22 2,
            deadline := s.guestDeadline (fld p.hdr 0x24 4), accepted := s.clk.cycle, acceptedTick := s.clk.tick, delta := p.payload }
        match acceptProblem h i b s with
        | (none, s1) => s1
        | (some r, s1) => fail pid r.1 r.2 s1))

/-- SOLVE_DROP: problems not yet started end CANCELLED, a started one finishes, and the drop completes after all of them (R144, R592). -/
def execSolveDrop (pid : Nat) (s : State) : Host.Outcome State Fault Refusal :=
  .next (takePkt pid opDrop s (fun p _ s =>
    let h := p.object / 4096 % 2
    let i := p.object % 4096
    let k := (s.solver h).skels.val i {}
    if k.dropping ≠ some pid then fail pid stDenied 3 s
    else
      let s1 := s.modSolver h (fun v => { v with skels := v.skels.upd i (fun k => { k with queue := [] }) })
      let s2 := forEach k.queue s1 (fun s b => answerProblem b (skelHandle h i k.reuse) stCancelled 2 [] s)
      settleDrops h s2))

/-! ## Requests from tiles (R586-R588) -/

/-- The reply to a tile; where the tile cannot take it the requesting job's Season is broken, and a Dormant tile is woken. -/
def replyTile (b : Problem) (handle status detail : Nat) (result : Bytes) (s : State) : State :=
  let r := solverReply b handle status detail result s
  if r.2 then brokenSeason b.job r.1 else startUcWake (s.physOf b.tile) r.1

/-- The header flit of a request is out of form (R588). -/
def requestBad (d : Bytes) : Bool :=
  decide (fld d 5 1 ≠ 1 ∨ 4032 < fld d 0x0E 2) || !methodOk (fld d 4 1) (fld d 6 2) || (exactMethod (fld d 4 1) && decide (fld d 8 4 ≠ 0)) || !allZero d 0x10 48

/-- The request of a tile at the solver (R565, R566, R575, R587-R589, R597); one from any other master breaks the access table (R818). -/
def actSolver (t : Nat) (k : UcPacket) (d : Dest) (s : State) : State :=
  match d with
  | .client h _ =>
    if 816 ≤ t ∨ !s.solverPart h k.part then deny h 4 needSignal k 7 [] s
    else
      let r := s.hl.reqs.val k.tag {}
      let s1 := (respondUc k 7 0 [] s).modTile t (fun y => { y with chans := y.chans.upd r.chan (fun c => { c with flying := c.flying - 1 }) })
      let hd := k.data.take 64
      let handle := fld hd 0 4
      let delta := (k.data.drop 64).take (fld hd 0x0E 2)
      let i := handle % 4096
      let z := (s.solver h).skels.val i {}
      let limit := fld hd 8 4
      let b : Problem :=
        { skel := i, tile := (s.logOf t).getD 768, job := k.job, chan := r.chan, tag := fld hd 0x0C 2, fn := z.fn, gen := z.gen, lc := true,
          method := fld hd 4 1, iters := fld hd 6 2, deadline := if limit = 0 then none else some (s.clk.cycle + limit),
          accepted := s.clk.cycle, acceptedTick := s.clk.tick, delta := delta, dpoison := k.poison ≠ [] }
      let e := skelEntries z.image
      let ok := z.used && decide (handle / 4096 % 4 = h ∧ z.reuse = handle / 16384 ∧ z.part = k.part ∧ z.gen = (s.fn z.fn).gen) && z.dropping.isNone
      if requestBad hd then replyTile b handle stMalformed 9 [] s1
      else if !ok then replyTile b handle stDenied 3 [] s1
      else if !b.dpoison && deltaSizeBad e delta then replyTile b handle stMalformed 5 [] s1
      else if !b.dpoison && deltaBad e delta then replyTile b handle stMalformed 0xC [] s1
      else
        match acceptProblem h i b s1 with
        | (none, s2) => s2
        | (some x, s2) => replyTile b handle x.1 x.2 [] s2
  | _ => s

/-- A message that goes to a solver. -/
def State.toSolver (s : State) (p : UcPacket) : Bool :=
  match s.reqOf 5 p with
  | some (_, k) => (match s.destOf k.dest with | .client _ c => decide (c = 0x41) | _ => false)
  | none => false

def execTileSolverRequest (p : UcPacket) (s : State) : Host.Outcome State Fault Refusal :=
  .next (if s.toSolver p && s.msgFirst p then arrive 5 p actSolver s else s)

/-! ## Results (Table: Result stream header; R572, R573, R577, R580, R594) -/

/-- The result stream of a problem that has completed iteration 0. -/
def Problem.result (b : Problem) (cycle : Nat) : Bytes :=
  let bad := b.bestVals.any (fun v => !finite32 v.toNat)
  le 1 b.method ++ le 1 (b2n (b.pivots != 0) + 2 * b2n (bit b.flags 1) + 4 * b2n bad) ++ le 2 (b.unit - 1) ++ le 2 b.best ++ le 2 b.pivots
    ++ le 4 b.bestRes.toNat ++ le 4 b.lambda.toNat ++ le 4 (sat 32 (cycle - b.startAt)) ++ le 2 b.bestVals.length ++ zeros 10
    ++ b.bestVals.flatMap (fun v => le 4 v.toNat)

/-- The next context of an engine, after the one last served, in context-number order (R581). -/
def Solver.nextCtx (v : Solver) (engine last : Nat) : Option Nat :=
  let l := (v.ctxs.filter (fun e => decide (e.2.engine = engine))).map (·.1)
  match l.find? (fun c => decide (last < c)) with
  | some c => some c
  | none => l.head?

/-- The engine has ended a unit of a context and takes up its next (R581). -/
def rotate (h engine ctx : Nat) (s : State) : State :=
  s.modSolver h (fun v =>
    match v.nextCtx engine ctx with
    | some c => { v with lastCtx := v.lastCtx.put engine ctx, busy := v.busy.put engine c, ctxs := v.ctxs.upd c (fun b => { b with unitAt := s.clk.cycle }) }
    | none => { v with lastCtx := v.lastCtx.put engine ctx, busy := v.busy.del engine })

/-- Solver poison raises source 156 of the half (14, Table: Source map). -/
def poisonLine (h status : Nat) (s : State) : State := if status = stPoisoned then intcLevel h (srcKey 0 156) true s else s

/-- A started problem ends: its context is free, its result goes to whoever sent it, and the counts are kept (R570-R573, R595, R596, R600). -/
def endProblem (h ctx status detail : Nat) (s : State) : State :=
  let v := s.solver h
  match v.ctxs.look ctx with
  | none => s
  | some b =>
    let k := v.skels.val b.skel {}
    let out := if status = stOk ∨ status = stPartial then b.result s.clk.cycle else []
    let served := v.busy.look b.engine == some ctx
    let s1 := s.modSolver h (fun v => { v with
      ctxs := v.ctxs.del ctx
      partials := if status = stPartial then sat 16 (v.partials + 1) else v.partials
      pivot := if b.pivots ≠ 0 then sat 16 (v.pivot + 1) else v.pivot
      poisoned := if status = stPoisoned then sat 16 (v.poisoned + 1) else v.poisoned
      latency := max v.latency (sat 32 (s.clk.cycle - b.accepted)) })
    let s2 := poisonLine h status (if served then rotate h b.engine ctx s1 else s1)
    let handle := skelHandle h b.skel k.reuse
    let s3 := match b.pkt with
      | some pid => finish pid status detail handle out false s2
      | none => replyTile b handle status detail out s2
    settleDrops h (freeOldSkels k.fn s3)

/-! ## Starting problems (R567, R581, R582) -/

/-- Contexts held for a service: of a class, and of a function's guest problems. -/
def Solver.held (v : Solver) (sid : Nat) (p : Problem → Bool) : Nat :=
  (v.ctxs.filter (fun e => decide ((v.skels.val e.2.skel {}).sid = sid) && p e.2)).length

/-- The heads of the queues whose skeleton has no problem running, in the rank of R582. -/
def Solver.cands (v : Solver) : List (Nat × Problem) :=
  let l := v.skels.filterMap (fun e =>
    match e.2.queue with
    | b :: _ => if e.2.used && !v.ctxs.any (fun c => decide (c.2.skel = e.1)) then some (e.1, b) else none
    | [] => none)
  sortKey (fun e => [b2n (!e.2.lc), e.2.accepted, b2n e.2.pkt.isSome, e.1]) l

/-- The caps of R582 let a problem start. -/
def State.mayStart (s : State) (h : Nat) (k : Skeleton) (b : Problem) : Bool :=
  let v := s.solver h
  match s.svcOf k.sid with
  | none => false
  | some (_, _, x) =>
    let lcHeld := v.held k.sid (fun c => c.lc)
    let cap := if b.lc then x.lcLimit else min x.beLimit (x.positions - max x.lcReserve lcHeld)
    let share := (s.fn b.fn).quotas.pos
    decide (v.held k.sid (fun c => c.lc == b.lc) < cap)
      && !(b.pkt.isSome && decide (b.fn ≠ 512 ∧ share ≤ v.held k.sid (fun c => c.pkt.isSome && decide (c.fn = b.fn ∧ c.gen = b.gen))))

/-- What becomes of a queued problem that shall not run: its status, or dropped as old work (R179, R203, R589, R597). -/
def State.deadProblem (s : State) (k : Skeleton) (b : Problem) : Option (Option (Nat × Nat)) :=
  let old := match b.pkt with | some pid => (match s.pkts.look pid with | some p => p.final || !s.live p | none => true) | none => false
  if old then some none
  else if (s.solverJob k.sid).isNone then some (some (stJobLost, 1))
  else if b.pkt.isSome && s.refusing k.part then some (some (stDraining, 1))
  else if b.dpoison then some (some (stPoisoned, 1))
  else none

/-- Take the head problem off a skeleton's queue. -/
def popProblem (h i : Nat) (s : State) : State := s.modSolver h (fun v => { v with skels := v.skels.upd i (fun k => { k with queue := k.queue.drop 1 }) })

/-- Start a problem in a context: its engine, and its delta into the entry space (R567, R581). -/
def startProblem (h i ctx : Nat) (b : Problem) (s : State) : State :=
  let v := s.solver h
  let load (g : Nat) : Nat := (v.ctxs.filter (fun e => decide (e.2.engine = g))).length
  let g := (List.range 16).foldl (fun m g => if load g < load m then g else m) 0
  let b1 : Problem := { b with engine := g, startAt := s.clk.cycle, startTick := s.clk.tick, unitAt := s.clk.cycle, unit := 0, delivered := false }
  let s1 := (popProblem h i s).modSolver h (fun v => { v with
    ctxs := v.ctxs.put ctx b1
    busy := if (v.busy.look g).isSome then v.busy else v.busy.put g ctx
    skels := v.skels.upd i (fun k => { k with image := applyDelta k.image b.delta, badEntries := poisonLeft k.image b.delta k.badEntries }) })
  match b.pkt with
  | some pid =>
    let w := s.clk.tick - b.acceptedTick
    modAcct pid (fun a => { a with admitted := a.admitted + 1, waitSum := a.waitSum + w, waitMax := max a.waitMax (sat 32 w) })
      (s1.modPkt pid (fun p => { p with admitted := true }))
  | none => s1

/-- A context is free: the highest-ranked queued problem that may start does; one that shall not run ends in its turn (R582, R593). -/
def execProblemStart (h : Nat) (s : State) : Host.Outcome State Fault Refusal :=
  let v := s.solver h
  let start := s.free % 256
  match (List.range 256).find? (fun n => (v.ctxs.look ((start + n) % 256)).isNone) with
  | none => .next s
  | some n =>
    match v.cands.find? (fun e => (s.deadProblem (v.skels.val e.1 {}) e.2).isSome || s.mayStart h (v.skels.val e.1 {}) e.2) with
    | none => .next s
    | some (i, b) =>
      let k := v.skels.val i {}
      match s.deadProblem k b with
      | some none => .next (match b.pkt with | some pid => settleDrops h (dropPkts [pid] (popProblem h i s)) | none => popProblem h i s)
      | some (some r) =>
        let t := b2n (r.1 == stPoisoned)
        let s1 := poisonLine h r.1 ((popProblem h i s).modSolver h (fun v => { v with poisoned := sat 16 (v.poisoned + t) }))
        .next (match b.pkt with
          | some pid => fail pid r.1 r.2 s1
          | none => replyTile b (skelHandle h i k.reuse) r.1 r.2 [] s1)
      | none => .next (startProblem h i ((start + n) % 256) b (s.took 1))

/-! ## Units (R571-R574, R581, R590, R595, R598) -/

/-- Grid cycles of the unit in progress. -/
def Problem.cycles (b : Problem) (img : Bytes) : Nat := unitCycles img b.method (if b.delivered then 1 + b.unit else 0) b.delta.length

/-- The poison that the unit meets: in the structure, or in an entry that the method reads. -/
def Skeleton.poisonFor (k : Skeleton) (b : Problem) : Bool :=
  k.badBody || (List.range (skelEntries k.image)).any (fun i => k.badEntries.contains (i / 8) && methodReads k.image b.method i)

/-- An iterate is complete (R571, R577). -/
def Problem.iterated (b : Problem) (img : Bytes) : Problem :=
  let i := b.unit
  let r := unitResidual img b.method b.iters i
  let o := iterate img b.method b.iters i
  let b1 : Problem := { b with unit := i + 1, pivots := sat 16 (b.pivots + unitPivots img b.method b.iters i)
                               lambda := max32 b.lambda (unitLambda img b.method b.iters i) }
  if i = 0 ∨ resLess r b.bestRes then { b1 with best := i, bestRes := r, bestVals := o.1, flags := 2 * b2n o.2 } else b1

/-- An engine completes a unit of a context; the last one returns the result (R572, R581, R590). `ue` is an uncorrectable error of a read of the
solver store: 0 in the structure, 1 + g in granule g of the entry space (R595). A unit that would end after the deadline is abandoned (R573). -/
def execSolverUnit (h ctx : Nat) (ue : Option Nat) (s : State) : Host.Outcome State Fault Refusal :=
  let v := s.solver h
  match v.ctxs.look ctx with
  | none => .next s
  | some b =>
    let k := v.skels.val b.skel {}
    let t := b.unitAt + b.cycles k.image
    if v.busy.look b.engine ≠ some ctx ∨ s.clk.cycle < t then .next s
    else if b.delivered && decide (0 < b.unit) && (match b.deadline with | some d => decide (d < t) | none => false) then .next s
    else
      match ue with
      | some g =>
        .next (endProblem h ctx stPoisoned 1 (s.modSolver h (fun v => { v with skels := v.skels.upd b.skel (fun k =>
          if g = 0 then { k with badBody := true } else { k with badEntries := (g - 1) :: k.badEntries }) })))
      | none =>
        if !b.delivered then
          .next (rotate h b.engine ctx (s.modSolver h (fun v => { v with ctxs := v.ctxs.put ctx { b with delivered := true } })))
        else if k.poisonFor b then .next (endProblem h ctx stPoisoned 1 s)
        else
          let s1 := s.modSolver h (fun v => { v with ctxs := v.ctxs.put ctx (b.iterated k.image) })
          .next (if exactMethod b.method ∨ b.iters ≤ b.unit then endProblem h ctx stOk 0 s1 else rotate h b.engine ctx s1)

/-- The deadline has fallen and iteration 0 is complete: the best iterate with PARTIAL (R573, R574, R591). -/
def execSolverDeadline (h ctx : Nat) (s : State) : Host.Outcome State Fault Refusal :=
  match (s.solver h).ctxs.look ctx with
  | none => .next s
  | some b =>
    match b.deadline with
    | none => .next s
    | some d => .next (if s.clk.cycle < d ∨ b.unit = 0 then s else endProblem h ctx stPartial 1 s)

/-- A unit has run 65,536 grid cycles past its count (R598). -/
def execSolverHang (h ctx : Nat) (s : State) : Host.Outcome State Fault Refusal :=
  let v := s.solver h
  match v.ctxs.look ctx with
  | none => .next s
  | some b =>
    let k := v.skels.val b.skel {}
    .next (if v.busy.look b.engine ≠ some ctx ∨ s.clk.cycle < b.unitAt + b.cycles k.image + 65536 then s else hang 7 h ctx s)

end Sys2Proof.Machine
end

