-- ==== Sys2Proof/Machine/Recovery.lean ====
section
/-! DEFINITION. The reset ladder: dumps, spare maps, partition resets, job kills, CP restarts, hangs and the time-outs of packets and
steps (18_hangs_resets_recovery.md; 03, R129-R141; 07, R315; 14, R641-R643). -/

namespace Sys2Proof.Machine

open Sys2Proof

/-! ## The retained dump (R802, R803) -/

/-- The sections of a dump in KiB (Table: Dump sections). -/
def dumpSections : List Nat := [256, 1024, 32, 64, 256, 64, 102, 128, 512, 128, 16, 16]

/-- DUMP_BYTES of a dump with these sections. -/
def dumpBytes (mask : Nat) : Nat :=
  ((List.range 12).filter (fun i => bit mask i)).foldl (fun n i => n + 1024 * dumpSections.getD i 0) 0x1000

/-- Begin a capture: skipped and counted while a dump is held, and not begun while another is being taken. -/
def beginCapture (trigger mask : Nat) (op : Option Nat) (s : State) : State :=
  match s.ladder.dump with
  | some d => s.setRec (fun r => { r with dump := some { d with skipped := sat 16 (d.skipped + 1) } })
  | none => if s.ladder.capture.isSome then s else s.setRec (fun r => { r with capture := some ⟨mask, trigger, op⟩ })

/-- The capture writes its sections and its header and sets VALID. What the sections hold is free (log 21). -/
def endCapture (s : State) : State :=
  match s.ladder.capture with
  | none => s
  | some c =>
    let d : Dump :=
      { trigger := c.trigger
        tick := s.clk.tick
        errSeq := s.ladder.logSeq
        mask := c.mask
        bytes := dumpBytes c.mask
        likeness := s.likeness
        fw := s.ident.fwVersion.toNat
        body := s.fresh }
    (s.setRec (fun r => { r with dump := some d, capture := none })).took d.bytes

def execDumpCaptureEnd (s : State) : Host.Outcome State Fault Refusal :=
  match s.ladder.capture with
  | none => .next s
  | some c => .next (endOpOf c.op 0 0 (endCapture s))

/-! ## Spare maps and column retirement (R788-R791, R813) -/

/-- A pending change waits in the column. -/
def SpareState.due (x : SpareState) : Bool := x.state == 2 || x.state == 4

/-- Write a column's spare map to SPI NOR; whether the write succeeds is open (R813; log 7). -/
def writeSpare (c : Nat) (s : State) : State :=
  let ok := s.free % 2 = 0
  let s1 := s.took 1
  if ok then s1.setRec (fun r => { r with spiSpares := r.spiSpares.put c (s1.spare c) })
  else logEvent { kind := 0x14, data := c } s1

/-- Apply the pending change of a column: a remap, or its retirement. -/
def applySpare (c : Nat) (s : State) : State :=
  let x := s.spare c
  let h := c / 24
  if x.state = 2 then
    let old := 17 * c + x.row
    let new := 17 * c + 16
    let s1 := s.setHealth old { (s.healthOf old) with state := 4, eventS := s.eventS }
    let s2 := s1.setHealth new { (s1.healthOf new) with state := 0, eventS := s.eventS }
    let s3 := s2.setRec (fun r => { r with spares := r.spares.put c { x with state := 3, mapped := true } })
    let s4 := noticeHealth (physName old) 0x0C (intcLevel h (srcKey 0 (238 + c % 24)) false s3)
    writeSpare c (logEvent { kind := 6, severity := 1, rung := 4, unit := 1, index := physName old, data := x.row } s4)
  else if x.state = 4 then
    let s1 := { s with
      parts := s.parts.updAll (fun _ q => { q with cols := q.cols.filter (· != c) })
      pwr := { s.pwr with cols := s.pwr.cols.put c 0, domains := s.pwr.domains.filter (fun d => !decide (d = PowerDomain.column c)) }
      tiles := s.tiles.updAll (fun k t => if colOf k = c then { t with power := 2 } else t) }
    let s2 := s1.setRec (fun r => { r with spares := r.spares.put c { x with state := 5 } })
    let s3 := noticeHealth (colName c) 0x0D (intcLevel h (srcKey 0 (238 + c % 24)) false s2)
    writeSpare c (logEvent { kind := 7, severity := 2, rung := 4, unit := 1, index := colName c } s3)
  else s

/-- Apply the pending changes of some columns, and write again what a failed write left behind. -/
def applySpares (cols : List Nat) (s : State) : State :=
  let s1 := forEach (cols.filter (fun c => (s.spare c).due)) s (fun s c => applySpare c s)
  let stale := (s1.ladder.spares.filter (fun e => !(e.2.due) && e.2.state != 1 && (s1.ladder.spiSpares.look e.1) != some e.2)).map (·.1)
  forEach (stale.filter (fun c => !(s.spare c).due)) s1 (fun s c => writeSpare c s)

/-! ## Partition reset (R784-R787, R318, R184, R601, R782) -/

/-- End the jobs of a partition that pass a test, at once: their notices carry what ended them. -/
def endJobs (part : Nat) (which : Job → Bool) (s : State) : State :=
  forEach (s.jobsOf part) s (fun s j =>
    match s.jobs.look j with
    | none => s
    | some b =>
      if which b then
        let st := if b.state = 4 then b.killStatus else stPartReset
        let d := if b.state = 4 then b.killDetail else 0
        let s1 := noticeJob j st d { s with jobs := s.jobs.del j }
        endOpOf b.killOp 0 0 s1
      else s)

/-- End every packet of a partition's inbox that is not final. -/
def endPartPkts (part status : Nat) (s : State) : State :=
  forEach ((s.pkts.filter (fun e => decide (e.2.part = some part) && !e.2.final)).map (·.1)) s (fun s i => fail i status 0 s)

/-- A tile as a partition reset leaves it (R373): its registers at their reset values and its store zero; a tile of a powered column is
Dormant. What the debug block records of it stays. -/
def Tile.reset (x : Tile) (powered : Bool) : Tile := { power := if powered then 0 else 2, trace := x.trace, traceQ := x.traceQ }

/-- Reset the seventeen tiles of each of some columns. -/
def resetTiles (cols : List Nat) (s : State) : State :=
  { s with tiles := s.tiles.updAll (fun k x => if cols.contains (colOf k) then x.reset (decide (s.pwr.cols.val (colOf k) 0 = 2)) else x) }

/-- The packets that a partition's tiles have on the way are gone at a reset, and what they hold of the Half Link's credits comes back (10, Table:
Resets on one side). -/
def dropRequests (part : Nat) (s : State) : State :=
  let mine (k : UcPacket) : Bool := tileSrc k.src && decide (k.part = part)
  let held := s.hl.waiting
  let s0 := s.setHl (fun h => { h with waiting := h.waiting.filter (fun k => !mine k) })
  let s1 := forEach (s.hl.reqs.filter (fun e => mine e.2.pkt)) s0 (fun s e =>
    let k := e.2.pkt
    match crossing (e.2.tile / 408) k.dest with
    | some d => if k.flags = 0 ∧ k.typ ≠ 0 ∧ !held.any (fun w => decide (w.tag = k.tag)) then hlDone d (1 + k.len) s else s
    | none => s)
  s1.setHl (fun h => { h with
    reqs := h.reqs.keep (fun _ r => !mine r.pkt)
    resps := h.resps.filter (fun k => !mine k) })

/-- The first steps of a partition reset: no more work, every job ended, the slice and the skeletons free, the tiles reset, which halts any
that a kill could not halt, and the pending spare changes applied: a later quarantine stays pending (R812). A kill in progress is absorbed, and
its JOB_ENDED comes with the end of the reset (R782, R808). -/
def startPartReset (part : Nat) (remap : Bool) (op : Option Nat) (s : State) : State :=
  match s.parts.look part with
  | none => s
  | some q =>
    if q.resetting then s
    else
      let n := if remap then (q.cols.filter (fun c => (s.spare c).due)).length else 0
      let s0 := match q.loading with
        | some id => (match s.loads.look id with | some l => endOp l.op rcAborted 0 (abandonLoad id s) | none => s)
        | none => s
      let s1 := closeHold part (dropTransfers (fun t => decide (t.part = part)) (endStop part s0))
      let s2 := forEach (s.jobsOf part) s1 (fun s j =>
        match s.jobs.look j with | some b => if b.state = 4 then s else endJobWork j stPartReset 0 s | none => s)
      let s3 := endJobs part (fun b => b.state != 4) s2
      let s4 := endPartPkts part stPartReset (freeSkels part stPartReset 0 (freeSlice part (some (stPartReset, 0)) s3))
      let s5 := s4.modPart part (fun q => { q with
        resetting := true, resetAt := s.clk.tick, resetOp := op.orElse (fun _ => q.resetOp), resetDone := false, remap := remap, runJob := none, switch := none })
      let s6 := s5.setPwr (fun p => { p with partResets := sat 16 (p.partResets + 1) })
      let s7 := noticePart part (logEvent { kind := 5, severity := 2, rung := 4, part := part, data := n } s6)
      applySpares (if remap then q.cols else []) (resetTiles q.cols (dropRequests part s7))

/-- A partition reset begins, once no column of the partition is powering up or down (R677). -/
def beginPartReset (part : Nat) (remap : Bool) (op : Option Nat) (s : State) : State :=
  match s.parts.look part with
  | none => s
  | some q =>
    if !q.resetting ∧ s.colsMove q then
      s.setPart part { q with resetDue := some (match q.resetDue with | some d => (d.1 || remap, d.2.orElse (fun _ => op)) | none => (remap, op)) }
    else startPartReset part remap op s

/-- The transition of a column is complete: a partition reset that waited for it begins (R677). -/
def dueReset (col : Nat) (s : State) : State :=
  match s.partOfCol col with
  | none => s
  | some p =>
    match s.parts.look p with
    | none => s
    | some q =>
      match q.resetDue with
      | none => s
      | some d => if s.colsMove q then s else startPartReset p d.1 d.2 (s.setPart p { q with resetDue := none })

/-- A partition has lost its jobs: a destroy, an unload that waits, or a drain goes on (06, PART_DESTROY; 07, R307). -/
def dropPart (part : Nat) (s : State) : State :=
  let q := s.parts.val part {}
  let s1 := dropTransfers (fun t => decide (t.part = part)) (tdiErrors q.sids (removeSeason part s))
  let s2 := { s1 with parts := s1.parts.del part }
  endOpOf q.resetOp 0 0 (noticePart part s2)

/-- Take a partition's Season away for good: the content key and the staged image go with it (19, R838). -/
def unloadPart (part : Nat) (s : State) : State :=
  let q := s.parts.val part {}
  let s1 := tdiErrors q.sids (removeSeason part s)
  noticePart part (s1.modPart part (fun y => { y with contentKey := false, staged := none, stagedBytes := 0, unloading := none }))

/-- With no job left in a partition, what waited for that happens. -/
def settlePart (part : Nat) (s : State) : State :=
  match s.parts.look part with
  | none => s
  | some q =>
    if s.jobsOf part ≠ [] ∨ q.resetting then s
    else if q.destroying then dropPart part s
    else
      let s1 := match q.unloading with
        | some m =>
          let n := 65536 + (Mbox.num m)
          answerBox m rcOk 0 0 [] ((unloadPart part s).setMail (fun x => { x with locks := x.locks.filter (fun l => !decide (l.2 = n)) }))
        | none => s
      settleDrain part s1

/-- The rest of a partition reset: tiles, transfers, tables, and the Season again from the staged image (R281, R282, R784,
R786, R792). -/
def finishPartReset (part : Nat) (s : State) : State :=
  match s.parts.look part with
  | none => s
  | some q =>
    let cols := q.cols
    let s1 := resetTiles cols s
    let s3 := intcBothLevel (136 + part) false (dropWatches part (dropTransfers (fun t => decide (t.part = part)) s1))
    let s4 := s3.modPart part (fun y => { y with
      l1 := [], tables := [], kvFree := [], xfVa := 0, xfInfo := 0, reload := [], resetDone := true })
    let now := (s4.parts.val part {}).cols
    let sids := q.sids
    match q.season, q.staged with
    | some x, some _ =>
      if x.columns = now.length then installSeason part x q.svcs s4
      else serviceChange sids (s4.modPart part (fun y => { y with season := none, svcs := [], tableValid := false, fraction := 0 }))
    | some _, none => serviceChange sids (s4.modPart part (fun y => { y with season := none, svcs := [], contentKey := false, tableValid := false, fraction := 0 }))
    | none, _ => s4

def execPartitionResetEnd (part : Nat) (s : State) : Host.Outcome State Fault Refusal :=
  match s.parts.look part with
  | none => .next s
  | some q =>
    if !q.resetting then .next s
    else
      let s1 := (finishPartReset part s).modPart part (fun y => { y with resetting := false, resetDone := false, remap := false, resetOp := if y.destroying then y.resetOp else none })
      let s2 := restTiles part (endJobs part (fun _ => true) (noticePart part s1))
      let s3 := if q.destroying then s2 else endOpOf q.resetOp 0 0 s2
      .next (settlePart part s3)

/-- The steps before the reinstall are not done 50,000 calendar ticks after the start (R771, R785); a CP restart pauses the bound (R809). -/
def execPartitionResetTimeout (part : Nat) (s : State) : Host.Outcome State Fault Refusal :=
  match s.parts.look part with
  | none => .next s
  | some q =>
    if !q.resetting ∨ q.resetDone ∨ s.cpsOut ∨ s.clk.tick < q.resetAt + 50000 then .next s
    else .next (beginWarm 5 0 part s)

/-! ## Job kills (R782, R783) -/

/-- Nothing of a killed job moves any more: no tile runs its row group to the end. -/
def State.killDone (s : State) (j : Nat) : Bool := !s.tiles.any (fun e => decide (e.2.job = some j) && e.2.inBlk)

/-- A kill is complete: the job's tasks and contexts are gone and the job with them. -/
def execJobKillComplete (job : Nat) (s : State) : Host.Outcome State Fault Refusal :=
  match s.jobs.look job with
  | none => .next s
  | some b =>
    let q := s.parts.val b.part {}
    if b.state ≠ 4 ∨ q.resetting ∨ !s.killDone job then .next s
    else
      let s1 := { s with tiles := s.tiles.updAll (fun k x =>
        if q.cols.contains (colOf k) then { (x.endTask job) with ctx := x.ctx.del b.entry } else x) }
      let s2 := intcBothLevel (136 + b.part) false (restTiles b.part { s1 with jobs := s1.jobs.del job })
      let s3 := endOpOf b.killOp 0 0 (noticeJob job b.killStatus b.killDetail s2)
      .next (settlePart b.part s3)

/-- A kill is not complete 50,000 calendar ticks after it began. -/
def execKillEscalation (job : Nat) (s : State) : Host.Outcome State Fault Refusal :=
  match s.jobs.look job with
  | none => .next s
  | some b =>
    if b.state ≠ 4 ∨ (s.parts.val b.part {}).resetting ∨ (s.parts.val b.part {}).resetDue.isSome ∨ s.clk.tick < b.killAt + 50000 then .next s
    else
      let s1 := logEvent { kind := 4, severity := 2, rung := 4, part := b.part, job := job } s
      let s2 := s1.setPwr (fun p => { p with killEscalations := sat 16 (p.killEscalations + 1) })
      .next (beginPartReset b.part true none s2)

/-! ## Time-outs of packets and steps (R129-R141, R590, R591) -/

/-- The entry and the operation that a packet queued. -/
def State.opOfPkt (s : State) (pid : Nat) : Option (Nat × SeqOp) :=
  s.seqs.findSome? (fun e => (e.2.ops.find? (fun o => o.pkt == pid)).map (fun o => (e.1, o)))

/-- The solver and context of a packet's started problem. -/
def State.problemOf (s : State) (pid : Nat) : Option (Nat × Nat × Problem) :=
  s.solvers.findSome? (fun v => (v.2.ctxs.find? (fun c => decide (c.2.pkt = some pid))).map (fun c => (v.1, c.1, c.2)))

/-- Take a packet's queued problem, or the SOLVE_DROP that it is, out of the solvers. -/
def dropQueued (pid : Nat) (s : State) : State :=
  { s with solvers := s.solvers.updAll (fun _ v => { v with
      skels := v.skels.updAll (fun _ k => { k with
        queue := k.queue.filter (fun b => !decide (b.pkt = some pid)), dropping := if k.dropping = some pid then none else k.dropping }) }) }

/-- A packet's timer reaches T: before admission only its own work ends (R131); after it, the job running it is killed (R132, R133). -/
def execPacketTimeout (pid : Nat) (s : State) : Host.Outcome State Fault Refusal :=
  match s.pkts.look pid with
  | none => .next s
  | some p =>
    match p.timer, s.qps.look p.qp with
    | some t, some _ =>
      if p.final ∨ p.opcode = opFence ∨ !s.live p ∨ s.clk.tick < t + p.limitMs * 1000 then .next s
      else
        let limit := s.stepLimit * 1000
        match s.opOfPkt pid, s.problemOf pid with
        | some (e, o), _ =>
          let x := s.seq e
          let j := s.jobOf x.part ((s.parts.val x.part {}).svcs.findSome? (fun v => if v.2.sid = x.sid then some v.1 else none) |>.getD 16)
          let held := o.admAt.isSome
          if !held then .next (settleSeq e (fail pid stTimeout 1 (s.modSeq e (fun x => { x with ops := x.ops.filter (fun y => y.pkt != pid) }))))
          else
            let late : Bool := match j with
              | some n => (match s.jobs.look n with | some b => b.stepStart.any (fun a => decide (a + limit ≤ s.clk.tick ∧ a + limit = t + p.limitMs * 1000)) | none => false)
              | none => false
            if late then .next (match j with | some n => beginKill n stTimeout 3 s | none => s)
            else
              let s1 := endEntry e stJobLost 4 (fail pid stTimeout 2 (s.modSeq e (fun x => { x with ops := x.ops.filter (fun y => y.pkt != pid) })))
              .next (match j with | some n => killFor n stJobLost 4 stTimeout 2 s1 | none => s1)
        | none, some (h, c, b) =>
          let falls := t + p.limitMs * 1000
          let first : Bool := match b.deadline with | some d => decide (d / 1500 ≤ falls) | none => false
          if first then .next s
          else if b.startTick + limit = falls then .next (endProblem h c stTimeout 3 s)
          else
            let s1 := endProblem h c stTimeout 2 s
            let k := (s.solver h).skels.val b.skel {}
            .next (match s.solverJob k.sid with | some j => killFor j stJobLost 4 stTimeout 2 s1 | none => s1)
        | none, none =>
          if p.opcode = opWait then
            let x := (s.fn p.fnKey).targets.val (fld p.hdr 0x20 2) {}
            let v := s.alm.sems.val (2048 * x.half + x.sem) 0
            let s1 := s.modQp p.qp (fun q => { q with hold := if q.hold = some pid then none else q.hold })
            if p.taken ∧ x.kind = 2 ∧ fld p.hdr 0x28 8 ≤ v.toNat then .next (finish pid stOk 0 0 (le 8 v.toNat) false s1)
            else .next (fail pid stTimeout 1 s1)
          else .next (fail pid stTimeout 1 (dropQueued pid s))
    | _, _ => .next s

/-- A step of a job, or a problem of a solver job, has run longer than DEVICE_STEP_LIMIT (R134). -/
def execStepLimitExpiry (job : Nat) (s : State) : Host.Outcome State Fault Refusal :=
  match s.jobs.look job with
  | none => .next s
  | some b =>
    let limit := s.stepLimit * 1000
    if b.state = 4 then .next s
    else if b.solver then
      let sid := ((s.parts.val b.part {}).svcs.val b.entry {}).sid
      let late := [0, 1].flatMap (fun h => ((s.solver h).ctxs.filter (fun c =>
        decide (((s.solver h).skels.val c.2.skel {}).sid = sid ∧ c.2.startTick + limit ≤ s.clk.tick)
          && !(match c.2.deadline with | some d => decide (d / 1500 ≤ c.2.startTick + limit) | none => false))).map (fun c => (h, c.1)))
      .next (forEach late s (fun s e => endProblem e.1 e.2 stTimeout 3 s))
    else
      match b.stepStart with
      | none => .next s
      | some t => .next (if t + limit ≤ s.clk.tick then beginKill job stTimeout 3 s else s)

/-! ## Heartbeat, stalls and CP restarts (R773-R777, R794-R796, R259, R642, R643, R809) -/

/-- Firmware that runs counts its heartbeat up. -/
def execHeartbeat (cp : Nat) (s : State) : Host.Outcome State Fault Refusal :=
  .next (if 4 ≤ cp ∨ !s.pwr.cpClock ∨ s.start.stage < 2 ∨ (s.ladder.cpRestart.look cp).isSome then s
    else s.setPwr (fun p => { p with beats := p.beats.put cp ((p.beats.val cp 0 + 1) % 65536) }))

/-- The mailbox of a number. -/
def boxAt (n : Nat) : Mbox := if n < 4 then .pf n else if n = 4 then .sec else if n = 5 then .mgmt else .vf (n - 6)

/-- The INTC of a half when CPs of it restart: one keeps everything but its own target's state (R642); both reset all registers, and the
events of edge-mode sources wait (R643). -/
def intcRestart (h : Nat) (cps : List Nat) (s : State) : State :=
  match cps with
  | [] => s
  | [c] => s.modIntc h (fun v => { v with
      service := v.service.del (c % 2)
      srcs := v.srcs.updAll (fun k x => if srcBank k = some (c % 2) then { x with pend := false } else x) })
  | _ => s.modIntc h (fun v =>
      { srcs := v.srcs.updAll (fun _ x => { lost := x.lost, masked := x.masked, pend := x.edge && x.pend, input := x.input }) })

/-- Commands and operations that a CP restart ends (R259): their code is ABORTED, DETAIL 0x0001, delivered when the restart has ended. -/
def abortCommands (except : Option Nat) (s : State) : State :=
  let mine (r : OpRec) : Bool := !r.done && decide (r.opcode / 256 ≠ 8 ∧ r.rc = 0) && (some r.op != except)
  let s1 := forEach (s.mail.ops.filter mine) s (fun s r => undoOp r.op s)
  let boxes := s1.mail.boxes.updAll (fun n b =>
    match b.taken with
    | none => b
    | some r =>
      if n = 4 ∨ reqOpcode r / 256 = 8 then b
      else
        let abort (r : Bytes) : Bytes := respBytes r rcAborted 1 0 []
        if b.discard then { b with taken := none, discard := false, queued := none, rsp := match b.queued with | some k => abort k | none => b.rsp }
        else { b with taken := none, rsp := abort r })
  { s1 with
    parts := s1.parts.updAll (fun _ q => { q with unloading := none })
    mail := { s1.mail with
      ops := s1.mail.ops.map (fun r => if mine r then { r with rc := rcAborted, detail := 1 } else r)
      boxes := boxes
      mgmtWait := none
      late := s1.mail.late.filter (fun l => decide (reqOpcode l.2 / 256 = 8))
      locks := s1.mail.locks.filter (fun l => decide (l.2 < 65536)) } }

/-- Restart CPs: a dump, the interrupt controller, and the commands in progress. -/
def beginCpRestart (cps : List Nat) (op : Option Nat) (s : State) : State :=
  let new := cps.filter (fun c => (s.ladder.cpRestart.look c).isNone)
  if new = [] then s
  else
    let s1 := beginCapture 3 0xFFF none s
    let s2 := s1.setRec (fun r => { r with cpRestart := new.foldl (fun t c => t.put c s.clk.tick) r.cpRestart, cpOp := if op.isSome then op else r.cpOp })
    let s3 := s2.setPwr (fun p => { p with cpRestarts := sat 16 (p.cpRestarts + new.length) })
    let half (h : Nat) : List Nat := if new.any (fun c => c / 2 == h) then s3.ladder.cpRestart.keys.filter (fun c => c / 2 == h) else []
    abortCommands s3.ladder.cpOp (intcRestart 1 (half 1) (intcRestart 0 (half 0) s3))

/-- One stall of a CP is declared (R775, R776): the third within 10,000,000 calendar ticks is a warm device reset. -/
def stall (cp : Nat) (s : State) : State :=
  let s1 := logEvent { kind := 9, severity := 2, rung := 5, unit := 0x0A, index := cp, data := s.pwr.beats.val cp 0 } s
  let recent := (s1.pwr.stallTicks.filter (fun t => decide (s1.clk.tick < t + 10000000))) ++ [s1.clk.tick]
  let s2 := s1.setPwr (fun p => { p with stallTicks := recent })
  if s2.ladder.flush.isSome then s2
  else if 3 ≤ recent.length then
    -- before readiness of a warm start too (R717)
    if s2.pins.perst then s2 else beginFlush 2 0x0A cp s2
  else beginCpRestart [cp] none s2

/-- The monitor's check of the CPs whose clocks run. -/
def execHeartbeatCheck (s : State) : Host.Outcome State Fault Refusal :=
  if s.clk.tick < s.pwr.checkTick + 16000 then .next s
  else
    let s0 := s.setPwr (fun p => { p with
      checkTick := p.checkTick + 16000 * ((s.clk.tick - p.checkTick) / 16000)
      stallTicks := p.stallTicks.filter (fun t => decide (s.clk.tick < t + 10000000)) })
    let cps := (List.range 4).filter (fun c => s.pwr.cpClock && decide (2 ≤ s.start.stage) && (s.ladder.cpRestart.look c).isNone)
    let s1 := forEach cps s0 (fun s c =>
      let now := s.pwr.beats.val c 0
      let same := decide (now = s.pwr.beatSeen.val c 0)
      let s1 := s.setPwr (fun p => { p with
        beatSeen := p.beatSeen.put c now, missed := p.missed.put c (if same then min 4 (p.missed.val c 0 + 1) else 0) })
      if same then intcEdge (c / 2) (srcKey (1 - c % 2) 4) s1 else s1)
    .next (forEach (cps.filter (fun c => decide (s1.pwr.missed.val c 0 = 4 ∧ s0.pwr.missed.val c 0 < 4))) s1 (fun s c => stall c s))

/-- Mailboxes after the last CP restart: what was ended is answered, and what was held is served (R259, R795). -/
def resumeBoxes (s : State) : State :=
  forEach s.mail.boxes.keys s (fun s n =>
    let m := boxAt n
    let b := s.box m
    if b.state ≠ 1 ∨ n = 4 then s
    else
      match b.taken with
      | some _ => serveBox m s
      | none =>
        match Mbox.fn m with
        | none => (s.setBox m { b with state := 0 }).emit (.response m b.rsp)
        | some f =>
          let s1 := s.setBox m { b with state := 2, rsp := fit 512 b.rsp }
          if b.doneIrq then msix f 0 s1 else s1)

/-- The first heartbeat of a restarted CP ends its restart. -/
def execCpRestartEnd (cp : Nat) (s : State) : Host.Outcome State Fault Refusal :=
  match s.ladder.cpRestart.look cp with
  | none => .next s
  | some t =>
    let n := s.clk.tick - t
    let s0 := match s.ladder.capture with | some c => if c.trigger = 3 then endCapture s else s | none => s
    let s1 := s0.setPwr (fun p => { p with beats := p.beats.put cp ((p.beats.val cp 0 + 1) % 65536), missed := p.missed.put cp 0 })
    let s2 := logEvent { kind := 0x0A, severity := 1, rung := 5, unit := 0x0A, index := cp, data := n } (s1.setRec (fun r => { r with cpRestart := r.cpRestart.del cp }))
    if s2.cpsOut then .next s2
    else
      let s3 := { s2 with parts := s2.parts.updAll (fun _ q => if q.resetting then { q with resetAt := q.resetAt + n } else q) }
      let s4 := resumeBoxes s3
      let s5 := forEach (s4.mail.ops.filter (fun r => !r.done && r.rc != 0)) s4 (fun s r => deliverOp r.op r.rc r.detail s)
      .next (endOpOf s5.ladder.cpOp 0 0 (s5.setRec (fun r => { r with cpOp := none })))

/-- A CP restart is not complete within 200,000 calendar ticks (R771). -/
def execCpRestartTimeout (cp : Nat) (s : State) : Host.Outcome State Fault Refusal :=
  match s.ladder.cpRestart.look cp with
  | none => .next s
  | some t => .next (if t + 200000 ≤ s.clk.tick then beginWarm 3 0x0A cp s else s)

/-- A parity error of an interrupt controller (R641): a stall of both CPs of the half. -/
def execIntcParityError (h : Nat) (s : State) : Host.Outcome State Fault Refusal :=
  if 2 ≤ h then .next s
  else
    let s1 := intcAttention h (s.modIntc h (fun c => { c with parity := true }))
    let s2 := logEvent { kind := 0x10, severity := 2, rung := 5, unit := 0x0B, index := h } s1
    .next (stall (2 * h + 1) (stall (2 * h) s2))

/-! ## Hangs and warm resets whose triggers are events of their own (R251, R682, R798, R861) -/

/-- A warm device reset that was due: the DEVICE_RESET accepted 1,000 calendar ticks ago, a Spring that fails, or a hang that hardware
reports of an engine. -/
def execWarmDeviceReset (cause unit index : Nat) (s : State) : Host.Outcome State Fault Refusal :=
  .next (
    if cause = 1 then (match s.ladder.resetDue with | some t => if t ≤ s.clk.tick then beginWarm 1 0 0 s else s | none => s)
    else if cause = 8 then (if s.pwr.state = 1 ∧ s.start.stage = 6 then beginWarm 8 unit index s else s)
    else if cause = 4 then hang unit index 0 s
    else s)

/-- The security processor does not answer its watchdog (R861). -/
def execSpWatchdog (s : State) : Host.Outcome State Fault Refusal := .next (hang 0x0F 0 0 s)

end Sys2Proof.Machine
end

