-- ==== Sys2Proof/Machine/Month.lean ====
section
/-! DEFINITION. The Month boundary: the books, silent peers, the windows of interference, the steps that start with a Month
(01, R32; 07, R305, R306; 10, R448, R449; 11, R484; 12, R518, R521, R528, R534; 22_books_ties_combinations.md). -/

namespace Sys2Proof.Machine

open Sys2Proof

/-! ## The books (22, Table: Books) -/

/-- A book that does not balance: its code, the index and the half or direction, and the partition where the failure is a partition's. -/
structure BookFail where
  code : Nat
  index : Nat := 0
  half : Nat := 0
  part : Option Nat := none
deriving DecidableEq, Repr

/-- Count of a list's elements that pass a test. -/
def count {α : Type} (l : List α) (p : α → Bool) : Nat := (l.filter p).length

/-- Books of the mesh, the Half Link, the fabric and the transfer tags (0x01-0x04; R448, R484, R534). -/
def linkBooks (s : State) : List BookFail :=
  (s.hl.hopUsed.filter (fun e => decide (4 < e.2))).map (fun e => { code := 1, index := e.1 / 2 % 65536, half := e.1 / 2 / 408 % 2 })
    ++ (s.tiles.filter (fun e => decide (4 < e.2.arrivals.length))).map (fun e => { code := 1, index := e.1, half := e.1 / 408 })
    ++ (if s.hl.state = 2 then
          ([0, 1].filter (fun d => decide (1920 < s.hl.ttAvail.val d 0 ∨ 128 < s.hl.ctlAvail.val d 0))).map (fun d => { code := 2, half := d })
        else [])
    ++ (s.portList.filter (fun p => let x := s.port p; x.isUp && decide (x.credits + x.sentUncred ≠ 512 ∨ 512 < x.rx))).map (fun p => { code := 3, index := p })
    ++ (let tags := s.mem.xfers
        let mine (t : Nat) : Nat := count tags (fun e => decide (e.2.tile = some t))
        let qfe (e : Nat × Xfer) : Option Nat := if 24576 ≤ e.1 then some ((e.1 - 24576) / 512) else none
        if 32768 < tags.length ∨ tags.any (fun e => (match e.2.tile with | some t => decide (32 < mine t) | none => false)
            || (match qfe e with | some q => decide (512 < count tags (fun f => qfe f == some q)) | none => false))
        then [{ code := 4 }] else [])

/-- Books of the queue interface and of the sequence tables (0x05-0x08). Which slots of an engine the reserve covers is not held
against a reserve raised since (log 34). -/
def queueBooks (s : State) : List BookFail :=
  ((List.range 16).filter (fun q => decide (128 < count s.fslots (fun e => decide (e.1 / 128 = q))))).map (fun q => { code := 5, index := q })
    ++ (s.qps.filter (fun e => decide (e.2.state = 1) && decide (2 ^ e.2.cqLog - 1 < (e.2.cqTail + 2 ^ e.2.cqLog - e.2.cqHead % 2 ^ e.2.cqLog) % 2 ^ e.2.cqLog))).map
        (fun e => { code := 6, index := e.1 })
    ++ (s.parts.filter (fun e => !e.2.resetting && !e.2.destroying &&
          s.seqs.any (fun x => decide (x.2.state ≠ 0 ∧ x.2.part = e.1 ∧ ¬ (e.2.seqBase ≤ x.1 ∧ x.1 < e.2.seqBase + e.2.seqLen))))).map
        (fun e => { code := 7, index := e.1 })
    ++ (s.jobs.filter (fun e =>
          let v := ((s.parts.val e.2.part {}).svcs.val e.2.entry {})
          !e.2.solver && decide (v.positions < e.2.occupied.length ∨ e.2.lcLimitAt < e.2.lcAdm))).map
        (fun e => { code := 8, index := e.2.part })

/-- A channel's book (0x0A) is out of balance, over the channels of a tile that lead to one queue of a receiver. -/
def State.channelOut (s : State) (p : Nat) (c : Channel) : Bool :=
  let me := (s.logOf p).getD 768
  let same := (s.tile p).chans.filter (fun e => e.2.conf && decide (e.2.dst = c.dst ∧ e.2.dstChan = c.dstChan))
  let there := (s.tile (s.physOf c.dst)).chans.val c.dstChan {}
  let sum (f : Channel → Nat) : Nat := same.foldl (fun n e => n + f e.2) 0
  let held := count (there.queue ++ there.held) (fun m => decide (m.2 = me))
  decide (sum (·.avail) + sum (·.flying) + sum (fun c => c.wire.length) + held + sum (·.returning) + sum (·.lent)
    ≠ sum (·.credits) + sum (fun c => c.owedCredits))

/-- Books that belong to a partition (0x09-0x0B, 0x0D). A channel towards a solver has its credits at the solver and is not among them. -/
def partBooks (s : State) : List BookFail :=
  let parts (code : Nat) (bad : Nat → Part → Bool) : List BookFail :=
    (s.parts.filter (fun e => bad e.1 e.2)).map (fun e => { code := code, index := e.1, part := some e.1 })
  let tiles (code : Nat) (bad : Nat → Tile → Bool) : List BookFail :=
    (s.tiles.filter (fun e => decide (e.2.power ≠ 2) && bad e.1 e.2)).filterMap (fun e =>
      (s.partOfTile e.1).map (fun q => { code := code, index := e.1, half := e.1 / 408, part := some q }))
  parts 9 (fun n q =>
      match q.season with
      | some x =>
        let pool := match x.region 2 0 with | some r => r.bytes / 0x10000 | none => 0
        let named := s.seqs.foldl (fun m e => if e.2.part = n ∧ e.2.state ≠ 0 then m + e.2.pages.length else m) 0
        !q.resetting && !q.destroying && decide (q.kvFree.length + named ≠ pool)
      | none => false)
    ++ tiles 0xA (fun p x =>
        let moving : Bool := match s.partOfTile p with | some q => (s.parts.val q {}).switch.isSome || (s.parts.val q {}).resetting | none => false
        !moving && x.chans.any (fun e => e.2.conf && decide (e.2.dst < 768) && s.channelOut p e.2))
    ++ tiles 0xB (fun _ x => x.job.isSome && decide (x.semHeld ≠ lockMask x.semKind x.sems))
    ++ parts 0xD (fun _ q => q.regs.any (fun r => decide (r.2.rate ≠ 0 ∧ r.2.burst * 1024 < r.2.bucket)))

/-- Books of signals and of the solvers (0x0C, 0x0F). The counts behind book 0x0E are taken from the holdings themselves. -/
def otherBooks (s : State) : List BookFail :=
  (s.fns.filter (fun f => f.2.targets.any (fun t =>
      let out := count s.alm.sigs (fun g => decide (g.2.fn = f.1 ∧ g.2.target = t.1 ∧ g.2.gen = f.2.gen))
      decide (t.2.issued ≠ t.2.acked + t.2.lostN + out)))).map (fun f => { code := 0xC, index := f.1 })
    ++ (s.solvers.filter (fun v =>
        let used := v.2.skels.filter (fun k => k.2.used)
        decide (256 < v.2.ctxs.length ∨ 12288 < used.foldl (fun n k => n + k.2.blocks) 0))).map (fun v => { code := 0xF, index := v.1, half := v.1 })

/-- Every book that fails at an audit point, in the order of R932. -/
def failedBooks (s : State) : List BookFail :=
  let l := linkBooks s ++ queueBooks s ++ partBooks s ++ otherBooks s
  sortKey (fun b => [b.code, b.index, b.half]) l

/-- The audit (R926-R933): every failure logged and counted; a failure of the whole device's is a hang, else each partition that owns
one is reset. -/
def audit (s : State) : State :=
  let bad := failedBooks s
  let s0 := s.setPwr (fun p => { p with auditMonths := (p.auditMonths + 1) % 2 ^ 32 })
  let s1 := forEach bad s0 (fun s b =>
    let pool := b.code + 256 * b.index + 2 ^ 24 * b.half
    let s1 := logEvent { kind := 0x0D, severity := if b.part.isSome then 2 else 3, rung := if b.part.isSome then 4 else 6, part := b.part.getD 255, data := pool } s
    let s2 := s1.setPwr (fun p => { p with auditFails := sat 16 (p.auditFails + 1), lastBook := b.code })
    if b.code = 1 then s2.setHl (fun h => { h with meshAudit := if h.meshAudit.contains b.half then h.meshAudit else b.half :: h.meshAudit })
    else if b.code = 2 then s2.setHl (fun h => { h with audit := true, state := 0 })
    else if b.code = 3 then noticeFabric b.index 0xA s2
    else s2)
  match bad.find? (fun b => b.part.isNone) with
  | some b =>
    let unit := if b.code = 1 then 2 else if b.code = 2 then 3 else if b.code = 3 then 9 else if b.code = 4 then 0xE
      else if b.code = 5 ∨ b.code = 6 then 4 else if b.code = 0xF then 7 else 6
    hang unit b.index (b.code + 256 * b.index + 2 ^ 24 * b.half)
      (if b.code = 1 then intcLevel b.half (srcKey 0 153) true s1 else if b.code = 2 then intcBothLevel 154 true s1 else if b.code = 3 then intcBothLevel 263 true s1 else s1)
  | none => forEach ((bad.filterMap (·.part)).dedup) s1 (fun s p => beginPartReset p true none (noticeHealth (0xE000 + p) 0xE s))

/-! ## Windows of interference (R305, R306) -/

/-- The ratio of a resource's waits behind others. -/
def ratio (x : Intf) : Nat := if x.f = 0 then 0 else min 0xFFFF (65536 * x.w / x.f)

/-- A window of 256 Months ends. -/
def Part.endWindow (q : Part) : Part :=
  { q with
    index := ratio (q.intf.foldl (fun (t : Intf) e => { f := t.f + e.2.f, w := t.w + e.2.w }) {})
    detail := (List.range 4).foldl (fun t r => t.put r (ratio (q.intf.val r {}))) []
    windows := (q.windows + 1) % 65536
    intf := [] }

/-- The waits of a partition at the PCIe intake, the Half Link and the fabric port queues over the window: grid cycles of arbitration inside the
rows, of which the model has only that the waits behind others are part of all (free values, log 85). -/
def Part.addWaits (q : Part) (base : Nat) : Part :=
  { q with intf := [0, 2, 3].foldl (fun t r => let f := Config.free (base + 2 * r); t.put r { f := f, w := min f (Config.free (base + 2 * r + 1)) }) q.intf }

/-- Every partition's window ends. -/
def endWindows (s : State) : State :=
  forEach s.parts.keys s (fun s p => (s.modPart p (fun q => (q.addWaits s.fresh).endWindow)).took 8)

/-! ## Steps that start with a Month (R33, R518) -/

/-- Start the slot-owning jobs whose domain Month has come. -/
def startSlotJobs (s : State) : State :=
  forEach s.jobs s (fun s e =>
    match s.parts.look e.2.part with
    | none => s
    | some q =>
      match q.season with
      | none => s
      | some x =>
        if x.ownsSlots ∧ e.2.state = 1 ∧ e.2.startMonth ≤ s.alm.month ∧ s.alm.month % max 1 x.monthsPerStep = 0 ∧ q.runJob.isNone ∧ !q.resetting ∧ q.hold.isNone ∧ !s.colsMove q then
          let s1 := (loadContexts q e.1 e.2.entry s).modPart e.2.part (fun q => { q with runJob := some e.1 })
          beginStep e.1 (s1.modJob e.1 (fun b => { b with state := 2 }))
        else s)

/-- A Month ends and the next begins. -/
def nextMonth (s : State) : State :=
  let r := countSilent s
  let s1 := forEach r.2 r.1 (fun s j => beginKill j stPeer 0 s)
  let n := s1.clk.months + 1
  let s2 := { s1 with
    clk := { s1.clk with months := n, phase := s1.clk.phase - 61440 }
    alm := { s1.alm with
      month := if s1.alm.state = 0 then s1.alm.month else s1.alm.month + 1
      slew := if 5 ≤ s1.alm.slew then s1.alm.slew - 5 else if s1.alm.slew ≤ -5 then s1.alm.slew + 5 else 0 }
    ports := s1.ports.updAll (fun _ x => { x with slot := 0, ueMonth := 0 })
    jobs := s1.jobs.updAll (fun _ b => { b with fabMonths := b.fabMonths + 1 }) }
  let s2 := if n % 256 = 0 then endWindows s2 else s2
  let s3 := if s2.alm.leaveAt then leaveDone s2 else s2
  let s4 := match s3.alm.joinOp with
    | some (_, m) => if m + 1024 ≤ n then abandonJoin s3 else s3
    | none => s3
  startSlotJobs s4

/-- The first grid cycle of a Month. -/
def execMonthBoundary (s : State) : Host.Outcome State Fault Refusal :=
  if !s.clk.monthsOn ∨ s.clk.phase < 61440 then .next s
  else
    let s1 := nextMonth s
    .next (if s1.ladder.flush.isSome then s1 else audit s1)

end Sys2Proof.Machine
end

