-- ==== Sys2Proof/Machine/Start.lean ====
section
/-! DEFINITION. Starts and power: PERST#, the power-on sequence, readiness, warm starts, Winter and Spring, tile and column power, rails and
temperatures (15_power_and_clocks.md, 16_the_first_second.md, 21_package_pins_likeness.md; 18, R799-R801). -/

namespace Sys2Proof.Machine

open Sys2Proof

/-! ## What a reset leaves (18, Table: What survives each rung; R221, R263, R460, R505, R554, R602, R644, R683, R863, R896, R907) -/

/-- A start that finds the old map in SPI NOR takes the change as pending again (R813). -/
def settleSpares (l : Recovery) : Tab SpareState :=
  l.spares.updAll (fun c x =>
    if (x.state = 3 ∨ x.state = 5) ∧ l.spiSpares.look c ≠ some x then
      { x with state := if x.state = 3 then 2 else 4, mapped := (l.spiSpares.val c {}).mapped }
    else x)

/-- The device as a warm device reset or a PERST# reset leaves it: every register at its reset value but what the two keep. -/
def resetDevice (s : State) : State :=
  let z := State.reset
  { z with
    pending := s.pending
    out := s.out
    fresh := s.fresh
    ident := { s.ident with fwVersion := 0 }
    pins := s.pins
    clk := { z.clk with cycle := s.clk.cycle, sub := s.clk.sub, tick := s.clk.tick, startTick := s.clk.tick }
    pwr := { z.pwr with
      energy := s.pwr.energy
      checkTick := s.clk.tick
      partResets := s.pwr.partResets
      cpRestarts := s.pwr.cpRestarts
      warmResets := s.pwr.warmResets
      killEscalations := s.pwr.killEscalations
      lastCause := s.pwr.lastCause
      lastUnit := s.pwr.lastUnit
      lastIndex := s.pwr.lastIndex
      rails := s.pwr.rails
      railsLate := s.pwr.railsLate
      temps := s.pwr.temps
      tempMax := s.pwr.tempMax
      alerts := s.pwr.alerts
      alertOwed := s.pwr.alertOwed
      tripped := s.pwr.tripped
      auditMonths := s.pwr.auditMonths
      auditFails := s.pwr.auditFails
      lastBook := s.pwr.lastBook }
    ladder := { z.ladder with
      log := s.ladder.log
      logSeq := s.ladder.logSeq
      dump := s.ladder.dump
      spares := settleSpares s.ladder
      spiSpares := s.ladder.spiSpares }
    mem := { z.mem with stack := s.mem.stack, poison := s.mem.poison }
    health := s.health
    mail := { z.mail with lockout := s.mail.lockout }
    sec := { z.sec with
      ownerKey := s.sec.ownerKey
      epoch := s.sec.epoch
      since := s.sec.since
      mgmt := s.sec.mgmt
      activeFw := s.sec.activeFw
      fw := s.sec.fw
      raiseDue := s.sec.raiseDue
      packages := s.sec.packages
      eid := s.sec.eid
      pkgDigests := s.sec.pkgDigests }
    start := { z.start with pendingActive := s.start.pendingActive }
    dbg := { z.dbg with ring := s.dbg.ring } }

/-- A PERST# reset begins (R907, R924): everything stops. -/
def perstReset (s : State) : State :=
  let r := resetDevice s
  { r with pwr := { r.pwr with temps := [], tempMax := 0, alerts := [], alertOwed := false } }

/-- Times kept across a PERST# reset count from its release on (R659). -/
def rebase (s : State) : State :=
  let t := s.clk.tick
  { s with
    clk := { s.clk with tick := 0, sub := 0, startTick := 0, readyTick := 0 }
    pwr := { s.pwr with checkTick := 0 }
    health := s.health.updAll (fun _ h => { h with periodEnd := h.periodEnd - t, nextTest := h.nextTest - t })
    sec := { s.sec with mgmt := s.sec.mgmt.map (fun m => { m with lastTick := m.lastTick - t }) } }

/-- The power-on start begins (R684), unless TEST_MODE keeps the device in ROM boot (R912). -/
def beginPowerOnStart (s : State) : State :=
  (rebase s).setStart (fun x => { x with running := true, stage := 0, warm := false })

/-- PERST# is released: the straps are sampled (R910), and with PWRGD asserted the power-on start begins,
unless THERMTRIP# has stopped the clocks (R915). `straps`: X8, SMBADDR, ENROLL, TEST_MODE. -/
def execPerstRelease (pwrgd : Bool) (straps : BitVec 6) (s : State) : Host.Outcome State Fault Refusal :=
  if !s.pins.aon ∨ !(s.pins.perst ∨ !s.pins.pwrgd) then .next s
  else
    let n := straps.toNat
    let s1 := { s with pins := { s.pins with
      perst := !pwrgd, pwrgd := pwrgd, x8 := bit n 0, smbAddr := BitVec.ofNat 3 (bits n 3 1), enroll := bit n 4, testMode := bit n 5 } }
    .next (if pwrgd ∧ !s.pins.refclkLost ∧ !s.pins.thermtrip then beginPowerOnStart s1 else s1)

def execPerstAssert (s : State) : Host.Outcome State Fault Refusal :=
  .next (if !s.pins.aon ∨ s.pins.perst then s else { (perstReset s) with pins := { s.pins with perst := true } })

/-- PWRGD goes: THERMTRIP# is released (R915), and a PERST# reset begins unless one is in progress (R920). -/
def execPwrgdDeassert (s : State) : Host.Outcome State Fault Refusal :=
  if !s.pins.aon then .next s
  else
    let p := { s.pins with pwrgd := false, thermtrip := false }
    .next (if s.pins.perst ∨ !s.pins.pwrgd then { s with pins := p } else { (perstReset s) with pins := p })

/-- REFCLK is lost (R923): the reset that begins is held until it has returned. -/
def execRefclkLost (s : State) : Host.Outcome State Fault Refusal :=
  if !s.pins.aon ∨ s.pins.refclkLost then .next s
  else
    let s1 := perstReset s
    .next { s1 with pins := { s.pins with refclkLost := true }, pwr := { s1.pwr with rails := s1.pwr.rails ||| 0x100#9 } }

def execRefclkReturn (s : State) : Host.Outcome State Fault Refusal :=
  if !s.pins.refclkLost then .next s
  else
    let s1 := { s with pins := { s.pins with refclkLost := false } }
    .next (if s.pins.perst ∨ !s.pins.pwrgd ∨ s.pins.thermtrip then s1 else beginPowerOnStart s1)

/-- What a power cycle keeps of a tile's health: Quarantined and retired tiles, and mapped spares (R767, R768). -/
def keptHealth (t : Tab Health) : Tab Health :=
  (t.filter (fun e => decide (e.2.state = 2 ∨ e.2.state = 4 ∨ (e.1 % 17 = 16 ∧ e.2.state = 0)))).map (fun e => (e.1, { state := e.2.state }))

/-- VDD_AON is removed: what fuses and SPI NOR hold remains (R767, R768, R815, R864, R941). -/
def execPowerCycle (s : State) : Host.Outcome State Fault Refusal :=
  let z := State.reset
  .next { z with
    pending := s.pending
    out := s.out
    fresh := s.fresh
    ident := { s.ident with fwVersion := 0, fusesRead := false }
    pins := { z.pins with aon := false }
    ladder := { z.ladder with spares := settleSpares s.ladder, spiSpares := s.ladder.spiSpares }
    health := keptHealth s.health
    sec := { z.sec with
      ownerKey := s.sec.ownerKey, epoch := s.sec.epoch, activeFw := s.sec.activeFw, fw := s.sec.fw, packages := s.sec.packages
      raiseDue := s.sec.raiseDue }
    start := { z.start with pendingActive := s.start.pendingActive } }

/-- VDD_AON comes into tolerance. -/
def execPowerOn (s : State) : Host.Outcome State Fault Refusal :=
  .next (if s.pins.aon then s else { s with pins := { s.pins with aon := true } })

/-! ## The start sequence (R684-R695, R701-R703, R718-R725) -/

/-- ROM boot ends: fuses read, the management channel answers. -/
def execRomBootEnd (s : State) : Host.Outcome State Fault Refusal :=
  .next (if !s.start.running ∨ s.start.romDone ∨ s.pins.testMode then s
    else { s with start := { s.start with romDone := true, stage := 1 }, ident := { s.ident with fusesRead := true } })

/-- The image of a slot verifies and may boot on this part (R850). -/
def State.boots (s : State) (img : FwFacts) (k : Nat) : Bool :=
  let f := s.sec.fw.val k {}
  (if k = 0 then img.ok0 else img.ok1) && f.present && decide (s.ident.minSvn ≤ f.svn ∧ f.level = s.ident.level)

/-- Firmware verification ends: the slot to try first, else the other, else the Failed stage (R718, R719, R720). The CPs start. -/
def execFwVerified (img : FwFacts) (s : State) : Host.Outcome State Fault Refusal :=
  if !s.start.running ∨ s.start.stage ≠ 1 then .next s
  else
    let a := s.start.pendingActive.getD s.sec.activeFw
    let k := if s.boots img a then some a else if s.boots img (1 - a) then some (1 - a) else none
    match k with
    | none => .next (s.setStart (fun x => { x with stage := 7, fail := 1, running := false, recoveryCfg := true, pendingActive := none }))
    | some k =>
      let s := if s.start.pendingActive.isSome ∨ k ≠ s.sec.activeFw then remeasure 3 (remeasure 2 s) else s
      .next { s with
        start := { s.start with stage := 2, fwSlot := k }
        ident := { s.ident with fwVersion := (s.sec.fw.val k {}).version }
        hl := { s.hl with state := 2 }
        pwr := { s.pwr with cpClock := true, domains := baseDomains, checkTick := s.clk.tick } }

/-- The configuration space is loaded (R694, R695). -/
def execConfigurationReady (s : State) : Host.Outcome State Fault Refusal :=
  .next (if s.start.stage = 7 ∨ (2 ≤ s.start.stage ∧ !s.pins.perst) then s.setStart (fun x => { x with cfgReady := true }) else s)

/-- The column of a place in the power-up order (R685). -/
def powerOrder (n : Nat) : Nat := 24 * (n % 2) + n / 2

/-- Power the next column (R685): its pending spare change first (R789); a retired column stays Dark. -/
def execColumnPowerUp (s : State) : Host.Outcome State Fault Refusal :=
  let n := s.start.nextCol
  let spring := decide (s.pwr.state = 1 ∧ s.start.stage = 6)
  let starting := s.start.running && (s.start.romDone || s.start.warm) && decide (s.start.stage ≠ 7)
  if 48 ≤ n ∨ !(spring || starting) ∨ (0 < n ∧ s.clk.tick < s.start.colTick + 2000) then .next s
  else
    let c := powerOrder n
    let s1 := (if starting then applySpares [c] s else s).setStart (fun x => { x with nextCol := n + 1, colTick := s.clk.tick })
    .next (if s1.colRetired c then s1
      else s1.setPwr (fun p => { p with cols := p.cols.put c 1, colSince := p.colSince.put c s.clk.cycle, domains := p.domains ++ [.column c] }))

/-- The stack to train next (R686). -/
def State.stackNext (s : State) : Option Nat := s.stackList.find? (fun k => decide (s.start.nextStack ≤ k))

/-- A stack's training ends: once it fails it is retried, twice it is marked failed with its channels (R504, R686, R724). -/
def execStackTraining (ok : Bool) (s : State) : Host.Outcome State Fault Refusal :=
  match s.stackNext with
  | none => .next s
  | some k =>
    if !s.start.running ∨ s.start.stage < 2 ∨ 3 < s.start.stage then .next s
    else
      let s0 := s.setStart (fun x => { x with stage := 3 })
      let s1 :=
        if ok then (s0.setStart (fun x => { x with nextStack := k + 1, stackTries := 0 })).setPwr (fun p => { p with domains := p.domains ++ [.stack k] })
        else if s.start.stackTries = 0 then s0.setStart (fun x => { x with stackTries := 1 })
        else
          let t := s0.setStart (fun x => { x with nextStack := k + 1, stackTries := 0, stacksFailed := x.stacksFailed ++ [k] })
          logEvent { kind := 0x12, severity := 2, unit := 8, index := 16 * k, data := 3 }
            (t.setMem (fun m => { m with failed := m.failed ++ (List.range 16).map (fun c => 16 * k + c) }))
      .next (if s1.stackNext.isSome then s1
        else if s1.start.warm then s1.setStart (fun x => { x with stage := 5, stacksDone := true })
        else s1.setStart (fun x => { x with stage := 4 }))

/-- Every granule of every trained stack is written with zero (R687). -/
def execStackInitialisation (s : State) : Host.Outcome State Fault Refusal :=
  if !s.start.running ∨ s.start.warm ∨ s.start.stacksDone ∨ s.stackNext.isSome ∨ s.start.stage < 2 then .next s
  else
    let keep (dpa : Nat) : Bool := match placeOf dpa with | .stack c => s.start.stacksFailed.contains (c / 16) | _ => false
    let s1 := s.setMem (fun m => { m with stack := m.stack.filter (fun e => keep e.1), poison := m.poison.keep (fun g _ => keep (64 * g)) })
    .next (s1.setStart (fun x => { x with stage := 5, stacksDone := true }))

/-- The columns that are not powered and have not failed or been retired. -/
def State.colsLeft (s : State) : List Nat :=
  (List.range 48).filter (fun c => !s.colRetired c && !s.start.failedCols.contains c && decide (s.pwr.cols.val c 0 ≠ 2))

/-- The conditions of R688 as far as the state shows them. -/
def State.mayBeReady (s : State) : Bool :=
  s.start.running && decide (2 ≤ s.start.stage ∧ s.start.stage ≤ 5) && s.start.cfgReady && decide (s.hl.state = 2)
    && s.colsLeft.isEmpty && s.stackNext.isNone && (s.start.warm || s.start.stacksDone) && !s.cpsOut && s.pwr.domains.contains .qfe

/-- The slot that a start to readiness makes active, with its minimum SVN (R852). An image of a level raise waits for the warm start that raises the
level (R902, R919). -/
def activate (s : State) : State :=
  match s.start.pendingActive with
  | none => s
  | some k =>
    if s.sec.raiseDue then s else
    let s1 := s.setStart (fun x => { x with pendingActive := none })
    if s.start.fwSlot ≠ k then s1
    else { s1 with sec := { s1.sec with activeFw := k }, ident := { s1.ident with minSvn := max s1.ident.minSvn (s1.sec.fw.val k {}).minSvn } }

/-- Readiness (R690, R691, R725, R913, R921, R922, R933). -/
def execReadiness (s : State) : Host.Outcome State Fault Refusal :=
  if !s.mayBeReady then .next s
  else
    let s1 := { s with
      pwr := { s.pwr with ready := true, state := 2 }
      start := { s.start with stage := 6, running := false, readyMs := sat 16 ((s.clk.tick - s.clk.startTick) / 1000) }
      clk := { s.clk with monthsOn := true, months := 0, phase := 0, readyTick := s.clk.tick }
      ports := s.ports.updAll (fun _ x => { x with slot := 0 }) }
    let s2 := forEach s1.start.failedCols (noticePower (activate s1)) (fun s c => noticeHealth (colName c) 7 s)
    let s3 := forEach s2.start.stacksFailed s2 (fun s k => noticeHealth (0x8000 + 16 * k) 0xA s)
    let s4 := if s3.pwr.railsLate then
        logEvent { kind := 0x0B, severity := 3, unit := 0xD, data := s3.pwr.rails.toNat } (s3.setPwr (fun p => { p with railsLate := false }))
      else s3
    let s5 := if s4.pwr.alertOwed then noticeHealth 0xFFFF 0xB (s4.setPwr (fun p => { p with alertOwed := false })) else s4
    .next (audit s5)

/-- A start cannot finish (R719): 2 a CP failed to start, 3 the Half Link did not come up in 3 attempts, 4 a host-die power domain failed. -/
def execStartFailed (cause : Nat) (s : State) : Host.Outcome State Fault Refusal :=
  .next (if !s.start.running ∨ s.start.stage < 1 ∨ cause < 2 ∨ 4 < cause then s
    else
      let s1 := if cause = 3 then s.setHl (fun h => { h with state := 0, tries := 3 }) else s
      s1.setStart (fun x => { x with stage := 7, fail := cause, running := false, pendingActive := none }))

/-- The present ports that FAB_PORT has not disabled enter Listen. -/
def portsListen (s : State) : State :=
  forEach s.portList s (fun s p =>
    let x := s.port p
    if x.disabled ∨ x.state ≠ portOff then s
    else (s.setPort p { x with state := portListen }).setPwr (fun w => { w with domains := if w.domains.contains (.fabric p) then w.domains else w.domains ++ [.fabric p] }))

/-- 100 ms after the start of the sequence the ports enter Listen (R706). -/
def execListenStart (s : State) : Host.Outcome State Fault Refusal :=
  .next (if s.start.listening ∨ s.clk.tick < s.clk.startTick + 100000 ∨ !(s.start.running || decide (s.start.stage = 6)) ∨ s.start.stage = 0 then s
    else portsListen (s.setStart (fun x => { x with listening := true })))

/-- The identifiers that R188 gives, by configuration offset. -/
def cfgIds (f off : Nat) : Option Nat :=
  if off = 0 then some (0x1E6B + 65536 * (if f = 512 then 0x4800 else 0x4801))
  else if off = 0x2C then some 0x1E6B
  else none

/-- A configuration request (R188, R694, R696): CRS before the configuration space is loaded; what the space holds beyond the identifiers of R188 is
free. -/
def execConfigRequest (f off : Nat) (s : State) : Host.Outcome State Fault Refusal :=
  if s.pins.perst ∨ !s.start.cfgReady ∨ s.noFn f then .next { s with out := { s.out with crs := !s.start.cfgReady, read := 0xFFFF0001#64 } }
  else
    let v := (cfgIds f off).getD (if off = 8 then 0x12000000 + s.free % 256 else s.free % 2 ^ 32)
    .next { (s.took 1) with out := { s.out with crs := false, read := BitVec.ofNat 64 v }, cfg := { s.cfg with linkUp := true } }

/-- The PCIe link goes down or takes a hot reset (R714): its configuration space is reset, with CRS until it is loaded again while a start is in
progress. -/
def execPcieLinkDown (s : State) : Host.Outcome State Fault Refusal :=
  let s1 := if s.cfg.vfEnable then removeVfs s else s
  let s2 := { s1 with
    cfg := {}
    start := { s1.start with cfgReady := s1.start.cfgReady && !s1.start.running }
    fns := s1.fns.updAll (fun _ x => x.configReset) }
  .next (intcBoth 64 (endSessions s2))

/-! ## The warm start (R799, R800, R902) -/

/-- The flush phase ends: records that found no room are discarded, the dump is taken, and the warm start begins. -/
def execFlushPhaseEnd (s : State) : Host.Outcome State Fault Refusal :=
  match s.ladder.flush with
  | none => .next s
  | some t =>
    if s.outbox ≠ [] ∧ s.clk.tick < t + 10000 then .next s
    else
      let s0 := s.setRec (fun r => { r with capture := none })
      let s1 := if s.ladder.flushDump then endCapture (beginCapture 4 0xFFF none s0) else s0
      let r := resetDevice s1
      let lift := s.sec.raiseDue
      .next { r with
        clk := { r.clk with startTick := t }
        ident := { r.ident with level := if lift then r.ident.level + 1 else r.ident.level }
        sec := { r.sec with raiseDue := false }
        start := { r.start with running := true, warm := true, romDone := true, stage := 1 } }

/-! ## Winter and Spring (R645-R658, R674) -/

/-- Nothing is owed to or by a domain that Winter switches off (R650, the quiet condition). -/
def State.quiet (s : State) : Bool :=
  s.jobs.isEmpty && s.loads.isEmpty && s.mem.xfers.isEmpty && s.hl.reqs.isEmpty && s.hl.resps.isEmpty && s.hl.waiting.isEmpty
    && s.preqs.isEmpty && s.fslots.isEmpty && s.tiles.all (fun e => e.2.arrivals.isEmpty)
    && (s.outbox.isEmpty || decide (s.pwr.winterDrain ≤ s.clk.tick))
    && s.parts.all (fun e => !e.2.resetting && e.2.resetDue.isNone && !e.2.destroying)
    && s.solvers.all (fun v => v.2.ctxs.isEmpty)

/-- Records that wait for CQ room are discarded and counted (R651). -/
def dropRecordsCounted (s : State) : State :=
  let s1 := forEach s.outbox s (fun s r => s.modQp r.qp (fun q => { q with acct := { q.acct with discarded := sat 32 (q.acct.discarded + 1) } }))
  dropPkts ((s.outbox.filter (·.fin)).map (·.pkt)) { s1 with outbox := [] }

/-- The wake sources that Winter arms; it disarms the others (R654). -/
def wakeArmed (v : Variant) (n : Nat) : Bool :=
  decide (n = 64 ∨ n = 65 ∨ (66 ≤ n ∧ n ≤ 70) ∨ (71 ≤ n ∧ n ≤ 86)) || (decide (88 ≤ n ∧ n ≤ 99) && v.hasPort (n - 88))

/-- Arm the wake latches of one interrupt controller. -/
def armWakes (v : Variant) (c : Intc) : Intc :=
  let base := (List.range 64).foldl (fun t i => if wakeArmed v (64 + i) then t.put (srcKey 0 (64 + i)) (t.val (srcKey 0 (64 + i)) {}) else t) c.srcs
  { c with
    latch := []
    srcs := base.updAll (fun k x => { x with wake := wakeArmed v (srcNum k) && decide (128 ≤ k), enable := x.enable || (wakeArmed v (srcNum k) && decide (128 ≤ k)) }) }

/-- The device enters Winter: what Winter loses goes (R653), the Almanac is left first (R530), and the operation ends (R650). -/
def execWinterEntry (s : State) : Host.Outcome State Fault Refusal :=
  if s.pwr.state ≠ 3 ∨ !s.quiet ∨ s.pins.perst then .next s
  else if s.alm.belongs then .next (if s.alm.leaveAt then s else leaveStart s)
  else
    let s0 := dropRecordsCounted s
    let s1 := forEach s0.parts.keys s0 (fun s p => if (s.parts.val p {}).season.isSome then removeSeason p s else s)
    let s2 := { s1 with pwr := { s1.pwr with state := 0 } }
    let s3 := noticePower (endOpOf (s.pwr.winterOp.map (·.1)) 0 0 s2)
    let v := s.ident.variant
    let s4 := { s3 with
      seqs := s3.seqs.updAll (fun _ x => { reuse := x.reuse })
      solvers := s3.solvers.updAll (fun _ z => { z with skels := z.skels.updAll (fun _ k => { reuse := k.reuse }), ctxs := [], busy := [] })
      tiles := s3.tiles.updAll (fun _ x => { power := 2, trace := x.trace, traceQ := x.traceQ })
      ports := s3.ports.updAll (fun _ x => { disabled := x.disabled, ce := x.ce, ue := x.ue, silent := x.silent, discard := x.discard })
      parts := s3.parts.updAll (fun _ q => { q with drain := none, draining := false })
      mem := { s3.mem with watches := [] }
      hl := { s3.hl with state := 0, ttAvail := [], ctlAvail := [] }
      clk := { s3.clk with monthsOn := false }
      start := { s3.start with listening := false, nextCol := 0 }
      intcs := [(0, armWakes v (s3.intc 0)), (1, armWakes v (s3.intc 1))]
      pwr := { s3.pwr with cols := [], domains := [], cpClock := false, winterOp := none } }
    .next (match s.pwr.wakeOwed with | some src => beginSpring src s4 | none => s4)

/-- The PCIe link leaves L1.2 (R655, R674). -/
def execL12Exit (s : State) : Host.Outcome State Fault Refusal := .next (beginSpring 0x3FF s)

/-- Spring ends (R655, R656): staged images are reinstalled, the ports listen, and the device is ready again. -/
def execSummerReached (facts : List (Nat × InstallFacts)) (s : State) : Host.Outcome State Fault Refusal :=
  if s.pwr.state ≠ 1 ∨ s.start.stage ≠ 6 ∨ !s.colsLeft.isEmpty ∨ s.start.nextCol < 48 then .next s
  else
    let s1 := forEach facts s (fun s f =>
      match s.parts.look f.1 with
      | none => s
      | some q =>
        match q.season, q.staged with
        | none, some m =>
          let x := seasonOf m f.2.ext f.2.plain
          if (s.seasonRefusal q m x (svcsOf m) f.2.sigOk).isNone ∧ f.2.tagsOk ∧ q.contentKey then
            noticePart f.1 (serviceChange ((svcsOf m).map (fun e => e.2.sid)) (installSeason f.1 x (svcsOf m) s))
          else s
        | _, _ => s)
    let s2 := { s1 with
      pwr := { s1.pwr with
        state := 2, ready := true
        domains := s1.pwr.domains ++ (s1.stackList.filter (fun k => !s1.start.stacksFailed.contains k)).map (fun k => .stack k) }
      start := { s1.start with running := false, listening := true } }
    let s3 := noticePower (portsListen s2)
    .next (if s3.pwr.alertOwed then noticeHealth 0xFFFF 0xB (s3.setPwr (fun p => { p with alertOwed := false })) else s3)

/-! ## Tile and column power under the wake schedule (R661-R671, R680) -/

/-- The wake-schedule entry that a running job has reached and not yet started (R661, R669); the tiles that are Awake at offset 0 begin to wake
with the held close of an Idle job, where no job runs on them (R666). -/
def State.wakeEntry (s : State) (job idx action : Nat) : Option (Job × Season × WakeEntry × Bool) :=
  match s.jobs.look job with
  | none => none
  | some b =>
    match s.parts.look b.part with
    | none => none
    | some q =>
      match q.season with
      | none => none
      | some x =>
        match x.wakes[idx]? with
        | none => none
        | some e =>
          let runs := decide (b.state = 2 ∧ q.runJob = some job ∧ e.offset ≤ b.offset)
          let soon := decide (b.state = 1 ∧ action = 1 ∧ e.offset = 0) && (b.readyIn.isSome || b.readyAt.isSome) && q.runJob.isNone
          if (runs || soon) ∧ q.hold.isNone ∧ !q.resetting ∧ e.action = action ∧ !b.wakeIdx.contains idx then
            some (b, x, e, decide (1 < q.svcs.length))
          else none

/-- The action of an entry is started. -/
def startedWake (job idx : Nat) (s : State) : State := s.modJob job (fun b => { b with wakeIdx := idx :: b.wakeIdx })

/-- GATE of one tile: deferred and counted while its task executes an instruction that does not wait (R662). -/
def gateTile (p : Nat) (s : State) : State :=
  let x := s.tile p
  if x.power ≠ 1 then s
  else if x.job.isSome ∧ x.run = 0 then
    (s.setTile p { x with gateDue := true }).setPwr (fun w => { w with gateDeferred := sat 16 (w.gateDeferred + 1) })
  else s.setTile p { x with power := 0, ucWoken := none, gateDue := false }

def execWake (job idx : Nat) (s : State) : Host.Outcome State Fault Refusal :=
  match s.wakeEntry job idx 1 with
  | none => .next s
  | some (_, _, e, _) =>
    match logOfName e.tile with
    | none => .next s
    | some i => .next ((startedWake job idx s).modTile (s.physOf i) (fun x => if x.power = 2 then x else { x with power := 1, ucWoken := none, waking := false, gateDue := false }))

def execGate (job idx : Nat) (s : State) : Host.Outcome State Fault Refusal :=
  match s.wakeEntry job idx 2 with
  | none => .next s
  | some (_, _, e, _) =>
    match logOfName e.tile with
    | none => .next s
    | some i => .next (gateTile (s.physOf i) (startedWake job idx s))

/-- The column that a wake-schedule entry names. -/
def WakeEntry.col (e : WakeEntry) : Nat := 24 * (e.tile / 1024 % 2) + e.tile / 32 % 32

/-- COLUMN_ON (R661): nothing for a Season of several job entries (R667) or a column left powered (R671). -/
def execColumnOn (job idx : Nat) (s : State) : Host.Outcome State Fault Refusal :=
  match s.wakeEntry job idx 3 with
  | none => .next s
  | some (_, _, e, many) =>
    let s1 := startedWake job idx s
    let c := e.col
    if many ∨ s.pwr.cols.val c 0 = 1 ∨ s.pwr.cols.val c 0 = 2 then .next s1
    else if s.pwr.cols.val c 0 = 3 then .next (dueReset c (s1.setPwr (fun p => { p with cols := p.cols.put c 2, colSince := p.colSince.del c })))
    else .next (s1.setPwr (fun p => { p with cols := p.cols.put c 1, colSince := p.colSince.put c s.clk.cycle, domains := p.domains ++ [.column c] }))

/-- COLUMN_OFF (R661): a GATE of the column's tiles for a Season of several job entries (R667). -/
def execColumnOff (job idx : Nat) (s : State) : Host.Outcome State Fault Refusal :=
  match s.wakeEntry job idx 4 with
  | none => .next s
  | some (_, _, e, many) =>
    let c := e.col
    let s1 := forEach ((List.range 17).map (fun y => 17 * c + y)) (startedWake job idx s) (fun s p => gateTile p s)
    .next (if many ∨ s.pwr.cols.val c 0 ≠ 2 then s1 else s1.setPwr (fun p => { p with cols := p.cols.put c 3, colSince := p.colSince.put c s.clk.cycle }))

/-- A column reports power-good: its tiles are Dormant with cleared stores (R363, R661). -/
def execColumnPowerGood (col : Nat) (s : State) : Host.Outcome State Fault Refusal :=
  if s.pwr.cols.val col 0 ≠ 1 ∨ 48 ≤ col then .next s
  else
    let s1 := forEach ((List.range 17).map (fun y => 17 * col + y)) s (fun s p =>
      s.modTile p (fun x => { (x.reset true) with trace := x.trace }))
    .next (dueReset col (intcHalf (col / 24) 262 (s1.setPwr (fun p => { p with cols := p.cols.put col 2, colSince := p.colSince.del col }))))

/-- No power-good within 60,000 grid cycles: at run time the jobs of the partition end and the column is to be retired (R680, R788); in a start it is left
Dark (R723); in Spring it is a warm device reset (R682). -/
def execColumnPowerGoodTimeout (col : Nat) (s : State) : Host.Outcome State Fault Refusal :=
  if s.pwr.cols.val col 0 ≠ 1 ∨ s.clk.cycle < s.pwr.colSince.val col 0 + 60000 then .next s
  else
    let s1 := s.setPwr (fun p => { p with cols := p.cols.put col 0, colSince := p.colSince.del col, domains := p.domains.filter (fun d => !decide (d = PowerDomain.column col)) })
    let s2 := logEvent { kind := 8, severity := 2, unit := 0xD, part := (s.partOfCol col).getD 255, index := colName col } s1
    if s.start.running then .next (s2.setStart (fun x => { x with failedCols := x.failedCols ++ [col] }))
    else if s.pwr.state = 1 then .next (beginWarm 8 0xD col s2)
    else
      let s3 := noticeHealth (colName col) 7 (s2.setRec (fun r => { r with spares := r.spares.put col { (s2.spare col) with state := if (s2.spare col).state = 5 then 5 else 4 } }))
      .next (match s.partOfCol col with
        | some p => dueReset col (forEach (s3.jobsOf p) s3 (fun s j => beginKill j stJobLost 2 s))
        | none => s3)

/-- Nothing is outstanding of a column's tiles (the quiet condition). -/
def State.colQuiet (s : State) (c : Nat) : Bool :=
  !s.mem.xfers.any (fun e => match e.2.tile with | some i => decide (i / 16 = c) | none => false)
    && !s.hl.reqs.any (fun e => decide (colOf e.2.tile = c))
    && s.tiles.all (fun e => colOf e.1 != c || (e.2.arrivals.isEmpty && e.2.watch.isNone && decide (e.2.power ≠ 1 ∧ e.2.posted = 0)))

/-- A COLUMN_OFF has not become quiet within 4,096 grid cycles (R671). -/
def execQuietLate (col : Nat) (s : State) : Host.Outcome State Fault Refusal :=
  if s.pwr.cols.val col 0 ≠ 3 ∨ s.clk.cycle < s.pwr.colSince.val col 0 + 4096 then .next s
  else
    let s1 := s.setPwr (fun p => { p with cols := p.cols.put col 2, colSince := p.colSince.del col, quietLate := sat 16 (p.quietLate + 1) })
    .next (dueReset col (match s.partOfCol col with
      | some p => (match (s.parts.val p {}).runJob with | some j => s1.modJob j (fun b => { b with lateCols := col :: b.lateCols }) | none => s1)
      | none => s1))

/-- A power domain is quiet and is switched off (R670), or fails to go down (R681). -/
def execPowerDomainOff (d : PowerDomain) (ok : Bool) (s : State) : Host.Outcome State Fault Refusal :=
  if !s.pwr.domains.contains d then .next s
  else
    let off (s : State) : State := s.setPwr (fun p => { p with domains := p.domains.filter (fun e => !decide (e = d)) })
    match d with
    | .column c =>
      if s.pwr.cols.val c 0 ≠ 3 ∨ !s.colQuiet c then .next s
      else
        let s1 := { s with tiles := s.tiles.updAll (fun k x => if colOf k = c then { power := 2, trace := x.trace, traceQ := x.traceQ } else x) }
        .next (dueReset c (intcHalf (c / 24) 262 ((off s1).setPwr (fun p => { p with cols := p.cols.put c 0, colSince := p.colSince.del c }))))
    | .stack k =>
      if s.parts.any (fun e => e.2.chans.any (fun c => decide (c / 16 = k))) then .next s
      else if !ok then .next (hang 0xD k 0 s)
      else .next (intcHalf (k / 4) 262 (off s))
    | .fabric p =>
      if !(s.port p).disabled then .next s
      else .next (intcHalf 1 262 (intcHalf 0 262 (off s)))
    | _ => if !ok ∧ s.pwr.state = 3 ∧ s.quiet then .next (hang 0xD 0 0 s) else .next s

/-! ## Temperatures and rails (R673, R914, R915, R921, R922) -/

/-- Alert and trip temperatures of a die (Table: Thermal limits). -/
def alertTemp (die : Nat) : Nat := if 8 ≤ die then 95 else 100
def tripTemp (die : Nat) : Nat := if 8 ≤ die then 105 else 115

/-- A die's temperature is measured. -/
def measured (die temp : Nat) (s : State) : State :=
  s.setPwr (fun p =>
    let t := p.temps.put die temp
    { p with temps := t, tempMax := max p.tempMax (t.foldl (fun m e => max m e.2) 0) })

def execThermalAlert (die temp : Nat) (s : State) : Host.Outcome State Fault Refusal :=
  if temp < alertTemp die ∨ !s.pins.aon then .next s
  else
    let new := !s.pwr.alerts.contains die
    let s1 := (measured die temp s).setPwr (fun p => { p with alerts := if new then die :: p.alerts else p.alerts })
    let s2 := intcBothLevel 87 true s1
    .next (if !new then s2 else if s.pwr.state = 0 then s2.setPwr (fun p => { p with alertOwed := true }) else noticeHealth 0xFFFF 0xB s2)

def execThermalAlertEnd (die temp : Nat) (s : State) : Host.Outcome State Fault Refusal :=
  if alertTemp die ≤ temp ∨ !s.pwr.alerts.contains die then .next s
  else
    let s1 := (measured die temp s).setPwr (fun p => { p with alerts := p.alerts.filter (· != die) })
    .next (if s1.pwr.alerts = [] then intcBothLevel 87 false s1 else s1)

/-- A die reaches its trip temperature: every clock but the always-on domain's stops. -/
def execThermalTrip (die temp : Nat) (s : State) : Host.Outcome State Fault Refusal :=
  if temp < tripTemp die ∨ !s.pins.aon then .next s
  else
    let s1 := (measured die temp s).setPwr (fun p => { p with tripped := true, cpClock := false, alerts := if p.alerts.contains die then p.alerts else die :: p.alerts })
    .next { s1 with pins := { s1.pins with thermtrip := true }, clk := { s1.clk with monthsOn := false } }

/-- ALERT# is asserted (R914). -/
def State.alertPin (s : State) : Bool := s.pwr.alerts != [] || s.pwr.rails != 0 || s.start.stage == 7

/-- A rail leaves its tolerance (R922): in Summer a hang, otherwise logged at the next readiness. -/
def execRailExcursion (rail : Nat) (s : State) : Host.Outcome State Fault Refusal :=
  if 8 ≤ rail ∨ !s.pins.pwrgd ∨ !s.pins.aon then .next s
  else
    let s1 := s.setPwr (fun p => { p with rails := p.rails ||| (1#9 <<< rail) })
    .next (if s.pwr.state = 2 then hang 0x0D rail 0 s1 else s1.setPwr (fun p => { p with railsLate := true }))

/-! ## Regulators (R300, R302, R313) -/

/-- A calendar tick adds a tick's tokens to a regulator: RATE_MBPS bytes, up to the burst. -/
def execRegulatorRefill (part res : Nat) (s : State) : Host.Outcome State Fault Refusal :=
  .next (s.modPart part (fun q => { q with regs := q.regs.upd res (fun r => if r.rate = 0 then r else { r with bucket := min (r.burst * 1024) (r.bucket + r.rate) }) }))

end Sys2Proof.Machine
end

