-- ==== Sys2Proof/Machine/CmdDev.lean ====
section
/-! DEFINITION. The device, VF and queue commands of the command set (06_mailboxes_and_commands.md, Tables: Device commands, VF and resource
commands, Queue commands). -/

namespace Sys2Proof.Machine

open Sys2Proof

/-- A field lies outside its range. -/
def outside (r : Bytes) (off n lo hi : Nat) : Nat × Bool := (off, decide (fld r off n < lo ∨ hi < fld r off n))

/-- A FLAGS byte of the expert form: its reserved bits. -/
def flagBad (r : Bytes) (off mask : Nat) : Nat × Bool := (off, expert r && fld r off 1 &&& (255 - mask) != 0)

/-- A FLAGS bit of the expert form. -/
def flagOf (r : Bytes) (off i : Nat) : Bool := expert r && bit (fld r off 1) i

/-- The function that a command on a mailbox speaks for (R224, R268): the PF for the management host. -/
def issuer (m : Mbox) : Nat := (Mbox.fn m).getD 512

/-- A guest's mailbox whose VF is Unsized (R206). -/
def State.unsized (s : State) (m : Mbox) : Bool := match m with | .vf v => decide ((s.fn v).state = 1) | _ => false

/-! ## Device commands (0x01xx) -/

/-- IDENTIFY (R48, R703, R897). -/
def execIdentify (mb : Mbox) (s : State) : Host.Outcome State Fault Refusal :=
  .next (runCmd 0x0101 mb s (fun _ _ => { run := fun _ s =>
    (s, match mb with
      | .vf v => pack [(4, 0x00020201), (2, v), (2, (s.fn v).gen.toNat)]
      | _ => pack [(8, s.likeness), (8, s.ident.serial.toNat), (4, s.ident.fwVersion.toNat), (4, s.ident.romVersion.toNat)]) }))

/-- STATUS (R705). -/
def execStatus (mb : Mbox) (s : State) : Host.Outcome State Fault Refusal :=
  .next (runCmd 0x0102 mb s (fun _ _ => { run := fun _ s =>
    (s, pack [(1, if s.start.stage = 7 then 2 else b2n s.pwr.ready), (1, s.pwr.state), (1, s.parts.length), (1, s.jobs.length), (4, s.clk.months)]) }))

/-- DEVICE_RESET (R251): the warm device reset begins 1,000 calendar ticks after the response. -/
def execDeviceReset (mb : Mbox) (s : State) : Host.Outcome State Fault Refusal :=
  .next (runCmd 0x0103 mb s (fun r _ =>
    { bad := [flagBad r 0x10 1]
      needs := some [.whole]
      run := fun _ s => (s.setRec (fun x =>
        if x.resetDue.isSome then x else { x with resetDue := some (s.clk.tick + 1000), flushDump := !flagOf r 0x10 0 }), []) }))

/-- DRAIN_MS of POWER_STATE. -/
def drainMs (r : Bytes) : Nat := if expert r then fld r 0x14 4 else 1000

/-- The device enters Autumn (R645, R647, R913): every load ends with BAD_STATE, every partition drains. -/
def beginAutumn (ms op : Nat) (m : Mbox) (s : State) : State :=
  let s1 := s.setPwr (fun p => { p with state := 3, ready := false, winterOp := some (op, m), winterDrain := s.clk.tick + 1000 * ms })
  let s2 := forEach s1.loads (noticePower s1) (fun s e => endOp e.2.op rcState 0 (abandonLoad e.1 s))
  forEach s2.parts.keys s2 (fun s p => beginDrain p ms 0 s)

/-- What POWER_STATE checks and does (R645, R646, R675, R893). -/
def powerPlan (m : Mbox) (r : Bytes) (s : State) : Plan :=
  let winter := fld r 0x10 1 == 0
  { bad := [(0x10, fld r 0x10 1 != 0 && fld r 0x10 1 != 2), (0x11, expert r && fld r 0x11 3 != 0), (0x14, decide (drainMs r < 1 ∨ 60000 < drainMs r))]
    state := decide (s.pwr.state ≠ 2) || (winter && s.parts.any (fun p => p.2.stop.state != 0))
    needs := some (if winter then [.whole] else [])
    quick := !winter
    run := fun op s => (if winter then beginAutumn (drainMs r) op m s else s, []) }

/-- POWER_STATE with TARGET Summer is the other row's; this one takes Winter and every reserved TARGET. -/
def execPowerStateWinter (mb : Mbox) (s : State) : Host.Outcome State Fault Refusal :=
  .next (if fld (s.requestOf 0x0104 mb) 0x10 1 = 2 then s else runCmd 0x0104 mb s (powerPlan mb))

def execPowerStateSummer (mb : Mbox) (s : State) : Host.Outcome State Fault Refusal :=
  .next (if fld (s.requestOf 0x0104 mb) 0x10 1 = 2 then runCmd 0x0104 mb s (powerPlan mb) else s)

/-- OPERATION_STATUS (R241). -/
def execOperationStatus (mb : Mbox) (s : State) : Host.Outcome State Fault Refusal :=
  .next (runCmd 0x0105 mb s (fun r _ => { run := fun _ s =>
    (s, match s.opRec (fld r 0x10 2) with
      | none => pack [(2, 0), (2, 0), (2, 0)]
      | some o => if o.done then pack [(2, 2), (2, o.rc), (2, o.detail)] else pack [(2, 1), (2, 0), (2, 0)]) }))

/-- NOTICE_MASK (R246): the reserved bits of MASK must be 0 (R9). -/
def execNoticeMask (mb : Mbox) (s : State) : Host.Outcome State Fault Refusal :=
  .next (runCmd 0x0106 mb s (fun r _ =>
    { bad := [(0x10, fld r 0x10 4 % 2 != 0 || decide (8191 < fld r 0x10 4))]
      run := fun _ s => (s.setBox mb { s.box mb with mask := BitVec.ofNat 32 (fld r 0x10 4) }, le 4 (s.box mb).mask.toNat) }))

/-- TIME_READ (R658). -/
def execTimeRead (mb : Mbox) (s : State) : Host.Outcome State Fault Refusal :=
  .next (runCmd 0x0107 mb s (fun _ _ => { run := fun _ s => (s, pack [(8, s.clk.months), (8, s.clk.tick - s.clk.readyTick)]) }))

/-! ## VF and resource commands (0x02xx) -/

/-- SLICE_READ: the record of QUERY kind 0x02 and the state. -/
def execSliceRead (mb : Mbox) (s : State) : Host.Outcome State Fault Refusal :=
  .next (runCmd 0x0201 mb s (fun r s =>
    let f := funcOf mb (fld r 0x10 2)
    { bad := [(0x10, funcBad (fld r 0x10 2))]
      missing := [(s.noFn f, 1)]
      run := fun _ s => (s, s.quotaRecord f ++ le 1 (s.fn f).state) }))

/-- The quotas of a VF as they stand or are stored for the end of its reset (R210). -/
def Func.coming (x : Func) : Quotas := x.deferred.getD x.quotas

/-- What a pool has left after the quotas of the VFs that a command does not name. -/
def State.unnamed (s : State) (pool : Nat) (vfs : List Nat) (f : Quotas → Nat) : Nat :=
  pool - ((s.fns.filter (fun e => decide (e.1 < 512 ∧ e.2.state ≠ 0) && !vfs.contains e.1)).foldl (fun n e => n + f e.2.coming) 0)

/-- The basic-level quotas of the named VFs (05, Table: VF quotas). -/
def State.basicQuotas (s : State) (vfs : List Nat) : Quotas :=
  let n := max 1 vfs.length
  let all := max 1 s.cfg.numVfs
  { qp := min 16 (s.unnamed 4080 vfs Quotas.qp / n)
    vec := max 1 (min 32 (s.unnamed 8128 vfs Quotas.vec / n))
    seq := 16384 / all
    pos := 4096
    mem := s.kvPool / all
    tag := 32768 / all
    fetch := 16
    skel := min 4096 (8192 / all) }

/-- A quota field of the expert form: 0xFFFF_FFFF keeps the value. -/
def keepOr (r : Bytes) (off old : Nat) : Nat := if fld r off 4 = 0xFFFFFFFF then old else fld r off 4

/-- The quotas that an expert VF_QUOTA sets. -/
def expertQuotas (r : Bytes) (q : Quotas) : Quotas :=
  { qp := keepOr r 0x14 q.qp
    vec := keepOr r 0x18 q.vec
    seq := keepOr r 0x1C q.seq
    pos := keepOr r 0x20 q.pos
    mem := keepOr r 0x24 q.mem
    tag := keepOr r 0x28 q.tag
    fetch := keepOr r 0x2C q.fetch
    skel := keepOr r 0x30 q.skel }

/-- The bounds of the quota fields (05, Table: VF quotas). -/
def quotaBounds : List (Nat × Nat × Nat) :=
  [(0x14, 0, 16), (0x18, 1, 32), (0x1C, 0, 16384), (0x20, 0, 4096), (0x24, 0, 3145728), (0x28, 0, 32768), (0x2C, 0, 128), (0x30, 0, 4096)]

/-- One of the three reclaimable quotas does not cover its use. -/
def State.overUse (s : State) (v : Nat) (gone : List Nat) : Bool :=
  let q := (s.fn v).quotas
  let mine := (s.seqsOf v).filter (fun e => !gone.contains e.1)
  let pos := s.jobs.foldl (fun n e => max n ((e.2.occupied.filter (fun i => mine.any (fun x => x.1 == i))).length)) 0
  decide (q.seq < mine.length ∨ q.pos < pos ∨ q.mem < mine.foldl (fun n e => n + e.2.pages.length) 0)

/-- The reclaim victims of a VF (R198, R199): its BE sequences, oldest SEQ_OPEN first, until the quotas cover the use. -/
def State.victims (s : State) (v : Nat) : List Nat :=
  let cands := (s.seqsOf v).filter (fun e => !e.2.lc && !e.2.transient && e.2.state != 5 && !e.2.victim)
  let before := ((s.seqsOf v).filter (fun e => e.2.victim || e.2.state == 5)).map (·.1)
  (sortKey (fun e => [e.2.openAt, e.1]) cands).foldl (fun (l : List Nat) e => if s.overUse v (before ++ l) then l ++ [e.1] else l) []

/-- Take a victim (R200, R201): one that does not run ends and its pages return at once, a running one at the end of its step. -/
def takeVictim (e : Nat) (s : State) : State :=
  if (s.seq e).state = 3 then s.modSeq e (fun x => { x with victim := true, closing := true })
  else freeEntry e ((endOps e stCancelled 3 s).modSeq e (fun x => { x with state := 5 }))

/-- Quotas of one VF change (R196, R207, R210); the reclaim flag takes victims (R198, R202). The state and the number of victims. -/
def setQuotas (v : Nat) (q : Quotas) (reclaim : Bool) (s : State) : State × Nat :=
  let x := s.fn v
  if x.state = 3 then (s.setFn v { x with deferred := some q }, 0)
  else
    let sized := decide (x.state = 1 ∧ q.qp ≠ 0)
    let s1 := s.setFn v { x with quotas := q, state := if sized then 2 else x.state }
    let s2 := if sized then noticeVf v 2 s1 else s1
    let s3 := if q = x.quotas then s2 else notice (.vf v) 5 [] s2
    let lowers := decide ((q.seq < x.quotas.seq ∧ q.seq < s.seqUse v) ∨ (q.pos < x.quotas.pos ∧ q.pos < s.posUse v) ∨ (q.mem < x.quotas.mem ∧ q.mem < s.memUse v))
    if reclaim && lowers then
      let l := s3.victims v
      let s4 := forEach l s3 (fun s e => takeVictim e s)
      let s5 := s4.modFn v (fun x => { x with reclaimed := (x.reclaimed + l.length) % 2 ^ 32, reclaiming := true })
      (settleReclaim s5, l.length)
    else (s3, 0)

/-- VF_QUOTA (R193-R202, R207, R210, R831). -/
def execVfQuota (mb : Mbox) (s : State) : Host.Outcome State Fault Refusal :=
  .next (runCmd 0x0202 mb s (fun r s =>
    let first := fld r 0x10 2
    let n := if expert r then 1 else fld r 0x12 2
    let vfs := (List.range (min n 512)).map (fun i => first + i)
    let reclaim := flagOf r 0x12 0
    let next (s : State) (v : Nat) : Quotas := if expert r then expertQuotas r (s.fn v).coming else s.basicQuotas vfs
    let sum (pool : Nat) (f : Quotas → Nat) : Bool := decide (s.unnamed pool vfs f < vfs.foldl (fun k v => k + f (next s v)) 0)
    { bad := [(0x10, decide (512 ≤ first))]
        ++ (if expert r then
              [(0x12, decide (1 < fld r 0x12 1)), gap r 0x13 1]
                ++ quotaBounds.map (fun b => (b.1, fld r b.1 4 != 0xFFFFFFFF && decide (fld r b.1 4 < b.2.1 ∨ b.2.2 < fld r b.1 4)))
            else [(0x12, decide (n < 1 ∨ 512 < n ∨ 512 < first + n))])
      missing := [(vfs.any (fun v => decide ((s.fn v).state = 0)), 1)]
      state := reclaim && vfs.any (fun v => decide ((s.fn v).tdi = 1 ∨ (s.fn v).tdi = 2))
      busy := [(vfs.any (fun v => decide ((s.fn v).state ≠ 3 ∧ (next s v).vec < s.vecUse v)), 4)]
      needs := some (vfs.map LockObj.fn)
      full := [(sum 4080 Quotas.qp || sum 8128 Quotas.vec, 1)]
      run := fun _ s =>
        let qs := vfs.map (fun v => (v, next s v))
        let t := qs.foldl (fun (t : State × Nat) e => let u := setQuotas e.1 e.2 reclaim t.1; (u.1, t.2 + u.2)) (s, 0)
        (t.1, le 4 t.2) }))

/-- The NOTIFY option of VF_RESET: a final VF_RESET record for each packet placed and not final (05, When things fail). -/
def notifyReset (v : Nat) (s : State) : State :=
  let mine := (s.pkts.filter (fun e => decide (e.2.fnKey = v) && !e.2.final && s.live e.2 && e.2.chainOf.isNone)).map (·.1)
  forEach mine s (fun s i =>
    match s.pkts.look i with
    | none => s
    | some p => { s with outbox := s.outbox ++ [{ mkRecord p i true stVfReset 0 p.object [] with notify := some s.clk.tick, born := s.clk.tick }] })

/-- VF_RESET (R204, R209, R214): as an FLR, with NOTIFY after the records of that option. -/
def execVfReset (mb : Mbox) (s : State) : Host.Outcome State Fault Refusal :=
  .next (runCmd 0x0203 mb s (fun r s =>
    let v := fld r 0x10 2
    { bad := [(0x10, decide (512 ≤ v)), flagBad r 0x12 1]
      missing := [(decide ((s.fn v).state = 0), 1)]
      needs := some [.fn v]
      run := fun op s =>
        let s1 := beginVfReset v (if flagOf r 0x12 0 then notifyReset v s else s)
        (s1.modFn v (fun x => { x with resetOp := some op }), []) }))

/-! ## Queue commands (0x05xx) -/

/-- The LIMITS of a service record for a function (03, Table: LIMITS; R557). -/
def Svc.limits (v : Svc) (skel : Nat) : Bytes :=
  if v.kind = 3 then fit 16 (pack [(2, skel), (2, 64), (2, 192), (2, 32), (1, 0x3E)])
  else fit 16 (pack [(4, v.paramSlots), (4, if v.kind = 2 then 0 else v.maxTok), (2, v.feedKinds)])

/-- A service record (02, Table: Service record; STEP_US as 07 derives it). -/
def Svc.record (v : Svc) (stepCycles skel : Nat) : Bytes :=
  le 4 v.sid ++ le 2 v.kind ++ le 2 v.flags ++ fit 24 v.name ++ le 2 v.maxPkt ++ le 2 v.maxCpl
    ++ le 4 (if v.kind = 1 then ceilDiv stepCycles 1500 else 0) ++ le 4 v.version ++ zeros 4 ++ v.limits skel

/-- The services visible to a function, ascending by SERVICE_ID, with their Season's step (R956, R957). -/
def State.svcList (s : State) (f : Nat) : List (Svc × Nat) :=
  let all := s.parts.flatMap (fun e => (e.2.svcs.filter (fun v => !v.2.withdrawn)).map (fun v =>
    (v.2, match e.2.season with | some x => x.stepCycles | none => 0)))
  sortKey (fun e => [e.1.sid]) (all.filter (fun e => decide (f = 512) || s.svcGrants.contains (f, e.1.sid)))

/-- SERVICE_LIST (R957). -/
def execServiceList (mb : Mbox) (s : State) : Host.Outcome State Fault Refusal :=
  .next (runCmd 0x0501 mb s (fun r s =>
    let f := issuer mb
    let kind := if expert r then fld r 0x12 2 else 0
    let l := (s.svcList f).filter (fun e => decide (kind = 0 ∨ e.1.kind = kind))
    let out := (l.drop (fld r 0x10 2)).take 7
    let skel := (s.quotasOf f).skel
    { bad := [(0x12, decide (3 < kind ∧ kind < 0x8000))]
      run := fun _ s => (s, fit 8 (pack [(2, l.length), (2, (s.fn f).capEpoch.toNat), (1, out.length)]) ++ out.flatMap (fun e => e.1.record e.2 skel)) }))

/-- An epoch that nothing left from an earlier pair of the same number carries. -/
def State.freshEpoch (s : State) (k : Nat) : BitVec 8 :=
  let used := (s.pkts.filter (fun e => decide (e.2.qp = k))).map (fun e => e.2.epoch)
    ++ (s.fslots.filter (fun e => decide (e.2.qp = k))).map (fun e => e.2.epoch)
    ++ (s.outbox.filter (fun r => decide (r.qp = k))).map (fun r => r.epoch)
  BitVec.ofNat 8 (((List.range 256).find? (fun n => !used.contains (BitVec.ofNat 8 n))).getD 0)

/-- The QFE that the device chooses: the one with fewest queue pairs, the lowest of them (R62; log 20). -/
def State.chooseQfe (s : State) : Nat :=
  let load (q : Nat) : Nat := (s.qps.filter (fun e => decide (e.2.qfe = q))).length
  (List.range 16).foldl (fun b q => if load q < load b then q else b) 0

/-- QUEUE_CREATE (R62, R96, R150, R190, R191, R197, R206, R961-R963). -/
def execQueueCreate (mb : Mbox) (s : State) : Host.Outcome State Fault Refusal :=
  .next (runCmd 0x0502 mb s (fun r s =>
    let f := funcOf mb (fld r 0x10 2)
    let n := fld r 0x12 1
    let k := qpKey f n
    let opt := fld r 0x14 1
    let vec := fld r 0x15 1
    let top := if f = 512 then 32 else if s.unsized mb then 32 else (s.fn f).quotas.vec
    let pasid := fld r 0x28 4
    let mine := s.qpsOf f
    let bulk := bit opt 1
    let x := expert r
    let ms := if x then fld r 0x30 4 else 1000
    let live := (s.qps.filter (fun e => !e.2.vacant)).length
    { bad := [(0x10, funcBad (fld r 0x10 2)), (0x12, decide (15 < n)), (0x13, decide (1 < fld r 0x13 1)), (0x14, decide (3 < opt)),
        (0x15, decide (vec < 1 ∨ 31 < vec) || (!s.noFn f && decide (top ≤ vec))),
        outside r 0x16 1 6 16, outside r 0x17 1 6 16, (0x18, fld r 0x18 8 % 4096 != 0), (0x20, fld r 0x20 8 % 4096 != 0),
        (0x28, decide (0xFFFFF < pasid) || (!bit opt 0 && pasid != 0)), (0x2C, x && decide (15 < fld r 0x2C 1)), (0x2E, x && fld r 0x2E 2 != 0),
        (0x30, decide (ms < 1 ∨ 60000 < ms))]
      missing := [(s.noFn f, 1)]
      state := decide ((s.fn f).state = 3) || (match s.qps.look k with | some q => !q.vacant | none => false)
      busy := [(s.unsized mb, 2)]
      needs := some [.qp k, .fn f]
      full := [(decide ((if f = 512 then 16 else (s.fn f).quotas.qp) ≤ mine.length ∨ 4096 ≤ live), 5),
        (bulk && decide (4 ≤ (mine.filter (fun e => e.2.bulk)).length), 6)]
      run := fun _ s =>
        let q : QueuePair :=
          { lc := fld r 0x13 1 == 1 && !bulk
            bulk := bulk
            qfe := if x then fld r 0x2C 1 else s.chooseQfe
            vector := vec
            pasid := if bit opt 0 then some pasid else none
            sqBase := fld r 0x18 8
            cqBase := fld r 0x20 8
            sqLog := fld r 0x16 1
            cqLog := fld r 0x17 1
            state := 1
            timeoutMs := ms
            deferLimit := if x then fld r 0x2D 1 else 0
            epoch := s.freshEpoch k }
        (s.setQp k q, []) }))

/-- What QUEUE_MODIFY, QUEUE_RESET and QUEUE_DELETE name and check alike. -/
def queuePlan (m : Mbox) (r : Bytes) (s : State) (bad : List (Nat × Bool)) (run : Nat → State → State) : Plan :=
  let f := funcOf m (fld r 0x10 2)
  let k := qpKey f (fld r 0x12 1)
  { bad := [(0x10, funcBad (fld r 0x10 2)), (0x12, decide (15 < fld r 0x12 1))] ++ bad
    missing := [(s.noFn f, 1), ((s.qps.look k).isNone, 2)]
    busy := [(s.unsized m, 2)]
    needs := some [.qp k, .fn f]
    run := fun _ s => (run k s, []) }

/-- QUEUE_MODIFY (R129, R165): the timeout of packets placed from now on, and the defer limit. -/
def execQueueModify (mb : Mbox) (s : State) : Host.Outcome State Fault Refusal :=
  .next (runCmd 0x0503 mb s (fun r s =>
    queuePlan mb r s [gap r 0x13 1, outside r 0x14 4 1 60000] (fun k s =>
      s.modQp k (fun q => { q with timeoutMs := fld r 0x14 4, deferLimit := if expert r then fld r 0x18 1 else q.deferLimit }))))

/-- A queue reset begins (R71, R778, R779, R952, R963): no more fetching, the epoch counts up, the counters restart, old timers stop. -/
def beginQueueReset (k : Nat) (leave delete : Bool) (s : State) : State :=
  let s1 := (unpark k s).modQp k (fun q => { q with
    state := 3, epoch := q.epoch + 1, acct := {}, leaveDisabled := leave, deleting := delete || (q.deleting && q.state == 3), vacant := q.vacant && leave })
  { s1 with pkts := s1.pkts.updAll (fun _ p => if p.qp = k then { p with timer := none } else p) }

/-- QUEUE_RESET. -/
def execQueueReset (mb : Mbox) (s : State) : Host.Outcome State Fault Refusal :=
  .next (runCmd 0x0504 mb s (fun r s => queuePlan mb r s [flagBad r 0x13 1] (fun k s => beginQueueReset k (flagOf r 0x13 0) false s)))

/-- QUEUE_DELETE: a queue reset, then removal. -/
def execQueueDelete (mb : Mbox) (s : State) : Host.Outcome State Fault Refusal :=
  .next (runCmd 0x0505 mb s (fun r s => queuePlan mb r s [] (fun k s => beginQueueReset k false true s)))

/-- The offset of the first invalid field of a signal target entry (03, Table: Signal target entry; log 45). -/
def targetBad (e : Bytes) : Option Nat :=
  let k := fld e 0 1
  let sem := decide (k = 1 ∨ k = 2)
  if 3 < k then some 0
  else if (if sem then 1 else 0) < fld e 1 1 then some 1
  else if (if sem then 2047 else 0) < fld e 2 2 then some 2
  else if (if k = 1 then 4095 else 0) < fld e 4 2 then some 4
  else if fld e 6 2 ≠ 0 then some 6
  else if (if k = 3 then fld e 8 8 % 8 else fld e 8 8) ≠ 0 then some 8
  else none

/-- SIGNAL_TARGET (R145, R831): the entries as they stand when a signal is issued. What was issued before stays counted (book 0x0C). -/
def execSignalTarget (mb : Mbox) (s : State) : Host.Outcome State Fault Refusal :=
  .next (runCmd 0x0506 mb s (fun r s =>
    let f := funcOf mb (fld r 0x10 2)
    let i := fld r 0x12 1
    let n := if expert r then fld r 0x13 1 else 1
    let entry (j : Nat) : Bytes := fit 16 (r.drop (0x18 + 16 * j))
    { bad := [(0x10, funcBad (fld r 0x10 2)), (0x12, decide (63 < i)), (0x13, if expert r then decide (n < 1 ∨ 16 < n ∨ 64 < i + n) else fld r 0x13 1 != 0), gap r 0x14 4]
        ++ (List.range (min n 16)).map (fun j => (0x18 + 16 * j + (targetBad (entry j)).getD 0, (targetBad (entry j)).isSome))
      missing := [(s.noFn f, 1)]
      state := decide ((s.fn f).tdi = 1 ∨ (s.fn f).tdi = 2)
      needs := some [.fn f]
      run := fun _ s => (forEach (List.range (min n 16)) s (fun s j =>
        let e := entry j
        s.modFn f (fun x =>
          let old := x.targets.val (i + j) {}
          { x with targets := x.targets.put (i + j) { old with kind := fld e 0 1, half := fld e 1 1, sem := fld e 2 2, device := fld e 4 2, addr := fld e 8 8 } })), []) }))

/-- MIN_MS: the smallest limit that R138 allows. -/
def State.minLimit (s : State) : Nat :=
  s.parts.foldl (fun n e => match e.2.season with | some x => max n (ceilDiv x.stepCycles 1500000) | none => n) 10

/-- STEP_LIMIT (R138): below MIN_MS it is rejected, unless it only asks. -/
def execStepLimit (mb : Mbox) (s : State) : Host.Outcome State Fault Refusal :=
  .next (runCmd 0x0507 mb s (fun r s =>
    let ms := fld r 0x10 4
    let ask := flagOf r 0x14 0
    { bad := [outside r 0x10 4 10 60000, flagBad r 0x14 1]
      state := !ask && decide (ms < s.minLimit)
      needs := if ask then none else some []
      run := fun _ s => (if ask then s else { s with stepLimit := ms }, le 4 s.minLimit) }))

/-- FETCH_RESERVE (R65). -/
def execFetchReserve (mb : Mbox) (s : State) : Host.Outcome State Fault Refusal :=
  .next (runCmd 0x0508 mb s (fun r _ =>
    let qs := if expert r then (List.range 16).filter (fun q => bit (fld r 0x10 2) q) else List.range 16
    let off := if expert r then 0x12 else 0x10
    { bad := [outside r off 1 0 128]
      needs := some (qs.map LockObj.qfe)
      run := fun _ s => (forEach qs s (fun s q => { s with qfes := s.qfes.put q { (s.qfes.val q {}) with reserve := fld r off 1 } }), []) }))

end Sys2Proof.Machine
end

