-- ==== Sys2Proof/Machine/CmdPart.lean ====
section
/-! DEFINITION. The partition, Season, job and service commands of the command set (06_mailboxes_and_commands.md, Tables: Partition commands,
Season, job and service commands; 07_partitions_jobs_timeslices.md). -/

namespace Sys2Proof.Machine

open Sys2Proof

/-! ## Partitions (0x03xx) -/

/-- PART names no partition: a reserved number, or one that is absent. -/
def partBad (r : Bytes) : Nat × Bool := (0x10, decide (7 < fld r 0x10 1))
def State.noPart (s : State) (r : Bytes) : Bool × Nat := ((s.parts.look (fld r 0x10 1)).isNone, 3)

/-- Columns of a half that PART_CREATE may take (R270, R723). -/
def State.colFree (s : State) (c : Nat) : Bool := (s.partOfCol c).isNone && !s.colRetired c && !s.start.failedCols.contains c
def State.freeCols (s : State) (h : Nat) : List Nat := ((List.range 24).map (fun x => 24 * h + x)).filter s.colFree

/-- A stack channel that PART_CREATE may take (R270, R504, R724). -/
def State.chanFree (s : State) (c : Nat) : Bool :=
  !s.parts.any (fun e => e.2.chans.contains c) && !s.mem.failed.contains c && !s.start.stacksFailed.contains (c / 16)

/-- The present stacks of a half. -/
def State.halfStacks (s : State) (h : Nat) : List Nat := s.stackList.filter (fun k => k / 4 == h)

/-- Channels one at a time over the stacks in turn, the lowest free channel of each (R273). -/
def spreadChans (ks : List Nat) (free : Nat → Bool) : Nat → Nat → List Nat → Option (List Nat)
  | 0, _, got => some got
  | n + 1, pos, got =>
    let pick (j : Nat) : Option (Nat × Nat) :=
      let k := ks.getD ((pos + j) % ks.length) 0
      ((List.range 16).find? (fun c => free (16 * k + c) && !got.contains (16 * k + c))).map (fun c => (pos + j + 1, 16 * k + c))
    match (List.range ks.length).findSome? pick with
    | some (p, c) => spreadChans ks free n p (got ++ [c])
    | none => none

/-- The lowest run of free sequence entries in the half's block of the sequence table (04, slice). -/
def State.sliceAt (s : State) (h n : Nat) : Option Nat :=
  let lo := 8192 * h
  let starts := lo :: (s.parts.map (fun e => e.2.seqBase + e.2.seqLen))
  let ok (a : Nat) : Bool := decide (lo ≤ a ∧ a + n ≤ lo + 8192) && !s.parts.any (fun e => decide (a < e.2.seqBase + e.2.seqLen ∧ e.2.seqBase < a + n))
  (starts.filter ok).foldl (fun m a => some (match m with | some b => min a b | none => a)) none

/-- What a PART_CREATE asks for. -/
structure PartAsk where
  spanning : Bool
  half : Nat
  hlShare : Nat
  entries : Nat
  cols : Option (List Nat)
  chans : Option (List Nat)
deriving DecidableEq, Repr

/-- The request of a basic PART_CREATE (R272, R273) or of an expert one. -/
def State.partAsk (s : State) (r : Bytes) : PartAsk :=
  if expert r then
    let cols := (List.range 48).filter (fun i => bit (fld r 0x18 8) i)
    let chans := (List.range 128).filter (fun i => bit (fld r (0x20 + 8 * (i / 64)) 8) (i % 64))
    let span := bit (fld r 0x10 1) 0
    { spanning := span
      half := if span then 0 else cols.headD 0 / 24
      hlShare := fld r 0x12 2
      entries := fld r 0x14 4
      cols := some cols
      chans := some chans }
  else
    let want := fld r 0x10 1
    let h := if want = 0xFF then (if (s.freeCols 0).length < (s.freeCols 1).length then 1 else 0) else want
    let n := fld r 0x11 1
    let free := s.freeCols h
    { spanning := false
      half := h
      hlShare := 0
      entries := 8192 * n / 24
      cols := if n ≤ free.length then some (free.take n) else none
      chans := spreadChans (s.halfStacks h) s.chanFree (fld r 0x12 1) 0 [] }

/-- Lanes for a spanning partition: ⌈HL_SHARE / 16⌉ of lanes 0-14, lowest free first (R440, R441). -/
def State.lanesFor (s : State) (share : Nat) : Option (List Nat) :=
  let free := (List.range 15).filter (fun l => !s.parts.any (fun e => e.2.lanes.contains l))
  let n := ceilDiv share 16
  if n ≤ free.length then some (free.take n) else none

/-- The fields of a PART_CREATE that are out of range (R9, R271). -/
def createBad (r : Bytes) : List (Nat × Bool) :=
  if expert r then
    let span := bit (fld r 0x10 1) 0
    let map := fld r 0x18 8
    let off := 8 * b2n (decide (map % 2 ^ 24 = 0))
    [flagBad r 0x10 1, gap r 0x11 1, (0x12, decide (240 < fld r 0x12 2) || (!span && fld r 0x12 2 != 0)), outside r 0x14 4 1 8192,
      (0x18, map == 0 || decide (2 ^ 48 ≤ map) || (!span && map % 2 ^ 24 != 0 && decide (2 ^ 24 ≤ map))
        || (span && decide (((List.range 48).filter (fun i => bit map i)).length < 2))),
      (0x20, !span && off == 8 && fld r 0x20 8 != 0), (0x28, !span && off == 0 && fld r 0x28 8 != 0)]
  else
    [(0x10, decide (1 < fld r 0x10 1) && fld r 0x10 1 != 0xFF), outside r 0x11 1 1 24, (0x12, decide (64 < fld r 0x12 1))]

/-- PART_CREATE (R269-R275, R317, R440, R646). -/
def execPartCreate (mb : Mbox) (s : State) : Host.Outcome State Fault Refusal :=
  .next (runCmd 0x0301 mb s (fun r s =>
    let a := s.partAsk r
    let wantChans := if expert r then (fld r 0x20 8 != 0 || fld r 0x28 8 != 0) else fld r 0x12 1 != 0
    let shares := s.parts.foldl (fun n e => n + if e.2.spanning then e.2.hlShare else 0) a.hlShare
    let fits : Bool := match a.cols, a.chans with
      | some cols, some chans => cols.all s.colFree && chans.all s.chanFree && (s.sliceAt a.half a.entries).isSome
      | _, _ => false
    { absent := (match a.chans with | some l => expert r && l.any (fun c => !s.stackList.contains (c / 16)) | none => false)
        || (wantChans && (if expert r then s.stackList == [] else s.halfStacks a.half == []))
      bad := createBad r
      state := s.pwr.state == 3
      needs := some []
      full := [(decide (8 ≤ s.parts.length), 3), (!fits, 2), (a.spanning && (decide (240 < shares) || (s.lanesFor a.hlShare).isNone), 7)]
      run := fun _ s =>
        match a.cols, a.chans, s.sliceAt a.half a.entries, firstFree 8 (fun p => (s.parts.look p).isNone) with
        | some cols, some chans, some base, some p =>
          let q : Part :=
            { spanning := a.spanning
              cols := cols
              chans := chans
              seqBase := base
              seqLen := a.entries
              hlShare := a.hlShare
              lanes := if a.spanning then (s.lanesFor a.hlShare).getD [] else [] }
          (applySpares cols (noticePart p (s.setPart p q)), le 1 p)
        | _, _, _, _ => (s, []) }))

/-- End every job of a partition with JOB_LOST, DETAIL 0x01 (R315). -/
def killAll (part : Nat) (s : State) : State := forEach (s.jobsOf part) s (fun s j => beginKill j stJobLost 1 s)

/-- PART_DESTROY: with FORCE it kills the jobs first. -/
def execPartDestroy (mb : Mbox) (s : State) : Host.Outcome State Fault Refusal :=
  .next (runCmd 0x0302 mb s (fun r s =>
    let p := fld r 0x10 1
    { bad := [partBad r, flagBad r 0x11 1]
      missing := [s.noPart r]
      state := s.jobsOf p != [] && !flagOf r 0x11 0
      needs := some [.part p]
      run := fun op s =>
        let s1 := noticePart p (s.modPart p (fun q => { q with destroying := true, resetOp := some op }))
        (settlePart p (killAll p s1), []) }))

/-- PART_RESET (R784, R787): a reset in progress is joined. -/
def execPartReset (mb : Mbox) (s : State) : Host.Outcome State Fault Refusal :=
  .next (runCmd 0x0303 mb s (fun r s =>
    let p := fld r 0x10 1
    let remap := !flagOf r 0x11 0
    { bad := [partBad r, flagBad r 0x11 1]
      missing := [s.noPart r]
      needs := some [.part p]
      run := fun op s =>
        let q := s.parts.val p {}
        let n := if remap then (q.cols.filter (fun c => (s.spare c).due)).length else 0
        (if q.resetting then s.setPart p { q with resetOp := some (q.resetOp.getD op) } else beginPartReset p remap (some op) s, le 1 n) }))

/-- PART_DRAIN (R307, R314, R648). -/
def execPartDrain (mb : Mbox) (s : State) : Host.Outcome State Fault Refusal :=
  .next (runCmd 0x0304 mb s (fun r s =>
    let p := fld r 0x10 1
    let ms := if expert r then fld r 0x14 4 else s.stepLimit
    let q := s.parts.val p {}
    { bad := [partBad r, (0x11, expert r && fld r 0x11 3 != 0), (0x14, expert r && decide (60000 < ms))]
      missing := [s.noPart r]
      state := (q.season.isNone && q.loading.isNone && !q.resetting && !q.destroying)
      needs := some [.part p]
      own := [(q.draining || q.resetting || q.destroying || q.loading.isSome, rcState)]
      run := fun op s => (beginDrain p ms (op + 1) s, []) }))

/-- A list of bits as a number. -/
def setBits (l : List Nat) : Nat := l.dedup.foldl (fun n i => n + 2 ^ i) 0

/-- PART_CHAN_LO and PART_CHAN_HI (07). -/
def Part.chanLo (q : Part) : Nat := setBits (q.chans.filter (fun c => decide (c < 64)))
def Part.chanHi (q : Part) : Nat := setBits ((q.chans.filter (fun c => decide (64 ≤ c))).map (fun c => c - 64))

/-- The SEASON_ID that a partition shows, 0 without a Season. -/
def Part.seasonId (q : Part) : Nat := match q.season with | some x => x.id | none => 0

/-- PART_STATUS. -/
def execPartStatus (mb : Mbox) (s : State) : Host.Outcome State Fault Refusal :=
  .next (runCmd 0x0305 mb s (fun r s =>
    let p := fld r 0x10 1
    let q := s.parts.val p {}
    { bad := [partBad r]
      missing := [s.noPart r]
      run := fun _ s => (s, pack [(1, s.partState p), (1, (s.jobsOf p).length), (2, q.index), (4, q.seqLen), (8, setBits q.cols), (8, q.chanLo), (8, q.chanHi), (8, q.seasonId)]) }))

/-- The reference rate of a regulator, MB/s (07, Table: Bandwidth regulators). -/
def State.refRate (s : State) (res : Nat) : Nat :=
  match res with
  | 0 => if s.pins.x8 then 64000 else 128000
  | 1 => 96000
  | 2 => 16000
  | _ => 100000 * (s.portList.filter (fun p => (s.port p).isUp)).length

/-- Set a regulator (R303, R313): the bucket is clipped to the new burst. -/
def setRegulator (part res rate burst : Nat) (s : State) : State :=
  s.modPart part (fun q =>
    let g := q.regs.val res {}
    { q with regs := q.regs.put res { rate := rate, burst := burst, bucket := min g.bucket (1024 * burst) } })

/-- PART_REGULATE (R303, R304, R313). -/
def execPartRegulate (mb : Mbox) (s : State) : Host.Outcome State Fault Refusal :=
  .next (runCmd 0x0306 mb s (fun r s =>
    let p := fld r 0x10 1
    let res := fld r 0x11 1
    { bad := partBad r :: (if expert r then
          [(0x11, decide (3 < res)), gap r 0x12 2, (0x14, decide (s.refRate res < fld r 0x14 4)), outside r 0x18 4 1 65535]
        else [outside r 0x11 1 1 100])
      missing := [s.noPart r]
      needs := some [.part p]
      run := fun _ s =>
        (if expert r then setRegulator p res (fld r 0x14 4) (fld r 0x18 4) s
         else forEach [0, 1, 2, 3] s (fun s k => setRegulator p k (s.refRate k * res / 100) 1024 s), []) }))

/-! ## Seasons (0x04xx) -/

/-- The lowest LOAD_ID from 1 on that no load uses (log 20). -/
def State.freeLoadId (s : State) : Nat := ((List.range (s.loads.length + 1)).map (· + 1)).find? (fun n => (s.loads.look n).isNone) |>.getD 1

/-- SEASON_LOAD (R276-R278, R282, R646). With SOURCE 0x01 the staged image is the load, complete at once. -/
def execSeasonLoad (mb : Mbox) (s : State) : Host.Outcome State Fault Refusal :=
  .next (runCmd 0x0401 mb s (fun r s =>
    let p := fld r 0x10 1
    let src := fld r 0x11 1
    let id := if expert r then fld r 0x14 4 else 0
    let q := s.parts.val p {}
    { bad := [partBad r, (0x11, decide (1 < src))] ++ (if expert r then [flagBad r 0x12 1, gap r 0x13 1] else [gap r 0x12 6])
      missing := [s.noPart r, (src == 1 && q.staged.isNone, 6)]
      state := s.partState p != 1 || (s.loads.look id).isSome || s.pwr.state == 3
      needs := some [.part p]
      run := fun op s =>
        let n := if id = 0 then s.freeLoadId else id
        let img := q.staged.getD []
        let bytes := if src = 1 then q.stagedBytes else fld r 0x18 8
        let l : Load :=
          { part := p
            source := src
            verifyOnly := flagOf r 0x12 0
            bytes := bytes
            img := if src = 1 then img else []
            got := if src = 1 then granulesOf 0 bytes else []
            nextOff := if src = 1 then bytes else 0
            op := op }
        let s1 := { s with loads := s.loads.put n l }
        (noticePart p (s1.modPart p (fun q => { q with loading := some n })), le 4 n) }))

/-- SEASON_UNLOAD: with FORCE it kills the jobs first and answers when they are gone. -/
def execSeasonUnload (mb : Mbox) (s : State) : Host.Outcome State Fault Refusal :=
  .next (runCmd 0x0402 mb s (fun r s =>
    let p := fld r 0x10 1
    let force := flagOf r 0x11 0
    let st := s.partState p
    { bad := [partBad r, flagBad r 0x11 1]
      missing := [s.noPart r]
      state := !(st == 3 || (force && (st == 4 || st == 5)))
      needs := some [.part p]
      waits := s.jobsOf p != []
      run := fun _ s =>
        (if s.jobsOf p = [] then unloadPart p s else killAll p (s.modPart p (fun q => { q with unloading := some mb })), []) }))

/-! ## Jobs (R284-R286, R315, R356, R420) -/

/-- Fabric conditions of a job that owns slots (R516, R517). -/
def State.fabricReady (s : State) (x : Season) : Bool :=
  let ports := (List.range 12).filter (fun p => bit x.ports p)
  s.alm.state == almInStep
    && ports.all (fun p => (s.port p).state == portMember && decide ((s.port p).delay + 800 ≤ 400 * x.lags.getD p 0))
    && decide (((x.own.map (fun o => o.peer)).dedup).length ≤ 32)

/-- POSITIONS of the running solver jobs of a solver (R559). -/
def State.solverPositions (s : State) (h : Nat) : Nat :=
  s.jobs.foldl (fun n e => if e.2.solver ∧ s.solverOf e.2.part = h then n + ((s.parts.val e.2.part {}).svcs.val e.2.entry {}).positions else n) 0

/-- Credits of the channels towards a solver of the partitions that hold jobs, and of one more (R584; log 9). -/
def State.solverCredits (s : State) (h more : Nat) : Nat :=
  s.parts.foldl (fun n e =>
    if e.1 = more ∨ s.jobsOf e.1 ≠ [] then
      match e.2.season with
      | some x => n + (x.ext.chans.filter (fun c => c.dst == 0x1000 + h)).foldl (fun k c => k + c.credits) 0
      | none => n
    else n) 0

/-- The lowest job entry of a partition that has no job. -/
def State.freeJobEntry (s : State) (p : Nat) : Option Nat :=
  firstFree 16 (fun e => ((s.parts.val p {}).svcs.look e).isSome && (s.jobOf p e).isNone)

/-- The states in which JOB_START is refused (R285, R286, R316, R517, R559, R584, R646). -/
def State.noStart (s : State) (p : Nat) : Bool :=
  match s.parts.look p with
  | none => true
  | some q =>
    match q.season with
    | none => true
    | some x =>
      q.loading.isSome || q.resetting || q.destroying || q.draining || s.pwr.state == 3 || q.reload != [] || (x.ownsSlots && s.jobsOf p != [])
        || (x.ownsSlots && !s.fabricReady x)
        || (match s.freeJobEntry p with
          | none => true
          | some e =>
            let v := q.svcs.val e {}
            v.kind == 3 && decide (256 < s.solverPositions (s.solverOf p) + v.positions))
        || [0, 1].any (fun h => decide (1024 < s.solverCredits h p))

/-- The tasks of a job entry wait at their entry addresses with empty registers (R356, R420); its layer digests start at 0 (R733). -/
def startTasks (x : Season) (entry : Nat) (s : State) : State :=
  forEach (x.ext.tasks.filter (fun t => t.entry == entry)) s (fun s t =>
    match logOfName t.tile with
    | none => s
    | some i => s.modTile (s.physOf i) (fun y =>
        let c : Context :=
          { pc := t.pc
            spillBase := BitVec.ofNat 32 t.spillBase
            spillBytes := BitVec.ofNat 32 t.spillBytes
            trapVec := BitVec.ofNat 32 t.trapVec
            semKind := BitVec.ofNat 32 t.semKind
            live := true
            fresh := true }
        { y with ctx := y.ctx.put entry c, digest := y.digest.put entry 0 }))

/-- The first Month at which a job that owns slots may start: at least two after this one, a multiple of MONTHS_PER_STEP (R518). -/
def State.firstMonth (s : State) (x : Season) : Nat := ceilDiv (s.alm.month + 2) (max 1 x.monthsPerStep) * max 1 x.monthsPerStep

/-- A job starts. -/
def startJob (p e j prio silent : Nat) (s : State) : State :=
  match s.parts.look p with
  | none => s
  | some q =>
    match q.season with
    | none => s
    | some x =>
      let v := q.svcs.val e {}
      let sol := decide (v.kind = 3)
      let waiting := s.seqs.any (fun y => decide (y.2.part = p ∧ y.2.sid = v.sid) && y.2.ops != [])
      let b : Job :=
        { part := p
          entry := e
          prio := prio
          silentMonths := silent
          state := if sol then 2 else 1
          solver := sol
          closeDue := waiting && !x.ownsSlots && !sol
          startMonth := if x.ownsSlots then s.firstMonth x else 0
          peers := if x.ownsSlots then (((x.own.filter (fun o => o.recv)).map (fun o => o.peer)).dedup).map (fun d => (d, 0)) else [] }
      let s1 := (startTasks x e s).setJob j b
      if s.jobsOf p = [] then noticePart p s1 else s1

/-- JOB_START. -/
def execJobStart (mb : Mbox) (s : State) : Host.Outcome State Fault Refusal :=
  .next (runCmd 0x0403 mb s (fun r s =>
    let p := fld r 0x10 1
    let j := firstFree 64 (fun j => (s.jobs.look j).isNone)
    { bad := partBad r :: (if expert r then [(0x11, decide (7 < fld r 0x11 1)), outside r 0x12 1 1 255] else [])
      missing := [s.noPart r]
      state := s.noStart p
      needs := some [.part p]
      full := [(j.isNone, 4)]
      run := fun _ s =>
        match s.freeJobEntry p, j with
        | some e, some j => (startJob p e j (if expert r then fld r 0x11 1 else 4) (if expert r then fld r 0x12 1 else 3) s, le 1 j)
        | _, _ => (s, []) }))

/-- JOB names no job. -/
def jobBad (r : Bytes) : Nat × Bool := (0x10, decide (63 < fld r 0x10 1))
def State.noJob (s : State) (r : Bytes) : Bool × Nat := ((s.jobs.look (fld r 0x10 1)).isNone, 4)

/-- JOB_KILL (R315, R782; 18, DUMP): a kill in progress keeps its cause. -/
def execJobKill (mb : Mbox) (s : State) : Host.Outcome State Fault Refusal :=
  .next (runCmd 0x0404 mb s (fun r s =>
    let j := fld r 0x10 1
    { bad := [jobBad r, flagBad r 0x11 1]
      missing := [s.noJob r]
      needs := some [.job j]
      run := fun op s =>
        let s1 := if flagOf r 0x11 0 then beginCapture 2 0xFFF none s else s
        (beginKill j stJobLost 1 (s1.modJob j (fun b => { b with killOp := some op })), []) }))

/-- JOB_MODIFY (R309). -/
def execJobModify (mb : Mbox) (s : State) : Host.Outcome State Fault Refusal :=
  .next (runCmd 0x0405 mb s (fun r s =>
    let j := fld r 0x10 1
    { bad := [jobBad r, (0x11, decide (7 < fld r 0x11 1))] ++ (if expert r then [outside r 0x12 1 1 255] else [])
      missing := [s.noJob r]
      state := (s.jobs.val j {}).state == 4
      needs := some [.job j]
      run := fun _ s => (s.modJob j (fun b => { b with
        prio := fld r 0x11 1, silentMonths := if expert r then fld r 0x12 1 else b.silentMonths }), []) }))

/-- JOB_STATUS. -/
def execJobStatus (mb : Mbox) (s : State) : Host.Outcome State Fault Refusal :=
  .next (runCmd 0x0406 mb s (fun r s =>
    { bad := [jobBad r]
      missing := [s.noJob r]
      run := fun _ s =>
        let b := s.jobs.val (fld r 0x10 1) {}
        (s, pack [(1, b.state), (1, b.part), (1, b.prio), (1, b.silentMonths), (4, b.overruns), (8, b.steps), (8, b.preempts)]) }))

/-! ## Services (R49, R160, R831, R956) -/

/-- SERVICE_VISIBILITY: the VFs that it names. -/
def namedVfs (r : Bytes) : List Nat :=
  if expert r then (List.range 512).filter (fun v => bit (fld r (0x18 + 8 * (v / 64)) 8) (v % 64)) else [fld r 0x10 2]

/-- The VFs whose set of visible services a SERVICE_VISIBILITY changes. -/
def State.visChanges (s : State) (vfs : List Nat) (sid : Nat) (on : Bool) : List Nat :=
  vfs.filter (fun v => s.svcGrants.contains (v, sid) != on)

def execServiceVisibility (mb : Mbox) (s : State) : Host.Outcome State Fault Refusal :=
  .next (runCmd 0x0407 mb s (fun r s =>
    let x := expert r
    let sidOff := if x then 0x10 else 0x14
    let onOff := if x then 0x14 else 0x18
    let sid := fld r sidOff 4
    let on := fld r onOff 1 == 1
    let vfs := namedVfs r
    let change := s.visChanges vfs sid on
    { bad := (if x then [] else [(0x10, decide (512 ≤ fld r 0x10 2)), gap r 0x12 2])
        ++ [(sidOff, sid == 0), (onOff, decide (1 < fld r onOff 1))] ++ (if x then [gap r 0x15 3] else [])
      missing := [(vfs.any (fun v => decide ((s.fn v).state = 0)), 1), ((s.svcOf sid).isNone, 5)]
      state := change.any (fun v => decide ((s.fn v).tdi = 1 ∨ (s.fn v).tdi = 2))
      needs := some (.svc sid :: vfs.map LockObj.fn)
      run := fun _ s =>
        let grants := if on then s.svcGrants ++ change.map (fun v => (v, sid)) else s.svcGrants.filter (fun g => !(g.2 == sid && change.contains g.1))
        (forEach change { s with svcGrants := grants } (fun s v => epochUp v s), []) }))

/-- The service of a SERVICE_ID changes where it is installed. -/
def modSvc (sid : Nat) (f : Svc → Svc) (s : State) : State :=
  match s.svcOf sid with
  | some (p, e, _) => s.modPart p (fun q => { q with svcs := q.svcs.upd e f })
  | none => s

/-- SERVICE_POSITIONS (R160): in force from the next admission close; answers the previous settings. -/
def execServicePositions (mb : Mbox) (s : State) : Host.Outcome State Fault Refusal :=
  .next (runCmd 0x0408 mb s (fun r s =>
    let sid := fld r 0x10 4
    let v := match s.svcOf sid with | some (_, _, v) => v | none => {}
    let res := fld r 0x14 2
    let lim := if expert r then fld r 0x16 2 else v.positions
    let be := if expert r then fld r 0x18 2 else v.positions - res
    let known := (s.svcOf sid).isSome
    { bad := [(0x14, known && decide (lim < res ∨ v.positions < res)), (0x16, known && decide (v.positions < lim)), (0x18, known && decide (v.positions - res < be))]
      missing := [(!known, 5)]
      needs := some [.svc sid]
      run := fun _ s => (modSvc sid (fun v => { v with lcReserve := res, lcLimit := lim, beLimit := be }) s, pack [(2, v.lcReserve), (2, v.lcLimit), (2, v.beLimit)]) }))

/-- Cancel the operations that a withdrawn service still holds (CANCELLED, DETAIL 0x04): those of its sequences, its placed packets and its
queued problems; with `all`, the started problems too. -/
def cancelService (part sid : Nat) (all : Bool) (s : State) : State :=
  let es := (s.seqs.filter (fun e => decide (e.2.part = part ∧ e.2.sid = sid ∧ e.2.state ≠ 0))).map (·.1)
  let s1 := forEach es s (fun s e =>
    let gone := (s.seq e).ops.filter (fun o => o.kind != opClose)
    let s1 := s.modSeq e (fun x => { x with ops := x.ops.filter (fun o => o.kind == opClose), posted := none })
    settleSeq e (forEach gone s1 (fun s o => fail o.pkt stCancelled 4 s)))
  let pend := (s1.pkts.filter (fun e => decide (e.2.sid = sid) && !e.2.taken && !e.2.final && [opFeed, opStep, opSet, opDelta].contains e.2.opcode)).map
    (fun e => e.2.chainOf.getD e.1)
  let s2 := forEach pend.dedup s1 (fun s i => fail i stCancelled 4 s)
  forEach [0, 1] s2 (fun s h =>
    let mine (k : Skeleton) : Bool := decide (k.used ∧ k.part = part ∧ k.sid = sid)
    if all then endProblems h mine stCancelled 4 s
    else
      forEach ((s.solver h).skels.filter (fun e => mine e.2)) s (fun s e =>
        let s1 := s.modSolver h (fun v => { v with skels := v.skels.upd e.1 (fun k => { k with queue := [] }) })
        settleDrops h (forEach e.2.queue s1 (fun s b => answerProblem b (skelHandle h e.1 e.2.reuse) stCancelled 4 [] s))))

/-- SERVICE_WITHDRAW (R49, R832, R956): the service is no longer visible; what it holds is cancelled, at once or when the grace has passed. -/
def execServiceWithdraw (mb : Mbox) (s : State) : Host.Outcome State Fault Refusal :=
  .next (runCmd 0x0409 mb s (fun r s =>
    let sid := fld r 0x10 4
    let ms := if expert r then fld r 0x14 4 else 0
    { missing := [((s.svcOf sid).isNone, 5)]
      needs := some [.svc sid]
      run := fun op s =>
        match s.svcOf sid with
        | none => (s, [])
        | some (p, _, _) =>
          let s1 := tdiErrors [sid] (serviceChange [sid] (modSvc sid (fun v => { v with withdrawn := true, grace := if ms = 0 then none else some (s.clk.tick + 1000 * ms, op) }) s))
          (if ms = 0 then endOp op 0 0 (cancelService p sid false s1) else s1, []) }))

/-- The grace of a SERVICE_WITHDRAW has passed. -/
def execServiceWithdrawGrace (svc : Nat) (s : State) : Host.Outcome State Fault Refusal :=
  match s.parts.findSome? (fun e => (e.2.svcs.find? (fun x => decide (x.2.sid = svc) && x.2.withdrawn && x.2.grace.isSome)).map (fun x => (e.1, x.1, x.2.grace))) with
  | some (p, e, some (t, op)) =>
    .next (if s.clk.tick < t then s
      else endOp op 0 0 (cancelService p svc true (s.modPart p (fun q => { q with svcs := q.svcs.upd e (fun v => { v with grace := none }) }))))
  | _ => .next s

end Sys2Proof.Machine
end

