-- ==== Sys2Proof/Machine/Trust.lean ====
section
/-! DEFINITION. Debug unlock, images received, tenant turnover: what the security processor does
(19_trust_tenancy_management.md; 20_debug.md, R865-R868; 17, R756-R758; 21, R901). -/

namespace Sys2Proof.Machine

open Sys2Proof

/-! ## Debug stop ends and debug relock (R868, R875, R880) -/

/-- A basic DBG_RESUME of a partition in debug stop: its tiles go on, a deferred kill is done, and a job that owns slots is killed. -/
def resumeStop (part : Nat) (s : State) : State :=
  match s.parts.look part with
  | none => s
  | some q =>
    let st := q.stop
    let halted := (s.tiles.filter (fun e => q.cols.contains (colOf e.1) && e.2.run == 2)).map (·.1)
    let s1 := forEach halted (endStop part s) (fun s k => traceEv k 0xC 0 s)
    let s2 := if st.killPending then beginKill st.killJob st.killStatus st.killDetail s1 else s1
    let owns : Bool := match q.season with | some x => x.ownsSlots | none => false
    match owns, q.runJob with
    | true, some j => beginKill j stJobLost 2 s2
    | _, _ => s2

/-- Debug is relocked (R868). -/
def relockDebug (s : State) : State :=
  if !s.sec.unlocked then s
  else
    let stopped := (s.parts.filter (fun e => e.2.stop.state != 0)).map (·.1)
    let s1 := forEach stopped s (fun s p => resumeStop p s)
    let s2 := s1.setDbg (fun d => { d with bps := d.bps.updAll (fun _ b => { b with enable := false }), faultStop := false })
    remeasure 6 ({ s2 with tiles := s2.tiles.updAll (fun _ x => { x with trace := none }) }.setSec (fun c => { c with unlocked := false }))

/-- Debug unlocks (R867). -/
def unlockDebug (s : State) : State :=
  let s1 := endSessions s
  let s2 := { s1 with fns := s1.fns.updAll (fun _ x => if x.tdi = 1 ∨ x.tdi = 2 then { x with tdi := 3 } else x) }
  remeasure 6 (s2.setSec (fun c => { c with unlocked := true, since := true }))

/-! ## Firmware images and pattern packages (R756-R758, R850-R852, R860, R901, R722) -/

/-- A write to SPI NOR has failed twice (R860): the command's operation ends BAD_STATE, and the failure is logged. The error-log kind is open. -/
def norFailed (op : Nat) (s : State) : State :=
  endOp op rcState 0 (logEvent { kind := s.free % 65536, severity := 2, unit := 0x0F } (s.took 1))

/-- A firmware image is complete. -/
def installFirmware (u : Upload) (f : ImageFacts) (s : State) : State :=
  let lifts := decide (f.level = s.ident.level + 1)
  if !f.sigOk ∨ f.svn < s.ident.minSvn ∨ (f.level ≠ s.ident.level ∧ !lifts) then endOp u.op rcSignature 0 s
  else if lifts ∧ s.parts ≠ [] then endOp u.op rcState 0 s
  else if !f.written then norFailed u.op s
  else
    let k := 1 - s.sec.activeFw
    let slot : FwSlot :=
      { present := true
        svn := f.svn
        minSvn := f.minSvn
        level := f.level
        version := BitVec.ofNat 32 f.version
        sigOk := true }
    let s1 := (s.setSec (fun c => { c with fw := c.fw.put k slot, raiseDue := lifts })).setStart (fun x => { x with pendingActive := some k })
    let s2 := endOp u.op 0 0 s1
    if s.start.stage = 7 then beginFlush 7 0 0 s2 else if u.arg = 1 then beginWarm 6 0 0 s2 else s2

/-- The bit of VARIANT_MASK of a variant. -/
def Variant.bit : Variant → Nat
  | .A => 0
  | .B => 1
  | .C => 2
  | .D => 3
  | .Z => 4

/-- The header of a pattern package passes its checks (17, Table: Pattern package header). -/
def patternOk (m : Mem) (bytes : Nat) (v : Variant) : Bool :=
  Mem.num m 0 4 == 0x50544B50 && Mem.num m 4 2 == 1 && decide (Mem.num m 6 2 < 4) && Mem.num m 8 4 != 0 && decide (Mem.num m 0x10 1 < 32)
    && Mem.num m 0x11 3 == 0 && decide (1024 ≤ Mem.num m 0x14 4 ∧ Mem.num m 0x14 4 ≤ 65536) && decide (64 + Mem.num m 0x18 4 ≤ bytes)
    && Mem.num m 0x1C 36 == 0 && bit (Mem.num m 0x10 1) v.bit

/-- A pattern package is complete; `arg` is 0 at basic level, or 1 + SLOT. -/
def installPattern (u : Upload) (f : ImageFacts) (s : State) : State :=
  let id := Mem.num u.img 8 4
  let version := Mem.num u.img 12 4
  let same := s.sec.packages.filter (fun e => decide (e.2.state = 1 ∧ e.2.id = id))
  let slot := if u.arg ≠ 0 then some (u.arg - 1)
    else match same with
      | e :: _ => some e.1
      | [] => firstFree 8 (fun k => (s.sec.packages.val k {}).state == 0)
  if !f.sigOk then endOp u.op rcSignature 0 s
  else if !patternOk u.img u.bytes s.ident.variant then endOp u.op rcInvalid 0x10 s
  else if same.any (fun e => decide (version ≤ e.2.version)) then endOp u.op rcState 0 s
  else
    match slot with
    | none => endOp u.op rcState 0 s
    | some k =>
      if !f.written then norFailed u.op s
      else
        let p : Package :=
          { state := 1
            flags := Mem.num u.img 6 2
            id := id
            version := version
            roundCycles := Mem.num u.img 0x14 4
            bytes := u.bytes }
        endOp u.op 0 0 (remeasure 4 (s.setSec (fun c => { c with packages := c.packages.put k p })))

/-! ## Tenant turnover (R839-R842, R862) -/

/-- The next tenancy epoch (R842). -/
def nextEpoch (n : Nat) : Nat := if 2 ^ 32 ≤ n + 1 then 1 else n + 1

/-- Step 1: no more fetching, every job killed. -/
def beginTurnover (op : Nat) (s : State) : State :=
  forEach s.jobs.keys (s.setSec (fun c => { c with turnover := some op })) (fun s j => beginKill j stJobLost 1 s)

/-- Steps 2 to 5. -/
def clearTenant (s : State) : State :=
  let s1 := endSessions (relockDebug (pfQueues s))
  let s2 := { s1 with fns := s1.fns.updAll (fun _ x => { x with tdi := 0 }) }
  let s3 := if s2.alm.state = almNone then s2 else leaveDone (leaveStart s2)
  let s4 := s3.setAlm (fun a => { a with sems := [], grants := [], sigs := [], heldSigs := [] })
  forEach s4.parts.keys s4 (fun s p => dropPart p s)

/-- Step 6: everything that could hold a tenant's data is written with zero; stack writes that fail are handled as R504 states (R862). -/
def scrub (bad : List Nat) (s : State) : State :=
  let s1 := { s with
    tiles := s.tiles.updAll (fun _ x => { x with store := [], poison := [] })
    solvers := s.solvers.updAll (fun _ v => { v with skels := [], ctxs := [], busy := [] })
    seqs := []
    pkts := []
    outbox := []
    fslots := s.fslots.keep (fun _ f => !f.back)
    loads := []
    mem := { s.mem with stack := [], poison := [], pageCe := [] }
    ladder := { s.ladder with dump := none, capture := none }
    dbg := { s.dbg with ring := [] } }
  forEach bad s1 (fun s c => failChannel c s)

def execTurnoverComplete (epochOk : Bool) (badChannels : List Nat) (s : State) : Host.Outcome State Fault Refusal :=
  match s.sec.turnover with
  | none => .next s
  | some op =>
    if s.jobs ≠ [] ∨ s.parts.any (fun e => e.2.resetting || e.2.resetDue.isSome) ∨ s.cpsOut then .next s
    else
      let s1 := (scrub badChannels (clearTenant s)).setSec (fun c => { c with turnover := none })
      .next (if epochOk then endOp op 0 0 (remeasure 9 (remeasure 7 (s1.setSec (fun c => { c with epoch := nextEpoch c.epoch })))) else norFailed op s1)

end Sys2Proof.Machine
end

