-- ==== Sys2Proof/Machine/CmdOther.lean ====
section
/-! DEFINITION. The health, recovery, security, fabric and Almanac commands of the command set (06_mailboxes_and_commands.md, Tables: Health
commands to Fabric and Almanac commands). -/

namespace Sys2Proof.Machine

open Sys2Proof

/-! ## Health (0x06xx) -/

/-- One health record (17, Table: Health record). -/
def State.healthRecord (s : State) (p : Nat) : Bytes :=
  let h := s.healthOf p
  let st := if s.colRetired (colOf p) then 4 else h.state
  le 2 (physName p) ++ le 1 st ++ le 1 h.cause ++ le 2 h.fails ++ le 2 h.tests ++ le 4 h.rounds ++ le 4 h.roundFails ++ le 4 h.shadowBad
    ++ le 2 h.storeCe ++ le 2 h.missed ++ le 2 h.notReached ++ le 2 (if st = 1 then (h.periodEnd - s.clk.tick) / 60000000 else 0) ++ le 4 h.eventS

/-- HEALTH_READ. -/
def execHealthRead (mb : Mbox) (s : State) : Host.Outcome State Fault Refusal :=
  .next (runCmd 0x0601 mb s (fun r _ => { run := fun _ s =>
    let out := ((List.range 816).drop (fld r 0x10 2)).take 15
    (s, fit 8 (pack [(2, 816), (1, out.length)]) ++ out.flatMap (fun p => s.healthRecord p)) }))

/-- SHADOW_SET (R734, R735). -/
def execShadowSet (mb : Mbox) (s : State) : Host.Outcome State Fault Refusal :=
  .next (runCmd 0x0602 mb s (fun r s =>
    let p := fld r 0x10 1
    let n := fld r 0x11 1
    let q := s.parts.val p {}
    let top := match q.season with | some x => x.fracMax | none => 0
    { bad := [partBad r, (0x11, decide (4 < n))]
      missing := [s.noPart r]
      state := !q.tableValid || decide (top < n) || s.jobs.any (fun e => decide (e.2.part = p ∧ (e.2.state = 2 ∨ e.2.state = 3)))
      needs := some [.part p]
      run := fun _ s =>
        let s1 := s.modPart p (fun q => { q with fraction := n })
        let slot := match q.season with | some x => x.selectSlot | none => 0
        let s2 := match s1.writeVa q (q.slotVa slot) (fit 64 (le 1 n ++ le 1 top)) false with | .ok t => slotWritten p slot t | _ => s1
        (s2, le 1 q.fraction) }))

/-- The physical tiles that PROBE names. -/
def State.probeTiles (s : State) (q : Part) (name : Nat) : List Nat :=
  if name = 0xFFFF then s.tilesOfPart q else match s.physOfName name with | some p => if q.cols.contains (colOf p) then [p] else [] | none => []

/-- PROBE (R745, R746). -/
def execProbe (mb : Mbox) (s : State) : Host.Outcome State Fault Refusal :=
  .next (runCmd 0x0603 mb s (fun r s =>
    let p := fld r 0x10 1
    let name := fld r 0x12 2
    let x := expert r
    let id := if x then fld r 0x14 4 else 0
    let seed := if x then fld r 0x18 4 else s.clk.tick % 2 ^ 32
    let rounds := if x then fld r 0x1C 2 else 16
    let q := s.parts.val p {}
    let tiles := s.probeTiles q name
    let destroys : Bool := match s.package id with | some (_, f) => bit f 0 | none => false
    { bad := [partBad r, gap r 0x11 1, (0x12, name != 0xFFFF && (s.physOfName name).isNone), (0x14, (s.package id).isNone), (0x1C, decide (rounds < 1 ∨ 1024 < rounds))]
      missing := [s.noPart r, (tiles == [], 7)]
      state := destroys && s.partState p != 1
      needs := some [.part p]
      run := fun op s =>
        let go := tiles.filter (fun t => !decide ((s.healthOf t).state = 2))
        if go = [] then (endOp op 0 0 s, [])
        else
          let o : ProbeOp :=
            { op := op
              part := p
              tiles := go.map (fun t => (t, rounds))
              pkg := id
              seed := seed
              tick := s.clk.tick }
          ({ s with probes := s.probes ++ [o] }, []) }))

/-- What OBSERVE checks and does (R748, R755). Unmapped spares and retired tiles are in no observation (log 40). -/
def observePlan (r : Bytes) (s : State) : Plan :=
  let act := fld r 0x12 1
  let interval := if expert r then fld r 0x14 2 else 10
  let hours := if expert r then fld r 0x16 2 else 24
  let t := s.physOfName (fld r 0x10 2)
  let p := t.getD 0
  let st := (s.healthOf p).state
  { bad := [(0x10, t.isNone), (0x12, decide (1 < act)), (0x13, expert r && fld r 0x13 1 != 0),
      (0x14, decide (interval < 1 ∨ 3600 < interval)), (0x16, decide (hours < 1 ∨ 168 < hours))]
    state := decide (2 ≤ st)
    needs := some [.tile p]
    run := fun _ s =>
      (if act = 1 then (if st = 0 then observe p interval hours (suspect p 8 s) else observe p interval hours s)
       else if st = 1 then
        let h := s.healthOf p
        s.setHealth p { h with state := 0, fails := 0, eventS := s.eventS }
       else s, []) }

def execObserveAdd (mb : Mbox) (s : State) : Host.Outcome State Fault Refusal :=
  .next (if fld (s.requestOf 0x0604 mb) 0x12 1 = 0 then s else runCmd 0x0604 mb s observePlan)

def execObserveRemove (mb : Mbox) (s : State) : Host.Outcome State Fault Refusal :=
  .next (if fld (s.requestOf 0x0604 mb) 0x12 1 = 0 then runCmd 0x0604 mb s observePlan else s)

/-- An image of this command is being received. -/
def State.uploading (s : State) (kind : Nat) : Bool := s.sec.uploads.any (fun u => u.kind == kind)

/-- The operation begins to receive its image over BULK. -/
def beginUpload (op kind bytes arg : Nat) (s : State) : State :=
  s.setSec (fun c => { c with uploads := c.uploads ++ [{ op := op, kind := kind, bytes := bytes, arg := arg }] })

/-- PATTERN_INSTALL (R756, R757): one at a time. -/
def execPatternInstall (mb : Mbox) (s : State) : Host.Outcome State Fault Refusal :=
  .next (runCmd 0x0605 mb s (fun r s =>
    let n := fld r 0x10 4
    { bad := [(0x10, decide (n < 64 ∨ 524288 < n)), (0x14, expert r && decide (7 < fld r 0x14 1))]
      busy := [(s.uploading 0x0605, 1)]
      needs := some []
      run := fun op s => (beginUpload op 0x0605 n (if expert r then 1 + fld r 0x14 1 else 0) s, []) }))

/-- PATTERN_LIST: the slot that an upload names is shown as installing. -/
def execPatternList (mb : Mbox) (s : State) : Host.Outcome State Fault Refusal :=
  .next (runCmd 0x0606 mb s (fun _ _ => { run := fun _ s =>
    (s, fit 8 (le 1 8) ++ (List.range 8).flatMap (fun k =>
      let p := s.sec.packages.val k {}
      let st := if s.sec.uploads.any (fun u => decide (u.kind = 0x0605 ∧ u.arg = k + 1)) then 2 else p.state
      fit 32 (le 1 k ++ le 1 st ++ le 2 p.flags ++ le 4 p.id ++ le 4 p.version ++ le 4 p.roundCycles ++ le 4 p.bytes))) }))

/-! ## Recovery and dump (0x07xx) -/

/-- DUMP_CAPTURE (R802, R803). -/
def execDumpCapture (mb : Mbox) (s : State) : Host.Outcome State Fault Refusal :=
  .next (runCmd 0x0701 mb s (fun r s =>
    let mask := if expert r then fld r 0x10 4 else 0xFFF
    { bad := [(0x10, decide (0xFFF < mask))]
      state := s.ladder.dump.isSome
      busy := [((match s.ladder.capture with | some c => c.op.isNone | none => false), 1)]
      needs := some [.dump]
      run := fun op s => (beginCapture 1 mask (some op) s, le 4 (dumpBytes mask)) }))

/-- The header and the directory of the held dump (18, Table: Dump header). -/
def Dump.front (d : Dump) : Bytes :=
  let head := le 4 0x504D5544 ++ le 2 1 ++ le 1 (1 + 2 * b2n d.damaged) ++ le 1 d.trigger ++ le 8 d.tick ++ le 4 d.errSeq ++ le 4 d.mask ++ le 4 d.bytes
    ++ le 2 d.skipped ++ zeros 2 ++ le 8 d.likeness ++ le 4 d.fw ++ zeros 20
  let secs := (List.range 12).filter (fun i => bit d.mask i)
  let dir := (secs.foldl (fun (t : Nat × Bytes) i =>
    let n := 1024 * dumpSections.getD i 0
    (t.1 + n, t.2 ++ le 2 i ++ zeros 2 ++ le 4 t.1 ++ le 4 n ++ zeros 4)) (0x1000, [])).2
  fit 0x1000 (head ++ dir)

/-- A byte of the held dump: what its sections hold is open (log 21). -/
def Dump.byte (d : Dump) (front : Bytes) (i : Nat) : Byte := if i < 0x1000 then front.getD i 0 else BitVec.ofNat 8 (Config.free (d.body + i))

/-- DUMP_READ (R804). -/
def execDumpRead (mb : Mbox) (s : State) : Host.Outcome State Fault Refusal :=
  .next (runCmd 0x0702 mb s (fun r _ =>
    let off := fld r 0x10 4
    { bad := [(0x10, off % 8 != 0)]
      run := fun _ s =>
        match s.ladder.dump with
        | none => (s, zeros 8)
        | some d =>
          let n := min 480 (d.bytes - off)
          let front := d.front
          (s, fit 8 (le 2 n) ++ (List.range n).map (fun i => d.byte front (off + i))) }))

/-- DUMP_CLEAR. -/
def execDumpClear (mb : Mbox) (s : State) : Host.Outcome State Fault Refusal :=
  .next (runCmd 0x0703 mb s (fun _ _ => { needs := some [.dump], run := fun _ s => (s.setRec (fun x => { x with dump := none }), []) }))

/-- The bytes of an error-log entry (18, Table: Error-log entry). -/
def LogEntry.bytes (e : LogEntry) : Bytes :=
  le 4 e.seq ++ le 2 e.kind ++ le 1 e.severity ++ le 1 e.rung ++ le 8 e.tick ++ le 1 e.unit ++ le 1 e.part ++ le 2 e.index ++ le 1 e.job ++ zeros 3 ++ le 8 e.data

/-- The entries that ERRLOG_READ returns (R806). -/
def State.logFrom (s : State) (first : Nat) : List LogEntry :=
  let l := s.ladder.log
  if l.any (fun e => e.seq == first) then (l.dropWhile (fun e => e.seq != first)).take 15
  else if first = 0 ∨ first ≤ s.ladder.logSeq then l.take 15
  else []

/-- ERRLOG_READ. -/
def execErrlogRead (mb : Mbox) (s : State) : Host.Outcome State Fault Refusal :=
  .next (runCmd 0x0704 mb s (fun r _ => { run := fun _ s =>
    let l := s.logFrom (fld r 0x10 4)
    (s, fit 8 (le 2 l.length) ++ l.flatMap LogEntry.bytes) }))

/-- CP_RESTART (R794, R259; log 35). -/
def execCpRestart (mb : Mbox) (s : State) : Host.Outcome State Fault Refusal :=
  .next (runCmd 0x0705 mb s (fun r _ =>
    let n := fld r 0x10 1
    { bad := [(0x10, decide ((if expert r then 3 else 1) < n))]
      needs := some []
      run := fun op s => (beginCpRestart (if expert r then [n] else [2 * n, 2 * n + 1]) (some op) s, []) }))

/-- SPARE_MAP_READ (18, Table: Spare state byte). -/
def execSpareMapRead (mb : Mbox) (s : State) : Host.Outcome State Fault Refusal :=
  .next (runCmd 0x0706 mb s (fun r _ =>
    { bad := [(0x10, decide (1 < fld r 0x10 1))]
      run := fun _ s => (s, (List.range 24).flatMap (fun x => let y := s.spare (24 * fld r 0x10 1 + x); le 1 (y.row + 32 * y.state))) }))

/-! ## Security and tenancy (0x08xx) -/

/-- SEC_STATUS. -/
def execSecStatus (mb : Mbox) (s : State) : Host.Outcome State Fault Refusal :=
  .next (runCmd 0x0801 mb s (fun _ _ => { run := fun _ s =>
    (s, pack [(4, s.sec.epoch), (1, b2n (s.mail.lockout != 0)), (1, b2n s.sec.unlocked), (1, s.sec.sessions.length)]) }))

/-- TENANT_TURNOVER: step 1 of Table: Turnover steps; TURNOVER_COMPLETE does the rest. -/
def execTenantTurnover (mb : Mbox) (s : State) : Host.Outcome State Fault Refusal :=
  .next (runCmd 0x0802 mb s (fun r s =>
    { state := expert r && fld r 0x10 4 != s.sec.epoch
      needs := some [.whole]
      run := fun op s => (beginTurnover op s, []) }))

/-- The header of a load's weight package has been received. -/
def Load.headSeen (l : Load) : Bool :=
  (granulesOf 0 0x440).all l.got.contains && (granulesOf (packStart l.img / 64 * 64) 192).all l.got.contains

/-- WEIGHT_KEY_IMPORT (R834, R835, R857; BUSY while tenant turnover holds the whole device, R856): `unwraps` says that the blob's fingerprint is the binding key's and that the key unwraps (log 8). -/
def execWeightKeyImport (mb : Mbox) (unwraps : Bool) (s : State) : Host.Outcome State Fault Refusal :=
  .next (runCmd 0x0803 mb s (fun r s =>
    let id := fld r 0x10 4
    let blob := fit 244 (r.drop 0x16)
    let digest := (blob.drop 8).take 48
    let l := s.loads.val id {}
    { bad := [(0x14, fld r 0x14 2 != 244), (0x16, fld blob 0 2 != 1), (0x16 + 0xC9, fld blob 0xC9 3 != 0)]
      missing := [(s.sec.turnover.isNone && ((s.loads.look id).isNone || l.dark), 6)]
      state := s.sec.turnover.isNone && l.key
      needs := some []
      own := [(!unwraps || fld blob 4 4 != s.sec.epoch || (l.headSeen && Mem.read l.img (packStart l.img + 0x20) 48 != digest), rcUnbound)]
      run := fun _ s => ({ s with loads := s.loads.upd id (fun l => { l with key := true, setDigest := digest }) }, []) }))

/-- HOST_LOCKOUT (R848, R849, R264): ON 0 ends it. -/
def execHostLockout (mb : Mbox) (s : State) : Host.Outcome State Fault Refusal :=
  .next (runCmd 0x0804 mb s (fun r _ =>
    let on := fld r 0x10 1
    let mask := if expert r then fld r 0x12 2 else 0x7FE
    { bad := [(0x10, decide (1 < on)), (0x11, expert r && fld r 0x11 1 != 0), (0x12, mask % 2 != 0 || decide (0x7FE < mask) || (on == 1 && mask == 0))]
      needs := some []
      run := fun _ s =>
        let next := if on = 1 then mask else 0
        (if s.mail.lockout.toNat = next then s
         else remeasure 7 (noticeHost 0xB (pack [(1, b2n (next != 0)), (2, next)]) (s.setMail (fun x => { x with lockout := BitVec.ofNat 16 next }))), []) }))

/-- The fields of DEBUG_UNLOCK: STEP, and BLOB_BYTES of a response. -/
def unlockBad (r : Bytes) : List (Nat × Bool) :=
  let step := fld r 0x10 1
  [(0x10, decide (2 < step)), gap r 0x11 1, (0x12, fld r 0x12 2 != if step = 1 then 160 else 0)]

/-- The challenge blob (20, Table: Unlock blobs). -/
def State.challengeBlob (s : State) (nonce : Nat) : Bytes := le 8 s.ident.serial.toNat ++ le 48 nonce ++ le 4 s.sec.epoch ++ zeros 4

/-- DEBUG_UNLOCK STEP 0x00 (R865, R866): the NONCE is open. -/
def execDebugUnlockChallenge (mb : Mbox) (s : State) : Host.Outcome State Fault Refusal :=
  let step := fld (s.requestOf 0x0805 mb) 0x10 1
  .next (if step = 1 ∨ step = 2 then s else runCmd 0x0805 mb s (fun r s =>
    { bad := unlockBad r
      state := s.sec.ownerKey.isNone
      needs := some []
      run := fun _ s =>
        let nonce := s.free % 2 ^ 384
        ((s.took 1).setSec (fun c => { c with challenge := some (nonce, s.clk.tick) }), s.challengeBlob nonce) }))

/-- DEBUG_UNLOCK STEP 0x01 (R865-R867): `sigOk` says that the owner's signature verifies (log 8). The challenge is used up. -/
def execDebugUnlockResponse (mb : Mbox) (sigOk : Bool) (s : State) : Host.Outcome State Fault Refusal :=
  .next (if fld (s.requestOf 0x0805 mb) 0x10 1 ≠ 1 then s
    else
      let used := runCmd 0x0805 mb s (fun r s =>
        let good : Bool := match s.sec.challenge with | some (n, _) => (r.drop 0x14).take 64 == s.challengeBlob n && sigOk | none => false
        { bad := unlockBad r
          state := match s.sec.challenge with | some (_, t) => decide (t + 60000000 < s.clk.tick) | none => true
          needs := some []
          own := [(!good, rcSignature)]
          run := fun _ s => (unlockDebug s, []) })
      -- a response that was judged uses its challenge up, whatever its outcome
      if fld (used.requestOf 0x0805 mb) 0x10 1 = 1 then used else used.setSec (fun c => { c with challenge := none }))

/-- DEBUG_UNLOCK STEP 0x02 (R868). -/
def execDebugRelock (mb : Mbox) (s : State) : Host.Outcome State Fault Refusal :=
  .next (if fld (s.requestOf 0x0805 mb) 0x10 1 ≠ 2 then s else runCmd 0x0805 mb s (fun r _ =>
    { bad := unlockBad r
      needs := some []
      run := fun _ s => (relockDebug s, []) }))

/-- FW_UPDATE (R851, R852, R721): one at a time. -/
def execFwUpdate (mb : Mbox) (s : State) : Host.Outcome State Fault Refusal :=
  .next (runCmd 0x0806 mb s (fun r s =>
    { bad := [(0x14, expert r && decide (1 < fld r 0x14 1))]
      busy := [(s.uploading 0x0806, 1)]
      needs := some []
      run := fun op s => (beginUpload op 0x0806 (fld r 0x10 4) (if expert r then fld r 0x14 1 else 0) s, []) }))

/-- OWNERSHIP_READ (R268). -/
def execOwnershipRead (mb : Mbox) (s : State) : Host.Outcome State Fault Refusal :=
  .next (runCmd 0x0807 mb s (fun _ _ => { run := fun _ s =>
    (s, fit 4 (le 2 cmdTable.length) ++ cmdTable.flatMap (fun c => le 2 c.1 ++ le 1 c.2.1 ++ le 1 0)) }))

/-! ## Fabric and Almanac (0x09xx) -/

/-- PORT names a port: a number above 11 names none (R9), and one of 0-11 that the variant lacks is absent (R3). -/
def State.portAbsent (s : State) (n : Nat) : Bool := decide (n < 12) && !s.ident.variant.hasPort n

/-- FAB_STATUS: one record per port present, or of the port named. -/
def execFabStatus (mb : Mbox) (s : State) : Host.Outcome State Fault Refusal :=
  .next (runCmd 0x0901 mb s (fun r s =>
    let x := expert r
    let n := fld r 0x10 1
    let ports := if x then [n] else s.portList
    { absent := x && s.portAbsent n
      bad := [(0x10, x && decide (11 < n))]
      run := fun _ s => (s, ports.flatMap (fun p =>
        let y := s.port p
        le 1 p ++ le 1 y.state ++ le 1 (b2n y.foreign + 2 * b2n (s.alm.upstream == p)) ++ le 1 y.hops ++ le 2 y.peer ++ zeros 2 ++ le 4 y.delay ++ le 4 y.ueSinceUp)) }))

/-- A port is switched off or on (R553, R706, R710): off, it loses what it had; on, it enters Listen. -/
def setFabPort (n : Nat) (on : Bool) (s : State) : State :=
  let x := s.port n
  if on then (let s1 := s.setPort n { x with disabled := false }; if s.start.listening then portsListen s1 else s1)
  else
    let s1 := s.setPort n { x with disabled := true, state := portOff, foreign := false, peerDomain := none, chanDelay := none, call := false }
    if x.isUp then intcBoth (88 + n) (noticeFabric n 2 s1) else s1

/-- FAB_PORT. -/
def execFabPort (mb : Mbox) (s : State) : Host.Outcome State Fault Refusal :=
  .next (runCmd 0x0902 mb s (fun r s =>
    let n := fld r 0x10 1
    { absent := s.portAbsent n
      bad := [(0x10, decide (11 < n)), (0x11, decide (1 < fld r 0x11 1))]
      needs := some [.port n]
      run := fun op s => (endOp op 0 0 (setFabPort n (fld r 0x11 1 == 1) s), []) }))

/-- ALMANAC_JOIN (R527, R528, R646). The DEVICE of a number that the domain has yet to assign is open. -/
def execAlmanacJoin (mb : Mbox) (s : State) : Host.Outcome State Fault Refusal :=
  .next (runCmd 0x0903 mb s (fun r s =>
    let x := expert r
    let source := flagOf r 0x16 0
    { bad := [(0x14, x && decide (4095 < fld r 0x14 2)), flagBad r 0x16 1]
      state := s.pwr.state == 3 || s.alm.state != almNone
      needs := some [.alm]
      run := fun op s =>
        let named := if x then some (fld r 0x14 2) else none
        (joinStart (fld r 0x10 4) named source op (s.took 1), le 2 (named.getD (s.free % 4096))) }))

/-- ALMANAC_LEAVE (R529, R530): with FORCE the jobs that own slots are killed first, and the leave takes effect at once. -/
def execAlmanacLeave (mb : Mbox) (s : State) : Host.Outcome State Fault Refusal :=
  .next (runCmd 0x0904 mb s (fun r s =>
    let force := flagOf r 0x10 0
    let owning := s.jobs.any (fun e => match (s.parts.val e.2.part {}).season with | some x => x.ownsSlots | none => false)
    { bad := [flagBad r 0x10 1]
      state := !s.alm.belongs || s.alm.state == almLeaving || (owning && !force)
      needs := some [.alm]
      run := fun op s => (endOp op 0 0 (if force then leaveDone (leaveStart (killSlotJobs stJobLost 1 s)) else leaveStart s), []) }))

/-- SEMAPHORE_GRANT: COUNT consecutive semaphores; PERMS 0 revokes. -/
def execSemaphoreGrant (mb : Mbox) (s : State) : Host.Outcome State Fault Refusal :=
  .next (runCmd 0x0905 mb s (fun r _ =>
    let h := fld r 0x10 1
    let m := fld r 0x12 2
    let dev := fld r 0x14 2
    let perms := fld r 0x16 1
    let n := if expert r then fld r 0x18 2 else 1
    { bad := [(0x10, decide (1 < h)), gap r 0x11 1, (0x12, decide (2047 < m)), (0x14, decide (4095 < dev) && dev != 0xFFFF), (0x16, decide (3 < perms)),
        (0x17, expert r && fld r 0x17 1 != 0), (0x18, decide (n < 1 ∨ 2048 < m + n))]
      needs := some ((List.range (min n 2048)).map (fun i => LockObj.sem (2048 * h + m + i)))
      run := fun _ s =>
        let g : SemGrant :=
          { device := if dev = 0xFFFF then 0 else dev
            any := decide (dev = 0xFFFF)
            signal := bit perms 0
            read := bit perms 1 }
        (s.setAlm (fun a => { a with grants := (List.range n).foldl (fun t i => t.put (2048 * h + m + i) (if perms = 0 then {} else g)) a.grants }), []) }))

end Sys2Proof.Machine
end

