-- ==== Sys2Proof/Machine/Regs.lean ====
section
/-! DEFINITION. The register space: where each register lies, what a read returns and clears, what a write does, and the rules of split,
paired and misaligned accesses (00_scope.md, Data layout and register conventions, and the register tables of every chapter). -/

namespace Sys2Proof.Machine

open Sys2Proof

/-- The next state of an outcome that is one. -/
def afterOf (o : Host.Outcome State Fault Refusal) (s : State) : State := match o with | .next t => t | _ => s

/-! ## What each block reads

Each function below gives a register's whole value at its offset: 64 bits where `wide` says so, 32 otherwise. -/

/-- A doorbell page (02, Doorbell page; R47). -/
def State.bellPeek (s : State) (f off : Nat) : Nat :=
  match s.qps.look (qpKey f (off / 0x1000)) with
  | none => 0
  | some q =>
    match off % 0x1000 with
    | 0x00 => q.sqTail
    | 0x04 => q.cqHead
    | 0x08 => q.sqHead
    | 0x0C => q.state + 8 * b2n q.cqFull + 16 * b2n q.parked.isSome + 32 * b2n q.lc + 256 * q.qfe + 4096 * q.vector + 2 ^ 24 * q.errReason
    | 0x10 => q.modCount + 65536 * q.modTime
    | _ => 0

/-- The capability registers (02, Capability registers; R962). -/
def State.capPeek (s : State) (f off : Nat) : Nat :=
  match off with
  | 0x800 => 0x00020201
  | 0x804 => (if f = 512 then 16 + 32 * 32 else (s.fn f).quotas.qp + 32 * (s.fn f).quotas.vec) + 65536 * 6 + 2 ^ 21 * 16
  | 0x808 => 0x1F
  | 0x80C => (s.svcList f).length + 65536 * (s.fn f).capEpoch.toNat
  | _ => 0

/-- A mailbox's registers and buffers (06, Mailbox registers). -/
def State.boxPeek (s : State) (m : Mbox) (off : Nat) : Nat :=
  let b := s.box m
  if off = 0 then 256 * b2n b.doneIrq + 512 * b2n b.noticeIrq
  else if off = 4 then b.state + 4 * b2n (b.head != b.tail) + 8 * b2n b.lostBit
  else if off = 8 then b.head
  else if off = 0xC then b.tail
  else if off = 0x10 then b.lostCount
  else if off = 0x14 then b.mask.toNat
  else if 0x100 ≤ off ∧ off < 0x300 then ofLe (b.req.read (off - 0x100) 4)
  else if 0x300 ≤ off ∧ off < 0x500 then fld b.rsp (off - 0x300) 4
  else if 0x600 ≤ off ∧ off < 0x800 then fld (b.ring.val ((off - 0x600) / 32) []) ((off - 0x600) % 32) 4
  else 0

/-- The identity block (21). -/
def State.idPeek (s : State) (off : Nat) : Nat :=
  match off with
  | 0x00 => s.likeness
  | 0x08 => if s.ident.fusesRead then s.ident.serial.toNat else 0
  | 0x10 => s.ident.fwVersion.toNat
  | 0x14 => s.ident.romVersion.toNat
  | 0x18 => if s.ident.fusesRead then s.ident.stepping.toNat else 0
  | 0x20 => b2n s.pins.x8 + 2 * s.pins.smbAddr.toNat + 16 * b2n s.pins.enroll
  | _ => 0

/-- Entries of a sequence-table block that pass a test. -/
def State.seqCount (s : State) (h : Nat) (p : SeqEntry → Bool) : Nat := (s.seqs.filter (fun e => decide (e.1 / 8192 = h) && p e.2)).length

/-- Request slots that tiles have taken of a solver: credits used and not in flight (R586). -/
def State.reqSlotsUsed (s : State) (h : Nat) : Nat :=
  s.tiles.foldl (fun n t => t.2.chans.foldl (fun n c => if c.2.conf ∧ c.2.dst = 768 + h then n + (c.2.credits - c.2.avail - c.2.flying) else n) n) 0

/-- A solver's registers (13). -/
def State.solverPeek (s : State) (h off : Nat) : Nat :=
  let v := s.solver h
  let live := v.skels.filter (fun k => k.2.used)
  match off with
  | 0x00 => live.length + 65536 * v.ctxs.length
  | 0x08 => (12288 - live.foldl (fun n k => n + k.2.blocks) 0) + 65536 * (1024 - s.reqSlotsUsed h)
  | 0x10 => v.partials + 65536 * v.pivot + 2 ^ 32 * v.poisoned + 2 ^ 48 * sat 16 (live.foldl (fun n k => n + k.2.queue.length) 0)
  | 0x18 => v.latency
  | _ => 0

/-- The sequence block (04, 13). -/
def State.seqPeek (s : State) (off : Nat) : Nat :=
  let use (h : Nat) : Nat := s.seqCount h (fun e => e.state != 0) + 65536 * s.seqCount h (fun e => e.state == 2)
  if off = 0 then use 0
  else if off = 4 then use 1
  else if off = 8 then s.buildMax.val 0 0
  else if off = 0xC then s.buildMax.val 1 0
  else if 0x1000 ≤ off ∧ off < 0x1080 then s.solverPeek ((off - 0x1000) / 0x40) ((off - 0x1000) % 0x40)
  else 0

/-- The VF block: LQI_VF_STATE and the slice record (05). -/
def State.vfPeek (s : State) (off : Nat) : Nat :=
  let v := off / 0x80
  let o := off % 0x80
  let x := s.fn v
  if x.state = 0 then 0
  else if o = 0 then x.state + 8 * b2n x.reclaiming + 16 * b2n (s.orphans v) + 65536 * x.gen.toNat
  else if 0x40 ≤ o then fld (s.quotaRecord v) (o - 0x40) 4
  else 0

/-- Tags that a partition's tiles hold (11 PART_TAGS). -/
def State.tagsHeld (s : State) (p : Nat) : Nat := (s.mem.xfers.filter (fun x => decide (x.2.part = p) && x.2.tile.isSome)).length

/-- A partition's block (07, 10, 11, 17). -/
def State.partPeek (s : State) (p off : Nat) : Nat :=
  match s.parts.look p with
  | none => 0
  | some q =>
    match off with
    | 0x40 => s.partState p + 256 * (s.jobsOf p).length + 65536 * q.runJob.getD 0 + 2 ^ 22 * b2n q.runJob.isSome + 2 ^ 23 * b2n q.spanning
        + 2 ^ 24 * b2n q.staged.isSome + 2 ^ 25 * b2n (q.reload != [])
    | 0x48 => setBits q.cols
    | 0x50 => q.chanLo
    | 0x58 => q.chanHi
    | 0x60 => q.seasonId
    | 0x68 => q.index + 65536 * q.windows
    | 0x70 => q.detail.val 0 0 + 65536 * q.detail.val 1 0 + 2 ^ 32 * q.detail.val 2 0 + 2 ^ 48 * q.detail.val 3 0
    | 0x78 => q.switchMax
    | 0x80 => (q.regs.val 0 {}).rate + 2 ^ 32 * (q.regs.val 0 {}).burst
    | 0x88 => (q.regs.val 1 {}).rate + 2 ^ 32 * (q.regs.val 1 {}).burst
    | 0x90 => (q.regs.val 2 {}).rate + 2 ^ 32 * (q.regs.val 2 {}).burst
    | 0x98 => (q.regs.val 3 {}).rate + 2 ^ 32 * (q.regs.val 3 {}).burst
    | 0xA0 => q.nackDark + 65536 * q.nackReset + 2 ^ 32 * q.nackRoute
    | 0xC0 => q.xfVa
    | 0xC8 => q.xfInfo.toNat
    | 0xD0 => q.holds + 65536 * q.maxTicks + 2 ^ 32 * q.faults
    | 0xD8 => s.tagsHeld p + 65536 * (512 * q.cols.length)
    | 0xE0 => q.memCe + 65536 * q.memUe + 2 ^ 32 * q.retired
    | 0x100 => q.fraction + 8 * (match q.season with | some x => x.fracMax | none => 0) + 64 * b2n q.tableValid
    | 0x108 => q.compares + 2 ^ 32 * q.mismatches + 2 ^ 48 * q.lastLayer
    | _ => 0

/-- The bit of PWR_DOMAINS of a domain (15). -/
def PowerDomain.bitNo : PowerDomain → Option Nat
  | .column _ => none
  | .stack k => some k
  | .spine h => some (8 + h)
  | .halfLink h => some (10 + h)
  | .solver h => some (12 + h)
  | .seq h => some (14 + h)
  | .qfe => some 16
  | .fabric p => some (17 + p)

/-- The codes of PWR_THERMAL.SOURCE for the dies of the part. -/
def dieList : List Nat := [0, 1, 2, 3, 4, 5, 8, 9, 10, 11, 12, 13, 14, 15]

/-- The hottest die, the lowest code of several (21 PWR_THERMAL; log 38). -/
def State.hottestDie (s : State) : Nat :=
  dieList.foldl (fun m d => if s.pwr.temps.val m 0 < s.pwr.temps.val d 0 then d else m) 0

/-- The power block (15, 16, 18, 21, 22). -/
def State.pwrPeek (s : State) (off : Nat) : Nat :=
  let w := s.pwr
  let cols (h : Nat) : Nat := (List.range 24).foldl (fun n x => n + w.cols.val (24 * h + x) 0 * 2 ^ (2 * x)) 0
  match off with
  | 0x00 => w.state + 4 * b2n w.ready + 65536 * w.wakeSource
  | 0x08 => s.clk.tick
  | 0x10 => cols 0
  | 0x18 => cols 1
  | 0x20 => setBits (w.domains.filterMap PowerDomain.bitNo)
  | 0x28 => w.quietLate + 65536 * w.unplannedWakes + 2 ^ 32 * w.gateDeferred
  | 0x30 => w.energy
  | 0x38 => s.start.stage + 16 * s.start.fail + 256 * s.start.fwSlot + 512 * b2n s.start.warm + 65536 * setBits s.start.stacksFailed
      + 2 ^ 32 * s.start.readyMs + 2 ^ 48 * s.start.earlyWrites
  | 0x40 => w.beats.val 0 0 + 65536 * w.beats.val 1 0 + 2 ^ 32 * w.beats.val 2 0 + 2 ^ 48 * w.beats.val 3 0
  | 0x48 => w.missed.val 0 0 + 8 * w.missed.val 1 0 + 64 * w.missed.val 2 0 + 512 * w.missed.val 3 0 + 4096 * min 2 w.stallTicks.length
  | 0x50 => w.partResets + 65536 * w.cpRestarts + 2 ^ 32 * w.warmResets + 2 ^ 48 * w.killEscalations
  | 0x58 => w.lastCause + 256 * w.lastUnit + 65536 * w.lastIndex
  | 0x60 => w.rails.toNat
  | 0x68 => w.temps.val s.hottestDie 0 + 256 * w.tempMax + 65536 * s.hottestDie + 2 ^ 20 * b2n (w.alerts != []) + 2 ^ 21 * b2n w.tripped
  | 0x70 => w.auditMonths + 2 ^ 32 * w.auditFails + 2 ^ 48 * w.lastBook
  | _ => 0

/-- The lanes' owners, four bits each (10 FAB_HL_LANES). -/
def State.lanesPeek (s : State) : Nat :=
  (List.range 16).foldl (fun n l =>
    let v := if l = 15 then 0xE else match s.parts.find? (fun e => e.2.lanes.contains l) with | some e => e.1 | none => 0xF
    n + v * 2 ^ (4 * l)) 0

/-- FAB_JOB_SILENTj (12; R546): the highest count, the lowest peer that holds it (log 38), the grace and the total. -/
def State.silentPeek (s : State) (j : Nat) : Nat :=
  match s.jobs.look j with
  | none => 0
  | some b =>
    let top := b.peers.foldl (fun (m : Nat × Nat) e => if m.1 < e.2 then (e.2, e.1) else m) (0, 0)
    let owns : Bool := match (s.parts.val b.part {}).season with | some x => x.ownsSlots | none => false
    top.1 + 256 * top.2 + 2 ^ 20 * b2n (owns && decide (b.fabMonths < 256)) + 2 ^ 32 * b.silentTotal

/-- A signed number of tenths of a nanosecond in 16 bits. -/
def skewBits (e : Int) : Nat := (BitVec.ofInt 16 (max (-32768) (min 32767 e))).toNat

/-- A fabric port's registers (12). -/
def State.portPeek (s : State) (n off : Nat) : Nat :=
  let x := s.port n
  if !s.ident.variant.hasPort n then 0
  else
    match off with
    | 0x00 => x.state + 8 * b2n x.foreign + 16 * b2n (decide (s.alm.upstream = n)) + 65536 * x.peer
    | 0x08 => x.delay
    | 0x10 => x.ce + 65536 * x.ue + 2 ^ 32 * x.silent + 2 ^ 48 * x.discard
    | _ => 0

/-- The fabric block (10, 12). -/
def State.fabPeek (s : State) (off : Nat) : Nat :=
  let a := s.alm
  let l := s.hl
  let nack (h : Nat) : Nat := l.nackDark.val h 0 + 65536 * l.nackReset.val h 0 + 2 ^ 32 * l.nackRoute.val h 0 + 2 ^ 48 * b2n (l.meshAudit.contains h)
  let errs (h : Nat) : Nat := l.meshCe.val h 0 + 65536 * l.meshUeData.val h 0 + 2 ^ 32 * l.meshUeHead.val h 0
  let cred (n : Nat) : Nat := (1920 - l.ttAvail.val n 0) + 65536 * (128 - l.ctlAvail.val n 0)
  if off < 0x300 then s.portPeek (off / 0x40) (off % 0x40)
  else if off = 0x400 then a.state + 8 * b2n a.root + 256 * a.upstream + 4096 * a.hops + 65536 * a.device
  else if off = 0x408 then a.domain
  else if off = 0x410 then a.month
  else if off = 0x418 then skewBits a.skewLast + 65536 * a.skewMax
  else if 0x800 ≤ off ∧ off < 0xA00 then s.silentPeek ((off - 0x800) / 8)
  else if 0x10000 ≤ off ∧ off < 0x18000 then (a.sems.val ((off - 0x10000) / 8) 0).toNat
  else if 0x20000 ≤ off ∧ off < 0x24000 then
    let g := a.grants.val ((off - 0x20000) / 4) {}
    g.device + 4096 * b2n g.any + 8192 * b2n g.signal + 16384 * b2n g.read
  else if off = 0x80000 then l.state + 4 * b2n l.audit + 256 * (15 - (s.parts.foldl (fun n e => n + e.2.lanes.length) 0))
  else if off = 0x80008 then s.lanesPeek
  else if off = 0x80010 then cred 0
  else if off = 0x80018 then cred 1
  else if off = 0x80020 then l.ce + 65536 * l.ue
  else if off = 0x80040 then nack 0
  else if off = 0x80048 then nack 1
  else if off = 0x80050 then errs 0
  else if off = 0x80058 then errs 1
  else 0

/-- The security status block (19). -/
def State.secPeek (s : State) (off : Nat) : Nat :=
  let c := s.sec
  if off < 0x800 then s.boxPeek .sec off
  else if off = 0x800 then
    b2n c.ownerKey.isSome + 2 * b2n (s.mail.lockout != 0) + 4 * b2n c.unlocked + 8 * b2n c.turnover.isSome + 16 * c.sessions.length
      + 128 * b2n c.linkIde.isSome + 256 * setBits c.selIde.keys + 4096 * c.activeFw + 8192 * b2n c.mgmt.isSome
  else if off = 0x808 then c.epoch
  else if off = 0x810 then c.violations + 65536 * c.vMaster + 2 ^ 32 * c.vTarget + 2 ^ 36 * c.vNeed
  else if 0x1000 ≤ off ∧ off < 0x1080 then
    let n := (off - 0x1000) / 4
    (List.range 16).foldl (fun m i => m + (s.fn (16 * n + i)).tdi * 2 ^ (2 * i)) 0
  else 0

/-- The debug block; locked, it reads 0 but for DBG_STATE (20; R869). -/
def State.dbgPeek (s : State) (off : Nat) : Nat :=
  let d := s.dbg
  if off = 0 then b2n s.sec.unlocked + 2 * b2n s.sec.since
  else if !s.sec.unlocked then 0
  else if off = 8 then b2n d.faultStop
  else if off = 0x10 then d.winBase * 2 ^ 18
  else if 0x40 ≤ off ∧ off < 0x80 then
    match s.parts.look ((off - 0x40) / 8) with
    | none => 0
    | some q =>
      let t := q.stop
      t.state + 4 * t.cause + 64 * b2n t.lockWait + 128 * b2n t.killPending + 256 * t.tile + 2 ^ 24 * t.bp + 2 ^ 32 * t.pc
  else if 0x100 ≤ off ∧ off < 0x200 then
    let b := d.bps.val ((off - 0x100) / 8) {}
    b2n b.enable + 65536 * b.tile + 2 ^ 32 * b.pc
  else if off = 0x200 then d.next + 2 ^ 15 * b2n d.wrapped + 65536 * d.lost
  else if 0x80000 ≤ off ∧ off < 0x100000 then
    let e := d.ring.val ((off - 0x80000) / 16) {}
    match (off - 0x80000) % 16 with
    | 0 => e.kind + 256 * e.job + 65536 * e.tile
    | 4 => e.pc
    | 8 => e.offset
    | _ => e.data
  else 0

/-- MSI-X table and pending-bit array: 64 vectors on the PF, 32 on a VF (02, 05; R75). -/
def State.msixPeek (s : State) (f off : Nat) : Nat :=
  let x := s.fn f
  if off < (if f = 512 then 0x400 else 0x200) then
    if off % 16 = 12 then b2n (!x.vecUnmasked.contains (off / 16)) else (x.msixTable.val (off / 4) 0).toNat
  else if off = 0x800 then setBits (x.vecPending.filter (fun v => decide (v < 64)))
  else 0

/-- The recovery configuration answers these PF registers alone (R720). -/
def recoveryReg (bar off : Nat) : Bool :=
  decide (bar = 2 ∧ ((off < 0x4000 ∧ off % 0x1000 < 0x800) ∨ (0x10000 ≤ off ∧ off < 0x20000) ∨ (0x500000 ≤ off ∧ off < 0x500800)
    ∨ off = 0x300000 ∨ (0x300008 ≤ off ∧ off < 0x300010) ∨ (0x300038 ≤ off ∧ off < 0x300040)))

/-- The whole value of the register at an offset of a function's BAR, with no read effect; a reserved offset reads 0 (R5). -/
def State.regPeek (s : State) (f bar off : Nat) : Nat :=
  if s.start.recoveryCfg && !recoveryReg bar off then 0
  else if bar = 0 then (if off < 0x10000 then s.bellPeek f off else 0)
  else if bar = 4 then (if off < 0x1000 then s.msixPeek f off else 0)
  else if bar ≠ 2 then 0
  else if f ≠ 512 then
    if off < 0x800 then s.boxPeek (.vf f) off else if off < 0x820 then s.capPeek f off else 0
  else if off < 0x4000 then
    if off % 0x1000 < 0x800 then s.boxPeek (.pf (off / 0x1000)) (off % 0x1000) else if off < 0x820 then s.capPeek 512 off else 0
  else if 0x10000 ≤ off ∧ off < 0x20000 then s.idPeek (off - 0x10000)
  else if 0x20000 ≤ off ∧ off < 0x30000 then s.seqPeek (off - 0x20000)
  else if 0x40000 ≤ off ∧ off < 0x50000 then s.vfPeek (off - 0x40000)
  else if 0x100000 ≤ off ∧ off < 0x200000 then s.partPeek ((off - 0x100000) / 0x20000) (off % 0x20000)
  else if 0x200000 ≤ off ∧ off < 0x300000 then
    let h := (off - 0x200000) / 0x80000
    let o := off % 0x80000
    s.intcPeek h o + (if o = 0x10 then 2 ^ 32 * s.intcPeek h 0x14 else 0)
  else if 0x300000 ≤ off ∧ off < 0x400000 then s.pwrPeek (off - 0x300000)
  else if 0x400000 ≤ off ∧ off < 0x500000 then s.fabPeek (off - 0x400000)
  else if 0x500000 ≤ off ∧ off < 0x600000 then s.secPeek (off - 0x500000)
  else if 0x600000 ≤ off ∧ off < 0x700000 then s.dbgPeek (off - 0x600000)
  else 0

/-- The eight bytes at an 8-byte aligned offset are one 64-bit register. -/
def regWide (f bar off : Nat) : Bool :=
  if bar = 4 then off == 0x800
  else if bar ≠ 2 ∨ f ≠ 512 then false
  else if 0x10000 ≤ off ∧ off < 0x20000 then [0x10000, 0x10008].contains off
  else if 0x20000 ≤ off ∧ off < 0x30000 then [0x21010, 0x21050].contains off
  else if 0x100000 ≤ off ∧ off < 0x200000 then
    [0x48, 0x50, 0x58, 0x60, 0x70, 0x80, 0x88, 0x90, 0x98, 0xA0, 0xC0, 0xC8, 0xD0, 0xE0, 0x108].contains (off % 0x20000)
  else if 0x200000 ≤ off ∧ off < 0x300000 then off % 0x80000 == 0x10
  else if 0x300000 ≤ off ∧ off < 0x400000 then [0x08, 0x10, 0x18, 0x28, 0x30, 0x38, 0x40, 0x50, 0x70].contains (off - 0x300000)
  else if 0x400000 ≤ off ∧ off < 0x500000 then
    let o := off - 0x400000
    decide (o < 0x300 ∧ o % 0x40 = 0x10 ∨ 0x800 ≤ o ∧ o < 0xA00 ∨ 0x10000 ≤ o ∧ o < 0x18000) || [0x410, 0x80008, 0x80040, 0x80048, 0x80050, 0x80058].contains o
  else if 0x600000 ≤ off ∧ off < 0x700000 then decide (0x600040 ≤ off ∧ off < 0x600080 ∨ 0x600100 ≤ off ∧ off < 0x600200)
  else off == 0x500810

/-! ## Read effects (R11) -/

/-- The clear of a solver's RC fields; the poison that source 156 reports has then been seen (log 39). -/
def clearSolver (h off : Nat) (s : State) : State :=
  if off = 0x10 then intcLevel h (srcKey 0 156) false (s.modSolver h (fun v => { v with partials := 0, pivot := 0, poisoned := 0 }))
  else if off = 0x18 then s.modSolver h (fun v => { v with latency := 0 })
  else s

/-- The clear of a partition's RC fields. -/
def Part.clear (q : Part) (off : Nat) : Part :=
  match off with
  | 0x78 => { q with switchMax := 0 }
  | 0xA0 => { q with nackDark := 0, nackReset := 0, nackRoute := 0 }
  | 0xD0 => { q with holds := 0, maxTicks := 0, faults := 0 }
  | 0xE0 => { q with memCe := 0, memUe := 0 }
  | 0x108 => { q with compares := 0, mismatches := 0 }
  | _ => q

/-- The clear of the fabric block's RC fields. -/
def clearFab (off : Nat) (s : State) : State :=
  if off < 0x300 ∧ off % 0x40 = 0x10 then s.modPort (off / 0x40) (fun x => { x with ce := 0, ue := 0, silent := 0, discard := 0 })
  else if off = 0x418 then s.setAlm (fun a => { a with skewMax := 0 })
  else if 0x800 ≤ off ∧ off < 0xA00 then s.modJob ((off - 0x800) / 8) (fun b => { b with silentTotal := 0 })
  else if off = 0x80020 then s.setHl (fun l => { l with ce := 0, ue := 0 })
  else if off = 0x80040 ∨ off = 0x80048 then
    let h := (off - 0x80040) / 8
    s.setHl (fun l => { l with nackDark := l.nackDark.del h, nackReset := l.nackReset.del h, nackRoute := l.nackRoute.del h })
  else if off = 0x80050 ∨ off = 0x80058 then
    let h := (off - 0x80050) / 8
    s.setHl (fun l => { l with meshCe := l.meshCe.del h, meshUeData := l.meshUeData.del h, meshUeHead := l.meshUeHead.del h })
  else s

/-- The mailbox at an offset of a function's BAR2. -/
def boxAtOff (f off : Nat) : Option (Mbox × Nat) :=
  if f ≠ 512 then (if off < 0x800 then some (.vf f, off) else none)
  else if off < 0x4000 ∧ off % 0x1000 < 0x800 then some (.pf (off / 0x1000), off % 0x1000)
  else if 0x500000 ≤ off ∧ off < 0x500800 then some (.sec, off - 0x500000)
  else none

/-- What a read does beside returning the value: the RC fields of the register clear (R11). The PF reads INTC registers without effect (R631). -/
def regClear (f bar off : Nat) (s : State) : State :=
  if bar ≠ 2 ∨ (s.start.recoveryCfg && !recoveryReg bar off) then s
  else
    match boxAtOff f off with
    | some (m, o) => if o = 0x10 then s.setBox m { s.box m with lostCount := 0 } else s
    | none =>
      if f ≠ 512 then s
      else if off = 0x20008 ∨ off = 0x2000C then { s with buildMax := s.buildMax.del ((off - 0x20008) / 4) }
      else if 0x21000 ≤ off ∧ off < 0x21080 then clearSolver ((off - 0x21000) / 0x40) (off % 0x40) s
      else if 0x100000 ≤ off ∧ off < 0x200000 then s.modPart ((off - 0x100000) / 0x20000) (fun q => q.clear (off % 0x20000))
      else if off = 0x300028 then s.setPwr (fun w => { w with quietLate := 0, unplannedWakes := 0, gateDeferred := 0 })
      else if off = 0x300038 then s.setStart (fun x => { x with earlyWrites := 0 })
      else if off = 0x300068 then s.setPwr (fun w => { w with tempMax := 0 })
      else if off = 0x300070 then s.setPwr (fun w => { w with auditFails := 0 })
      else if 0x400000 ≤ off ∧ off < 0x500000 then clearFab (off - 0x400000) s
      else if off = 0x500810 then s.setSec (fun c => { c with violations := 0 })
      else if off = 0x600200 then (if s.sec.unlocked then s.setDbg (fun d => { d with lost := 0 }) else s)
      else s

/-! ## Writes (R5, R7, R11) -/

/-- A write to a mailbox's registers or its request buffer. -/
def boxPoke (m : Mbox) (off : Nat) (v : Nat) (s : State) : State :=
  let b := s.box m
  if off = 0 then
    let s1 := s.setBox m { b with doneIrq := bit v 8, noticeIrq := bit v 9 }
    if bit v 0 then afterOf (execGo m s1) s1 else if bit v 1 then afterOf (execAck m s1) s1 else s1
  else if off = 4 then s.setBox m { b with lostBit := b.lostBit && !bit v 3 }
  else if off = 8 then afterOf (execMbNoticeHead m v s) s
  else if off = 0x14 then s.setBox m { b with mask := BitVec.ofNat 32 v &&& 0x1FFE }
  else if 0x100 ≤ off ∧ off < 0x300 then s.setBox m { b with req := b.req.write (off - 0x100) (le 4 v) }
  else s

/-- R887: source 6 at the CP, and a dump of sections 0 and 1. -/
def cpRequest (c : Nat) (s : State) : State := beginCapture 1 3 none (intcEdge (c / 2) (srcKey (c % 2) 6) s)

/-- The TILE value names a tile by its logical row (20 DBG_BPn; others are reserved, R7). -/
def tileNameOk (n : Nat) : Bool := (logOfName n).isSome

/-- A write to the debug block while debug is unlocked (20; R869, R887). -/
def dbgPoke (off : Nat) (v : Nat) (s : State) : State :=
  if !s.sec.unlocked then s
  else if off = 8 then
    let s1 := s.setDbg (fun d => { d with faultStop := bit v 0 })
    forEach ((List.range 4).filter (fun c => bit v (8 + c))) s1 (fun s c => cpRequest c s)
  else if off = 0x10 then s.setDbg (fun d => { d with winBase := bits v 20 18 })
  else if 0x100 ≤ off ∧ off < 0x200 then
    let n := (off - 0x100) / 8
    s.setDbg (fun d =>
      let b := d.bps.val n {}
      let t := bits v 31 16
      let pc := bits v 52 32
      { d with bps := d.bps.put n { enable := bit v 0, tile := if tileNameOk t then t else b.tile, pc := if pc % 4 = 0 then pc else b.pc } })
  else s

/-- A write of a whole register: its fields act by their types (R11). The device ignores PF writes to INTC registers (R632). -/
def regPoke (f bar off : Nat) (v : Nat) (s : State) : State :=
  if s.start.recoveryCfg && !recoveryReg bar off then s
  else if bar = 0 then
    let n := off / 0x1000
    if 0x10000 ≤ off then s
    else if off % 0x1000 = 0 then afterOf (execLqiSqTail f n v s) s
    else if off % 0x1000 = 4 then afterOf (execLqiCqHead f n v s) s
    else if off % 0x1000 = 0x10 then afterOf (execLqiCqMod f n v s) s
    else s
  else if bar = 4 then
    if off < (if f = 512 then 0x400 else 0x200) then
      if off % 16 = 12 then afterOf (execMsixMaskChange f (.vector (off / 16) (bit v 0)) s) s
      else s.modFn f (fun x => { x with msixTable := x.msixTable.put (off / 4) (BitVec.ofNat 32 v) })
    else s
  else if bar ≠ 2 then s
  else
    match boxAtOff f off with
    | some (m, o) => boxPoke m o v s
    | none =>
      if f ≠ 512 then s
      else if off = 0x300060 then s.setPwr (fun w => { w with rails := w.rails &&& ~~~(BitVec.ofNat 9 v) })
      else if off = 0x300068 then s.setPwr (fun w => { w with tripped := w.tripped && !bit v 21 })
      else if 0x410000 ≤ off ∧ off < 0x418000 then s.setAlm (fun a => { a with sems := a.sems.put ((off - 0x410000) / 8) (BitVec.ofNat 64 v) })
      else if off = 0x480000 then s.setHl (fun l => { l with audit := l.audit && !bit v 2 })
      else if off = 0x480040 ∨ off = 0x480048 then
        s.setHl (fun l => { l with meshAudit := if bit v 48 then l.meshAudit.filter (· != (off - 0x480040) / 8) else l.meshAudit })
      else if 0x600000 ≤ off ∧ off < 0x700000 then dbgPoke (off - 0x600000) v s
      else s

/-! ## Accesses (R12-R16, R697, R817, R818, R822, R942) -/

/-- An access of the host: aligned, of 32 or 64 bits. -/
def regAligned (a : RegAccess) : Bool := decide ((a.size = 4 ∧ a.off % 4 = 0) ∨ (a.size = 8 ∧ a.off % 8 = 0))

/-- The number of a register in the tables of half latches. -/
def latchKey (f bar off : Nat) : Nat := (8 * f + bar) * 2 ^ 32 + off

/-- The space answers: configuration ready, PERST# released, the clocks run, and the function exists. -/
def State.regSpace (s : State) (a : RegAccess) : Bool :=
  s.start.cfgReady && !s.pins.perst && !s.pins.thermtrip && decide (a.fn = 512 ∨ (a.fn < 512 ∧ (s.fn a.fn).state ≠ 0 ∧ !s.start.recoveryCfg))

/-- A CP's master ID. -/
def isCp (m : Nat) : Bool := decide (0x298 ≤ m ∧ m < 0x29C)

/-- The access breaks the table of its target (R817, R822; Table: Default permissions): the target's code. -/
def regDenied (a : RegAccess) : Option Nat :=
  let secure := decide (a.fn = 512 ∧ a.bar = 2 ∧ 0x500000 ≤ a.off ∧ a.off < 0x600000)
  let code := if secure then 7 else if a.bar = 2 ∧ (boxAtOff a.fn a.off).isSome then 3 else if a.fn = 512 ∧ a.bar = 2 ∧ 0x410000 ≤ a.off ∧ a.off < 0x418000 then 6 else 2
  if a.master = a.fn then (if secure ∧ a.write ∧ 0x500800 ≤ a.off then some 7 else none)
  else if isCp a.master then (if secure then some 7 else none)
  else if a.master = 0x2A0 then (if secure then none else some code)
  else some code

/-- The INTC half whose registers an offset of PF BAR2 names. -/
def intcOff (a : RegAccess) : Option Nat :=
  if a.fn = 512 ∧ a.bar = 2 ∧ 0x200000 ≤ a.off ∧ a.off < 0x300000 then some ((a.off - 0x200000) / 0x80000) else none

/-- A violation is reported at the half of an INTC or of a bank of device semaphores, else at both (R818). -/
def denyReg (a : RegAccess) (code : Nat) (s : State) : State :=
  let need := if a.write then 1 else 0
  match intcOff a with
  | some h => violation h a.master code need s
  | none => if code = 6 then violation ((a.off - 0x410000) / 0x4000) a.master 6 need s else violationHost a.master code need s

/-- R12, R16: a misaligned access or an unpaired high half goes to the error log. -/
def logAccess (off : Nat) (s : State) : State := logEvent { kind := 1, unit := 0xC, data := off } s

/-- Before readiness writes reach these registers only (R697). -/
def earlyReg (f bar off : Nat) : Bool :=
  if bar = 4 then true
  else if bar = 2 then (match boxAtOff f off with | some (_, o) => decide (o = 0 ∨ o = 8 ∨ o = 0x14 ∨ (0x100 ≤ o ∧ o < 0x300)) | none => false)
  else false

/-- No half of the register is held any longer (R15, R16). -/
def dropHalves (key : Nat) (s : State) : State := { s with regs := { readLatch := s.regs.readLatch.del key, writeHold := s.regs.writeHold.del key } }

/-- A read of one 32-bit register: by the PF without effect at an INTC, by a CP with it (R614, R631). -/
def read32 (a : RegAccess) (off : Nat) (s : State) : Nat × State :=
  match intcOff a with
  | some h => if isCp a.master then intcTake h (off % 0x80000) s else (s.intcPeek h (off % 0x80000), s)
  | none => let v := s.regPeek a.fn a.bar off; (v % 2 ^ 32, regClear a.fn a.bar off s)

/-- A write of one 32-bit register. -/
def write32 (a : RegAccess) (off v : Nat) (s : State) : State :=
  match intcOff a with
  | some h => if isCp a.master then intcWrite h (off % 0x80000) (BitVec.ofNat 32 v) s else s
  | none => regPoke a.fn a.bar off v s

/-- A read (R11, R13, R15, R942). -/
def readReg (a : RegAccess) (s : State) : State :=
  let base := a.off / 8 * 8
  let key := latchKey a.fn a.bar base
  if regWide a.fn a.bar base then
    let v := s.regPeek a.fn a.bar base
    let s1 := dropHalves key s
    if a.size = 8 then (regClear a.fn a.bar base s1).answer v
    else if a.off = base then
      let s2 := regClear a.fn a.bar base s1
      { s2 with regs := { s2.regs with readLatch := s2.regs.readLatch.put key (BitVec.ofNat 32 (v / 2 ^ 32)) } }.answer (v % 2 ^ 32)
    else
      match s.regs.readLatch.look key with
      | some h => s1.answer h.toNat
      | none => s1.answer (v / 2 ^ 32)
  else if a.size = 8 then
    let lo := read32 a a.off s
    let hi := read32 a (a.off + 4) lo.2
    hi.2.answer (lo.1 + 2 ^ 32 * hi.1)
  else let r := read32 a a.off s; r.2.answer r.1

/-- A write (R11, R14, R16, R697, R942). -/
def writeReg (a : RegAccess) (s : State) : State :=
  let base := a.off / 8 * 8
  let key := latchKey a.fn a.bar base
  let v := a.data.toNat
  let open32 (off : Nat) : Bool := s.isReady || earlyReg a.fn a.bar off
  if regWide a.fn a.bar base then
    let s1 := dropHalves key s
    if !open32 base then earlyWrite s1
    else if a.size = 8 then regPoke a.fn a.bar base v s1
    else if a.off = base then { s1 with regs := { s1.regs with writeHold := s1.regs.writeHold.put key (BitVec.ofNat 32 v) } }
    else
      match s.regs.writeHold.look key with
      | some lo => regPoke a.fn a.bar base (lo.toNat + 2 ^ 32 * (v % 2 ^ 32)) s1
      | none => logAccess a.off s1
  else if a.size = 8 then
    let s1 := if open32 a.off then write32 a a.off (v % 2 ^ 32) s else earlyWrite s
    if open32 (a.off + 4) then write32 a (a.off + 4) (v / 2 ^ 32) s1 else earlyWrite s1
  else if open32 a.off then write32 a a.off (v % 2 ^ 32) s else earlyWrite s

/-- An access to the register space. -/
def accessReg (a : RegAccess) (s : State) : State :=
  if !s.regSpace a then s
  else if !regAligned a then logAccess a.off (if a.write then s else s.answer 0)
  else
    match regDenied a with
    | some code => denyReg a code (if a.write then s else s.answer 0)
    | none => if a.write then writeReg a s else readReg a s

/-- The access is aligned and its eight bytes are one 64-bit register. -/
def regInWide (a : RegAccess) : Bool := regAligned a && regWide a.fn a.bar (a.off / 8 * 8)

/-- A write to a register: a 32-bit register or pair, or a whole 64-bit register. -/
def execRegisterWrite (a : RegAccess) (s : State) : Host.Outcome State Fault Refusal :=
  .next (if a.write && regAligned a && !(regInWide a && decide (a.size = 4)) then accessReg a s else s)

def execMisalignedAccess (a : RegAccess) (s : State) : Host.Outcome State Fault Refusal := .next (if regAligned a then s else accessReg a s)

def execLowHalfRead (a : RegAccess) (s : State) : Host.Outcome State Fault Refusal :=
  .next (if !a.write && regInWide a && decide (a.size = 4 ∧ a.off % 8 = 0) then accessReg a s else s)
def execHighHalfRead (a : RegAccess) (s : State) : Host.Outcome State Fault Refusal :=
  .next (if !a.write && regInWide a && decide (a.size = 4 ∧ a.off % 8 = 4) then accessReg a s else s)
def execLowHalfWrite (a : RegAccess) (s : State) : Host.Outcome State Fault Refusal :=
  .next (if a.write && regInWide a && decide (a.size = 4 ∧ a.off % 8 = 0) then accessReg a s else s)
def execHighHalfWrite (a : RegAccess) (s : State) : Host.Outcome State Fault Refusal :=
  .next (if a.write && regInWide a && decide (a.size = 4 ∧ a.off % 8 = 4) then accessReg a s else s)

/-- A whole read of a PF register at an offset of BAR2, as the register's width asks. -/
def readPf (off size : Nat) (s : State) : State := accessReg { off := off, size := size } s

/-- The register of a table that has `n` of them at a distance. -/
def readNth (n i base step size : Nat) (s : State) : State := if i < n then readPf (base + step * i) size s else s

/-- A read of MB_NOTICE_LOST; the management mailbox has no registers. -/
def execMbNoticeLostRead (mb : Mbox) (s : State) : Host.Outcome State Fault Refusal :=
  .next (match mb with
    | .pf k => readNth 4 k 0x10 0x1000 4 s
    | .sec => readPf 0x500010 4 s
    | .mgmt => s
    | .vf v => accessReg { fn := v, off := 0x10, master := v } s)

def execSeqBuildRead (h : Nat) (s : State) : Host.Outcome State Fault Refusal := .next (readNth 2 h 0x20008 4 4 s)
def execPartSwitchMaxRead (part : Nat) (s : State) : Host.Outcome State Fault Refusal := .next (readNth 8 part 0x100078 0x20000 4 s)
def execPartUcNackRead (part : Nat) (s : State) : Host.Outcome State Fault Refusal := .next (readNth 8 part 0x1000A0 0x20000 8 s)
def execPartHoldRead (part : Nat) (s : State) : Host.Outcome State Fault Refusal := .next (readNth 8 part 0x1000D0 0x20000 8 s)
def execPartMemerrRead (part : Nat) (s : State) : Host.Outcome State Fault Refusal := .next (readNth 8 part 0x1000E0 0x20000 8 s)
def execPartShadowStatsRead (part : Nat) (s : State) : Host.Outcome State Fault Refusal := .next (readNth 8 part 0x100108 0x20000 8 s)
def execFabHlErrRead (s : State) : Host.Outcome State Fault Refusal := .next (readPf 0x480020 4 s)
def execFabMeshNackRead (h : Nat) (s : State) : Host.Outcome State Fault Refusal := .next (readNth 2 h 0x480040 8 8 s)
def execFabMeshErrRead (h : Nat) (s : State) : Host.Outcome State Fault Refusal := .next (readNth 2 h 0x480050 8 8 s)
def execFabPortErrRead (port : Nat) (s : State) : Host.Outcome State Fault Refusal := .next (readNth 12 port 0x400010 0x40 8 s)
def execFabAlmSkewRead (s : State) : Host.Outcome State Fault Refusal := .next (readPf 0x400418 4 s)
def execFabJobSilentRead (job : Nat) (s : State) : Host.Outcome State Fault Refusal := .next (readNth 64 job 0x400800 8 8 s)
def execSeqSolverStatsRead (h : Nat) (s : State) : Host.Outcome State Fault Refusal := .next (readNth 2 h 0x21010 0x40 8 s)
def execSeqSolverMaxRead (h : Nat) (s : State) : Host.Outcome State Fault Refusal := .next (readNth 2 h 0x21018 0x40 4 s)
def execPwrStatsRead (s : State) : Host.Outcome State Fault Refusal := .next (readPf 0x300028 8 s)
def execPwrThermalRead (s : State) : Host.Outcome State Fault Refusal := .next (readPf 0x300068 4 s)
def execPwrStartRead (s : State) : Host.Outcome State Fault Refusal := .next (readPf 0x300038 8 s)
def execPwrAuditRead (s : State) : Host.Outcome State Fault Refusal := .next (readPf 0x300070 8 s)
def execSecViolationRead (s : State) : Host.Outcome State Fault Refusal := .next (readPf 0x500810 8 s)
def execDbgTracePtrRead (s : State) : Host.Outcome State Fault Refusal := .next (readPf 0x600200 4 s)

/-- The PF writes 1 to a bit of DBG_CTRL.CP_REQ (R887), ignored while debug is locked (R869). -/
def execCpReq (cp : Nat) (s : State) : Host.Outcome State Fault Refusal := .next (if decide (cp < 4) && s.sec.unlocked then cpRequest cp s else s)

end Sys2Proof.Machine
end

