-- ==== Sys2Proof/Machine/Debug.lean ====
section
/-! DEFINITION. Debug stops, breakpoints, PEEK, TAKE and trace (20_debug.md). -/

namespace Sys2Proof.Machine

open Sys2Proof

/-! ## Stopping (R870-R873, R878, R888-R890, R895) -/

/-- A forced halt inside a locked sequence (R345): its buffers go, the registers are as at LOCK, the program counter is at LOCK. -/
def abortLock (p : Nat) (s : State) : State :=
  let x := s.tile p
  match x.lock with
  | none => s
  | some l => haltTile p (s.setTile p { x with lock := none, lockAborted := true, pc := l.pc, regs := l.saved })

/-- A tile whose halt has waited 256 grid cycles for UNLOCK (R872). -/
def State.lockLate (s : State) (p : Nat) : Bool :=
  let x := s.tile p
  match x.haltReq with
  | some c => x.lock.isSome && decide (c + 256 ≤ s.clk.cycle)
  | none => false

/-- DBG_HALT: the stop of the tile's partition, or with FORCE the halt of the tiles that hold it up (R872). -/
def execDbgHalt (mb : Mbox) (s : State) : Host.Outcome State Fault Refusal :=
  .next (runCmd 0x0A01 mb s (fun r s =>
    let name := fld r 0x10 2
    let force := expert r && fld r 0x12 1 == 1
    let col := (logOfName name).map (· / 16)
    let part := col.bind s.partOfCol
    let q := s.parts.val (part.getD 8) {}
    { bad := [(0x10, match col with | some c => s.colRetired c | none => true), (0x12, expert r && decide (1 < fld r 0x12 1))]
      state := !(match q.runJob with | some j => (match s.jobs.look j with | some b => b.state == 2 | none => false) | none => false)
      needs := some []
      run := fun _ s =>
        let p := part.getD 8
        if force ∧ q.stop.lockWait then
          let late := (s.tiles.keys).filter (fun k => q.cols.contains (colOf k) && s.lockLate k)
          (forEach late s (fun s k => abortLock k s), [])
        else (beginStop p 1 name 0 0 s, []) }))

/-- A tile that was asked to halt is at an instruction boundary outside block operations, locked sequences and window traps (R871). -/
def execTileHalt (t : Nat) (s : State) : Host.Outcome State Fault Refusal :=
  let x := s.tile t
  .next (if x.haltReq.isSome && !x.inBlk && x.lock.isNone && !x.inTrap then haltTile t s else s)

def execLockWait (t : Nat) (s : State) : Host.Outcome State Fault Refusal :=
  match s.partOfTile t with
  | some p => .next (if s.lockLate t then s.modPart p (fun q => { q with stop := { q.stop with lockWait := true } }) else s)
  | none => .next s

/-- The tile hangs (R895): its job is killed. -/
def execHaltTimeout (t : Nat) (s : State) : Host.Outcome State Fault Refusal :=
  let x := s.tile t
  match x.haltReq, x.job, s.partOfTile t with
  | some c, some j, some p =>
    .next (if c + 8192 ≤ s.clk.cycle ∧ !(x.lock.isSome && (s.parts.val p {}).stop.lockWait) then beginKill j stJobLost 3 s else s)
  | _, _, _ => .next s

/-- A breakpoint at the instruction about to issue (R878). Of several tiles that meet one in a grid cycle DBG_STOPp shows the one with the lowest
logical index (R889). -/
def execBreakpointHit (t : Nat) (s : State) : Host.Outcome State Fault Refusal :=
  let x := s.tile t
  let same : Bool := match s.partOfTile t with
    | some p => let st := (s.parts.val p {}).stop; st.state == 1 && st.cause == 2 && st.reqCycle == s.clk.cycle && x.haltReq == some s.clk.cycle
    | none => false
  let s0 := if same then s.setTile t { x with haltReq := none } else s
  match s0.issuer t x.run, s.breakAt t x.pc, s.partOfTile t with
  | some _, some n, some p =>
    if 1 < x.run ∨ x.lock.isSome ∨ x.bpPassed then .next s
    else
      let s1 := s.setTile t { x with bpPassed := true }
      if same then
        let low := decide ((s.logOf t).getD 768 < (logOfName (s.parts.val p {}).stop.tile).getD 768)
        let s2 := if low then s1.modPart p (fun q => { q with stop := { q.stop with tile := s.nameOf t, bp := n, pc := x.pc } }) else s1
        .next (haltTile t s2)
      else .next (haltTile t (beginStop p 2 (s.nameOf t) n x.pc s1))
  | _, _, _ => .next s

/-! ## Resuming (R875-R877) -/

/-- DBG_RESUME: the partition goes on, or is stepped until the named tile has completed STEPS instructions. -/
def execDbgResume (mb : Mbox) (s : State) : Host.Outcome State Fault Refusal :=
  .next (runCmd 0x0A02 mb s (fun r s =>
    let tile := s.physOfName (fld r 0x10 2)
    let steps := if expert r then fld r 0x12 2 else 0
    let part := tile.bind s.partOfTile
    { bad := [(0x10, tile.isNone), (0x12, decide (4096 < steps))]
      state := (s.parts.val (part.getD 8) {}).stop.state != 2
      needs := some []
      run := fun _ s =>
        let p := part.getD 8
        let s1 := resumeStop p s
        let live := match (s1.parts.val p {}).runJob with | some j => (match s1.jobs.look j with | some b => b.state == 2 | none => false) | none => false
        if steps = 0 ∨ !live then (s1, [])
        else (s1.modPart p (fun q => { q with stop := { q.stop with state := 3, stepTile := tile.getD 816, stepsLeft := steps } }), []) }))

/-! ## PEEK and TAKE (R881-R884; Table: REG encodings) -/

/-- The register needs the tile's partition Stopped. -/
def regStopped (g : Nat) : Bool := decide ((0x20 ≤ g ∧ g ≤ 0x27) ∨ (0x40 ≤ g ∧ g ≤ 0xBF) ∨ (0x100 ≤ g ∧ g ≤ 0x2FF))

/-- REG has an encoding for the target: an INTC, or a tile. -/
def regKnown (intc : Bool) (g : Nat) : Bool :=
  if intc then decide (g < 0x1000)
  else decide (g ≤ 0xC ∨ (0x400 ≤ g ∧ g ≤ 0x43F) ∨ (0x480 ≤ g ∧ g ≤ 0x49F) ∨ (0x8000 ≤ g ∧ g ≤ 0xFFFF)) || regStopped g

/-- Tile-store address that a REG names. -/
def State.windowAddr (s : State) (g : Nat) : Nat := s.dbg.winBase * 0x40000 + 8 * (g - 0x8000)

/-- The current value of a tile's register. -/
def State.tilePeek (s : State) (p g : Nat) : Nat :=
  let x := s.tile p
  if g = 0xC then
    match x.job with
    | some j => (x.digest.val (s.jobs.val j {}).entry 0).toNat
    | none => 0
  else if g < 0xC then (specialRead g x).toNat
  else if g < 0x40 then (x.regs.val (g - 0x20) 0).toNat
  else if g < 0x100 then (x.regs.val (8 + (g - 0x40)) 0).toNat
  else if g < 0x400 then (x.vregs.val (2 * (g - 0x100)) 0).toNat + 2 ^ 32 * (x.vregs.val (2 * (g - 0x100) + 1) 0).toNat
  else if g < 0x480 then let c := x.chans.val (g - 0x400) {}; sat 16 c.avail + 65536 * sat 16 c.queue.length + 2 ^ 32 * sat 16 c.owedCredits
  else if g < 0x8000 then x.sems.val (g - 0x480) 0
  else ofLe (x.store.read (s.windowAddr g) 8)

/-- The word comes of a poisoned granule (R884). -/
def State.tilePoison (s : State) (p g : Nat) : Bool := decide (0x8000 ≤ g) && (s.tile p).poison.val (s.windowAddr g / 32) false

/-- The INTC that TILE names. -/
def intcNamed (n : Nat) : Option Nat := if n = 0xF000 then some 0 else if n = 0xF001 then some 1 else none

/-- The value of a REG and its poison, with no effect. -/
def State.debugPeek (s : State) (name g : Nat) : Nat × Bool :=
  match intcNamed name with
  | some h => (s.intcPeek h (4 * g), false)
  | none => let p := (s.physOfName name).getD 816; (s.tilePeek p g, s.tilePoison p g)

/-- The effect of the owner's read: a claim that is completed at once (R882), or the clear of RC fields. -/
def debugTake (name g : Nat) (s : State) : Nat × State :=
  match intcNamed name with
  | some h =>
    if 4 * g = 0x1000 ∨ 4 * g = 0x1200 then
      let t := (4 * g - 0x1000) / 0x200
      let r := claim h t s
      (r.1, if r.1 = 1023 then r.2 else complete h t r.1 r.2)
    else intcTake h (4 * g) s
  | none =>
    let p := (s.physOfName name).getD 816
    (s.tilePeek p g, if g < 0xC then s.modTile p (specialClear g) else s)

/-- What DBG_PEEK and DBG_TAKE check (R883). -/
def debugPlan (r : Bytes) (count : Nat) (s : State) : Plan :=
  let name := fld r 0x10 2
  let g := fld r 0x12 2
  let intc := intcNamed name
  let tile := s.physOfName name
  let regs := (List.range count).map (· + g)
  let stopped : Bool := match tile.bind s.partOfTile with | some p => (s.parts.val p {}).stop.state == 2 | none => false
  { bad := [(0x10, intc.isNone && tile.isNone), (0x12, regs.any (fun g => !regKnown intc.isSome g))]
    state := intc.isNone && regs.any regStopped && !stopped }

/-- DBG_PEEK. -/
def execDbgPeek (mb : Mbox) (s : State) : Host.Outcome State Fault Refusal :=
  .next (runCmd 0x0A03 mb s (fun r s =>
    let n := if expert r then fld r 0x14 2 else 1
    let p := debugPlan r n s
    { p with
      bad := p.bad ++ [(0x14, decide (n = 0 ∨ 56 < n))]
      run := fun _ s =>
        let l := (List.range n).map (fun i => s.debugPeek (fld r 0x10 2) (fld r 0x12 2 + i))
        (s, le 8 (setBits ((List.range n).filter (fun i => (l.getD i (0, false)).2))) ++ l.flatMap (fun v => le 8 v.1)) }))

/-- DBG_TAKE. -/
def execDbgTake (mb : Mbox) (s : State) : Host.Outcome State Fault Refusal :=
  .next (runCmd 0x0A04 mb s (fun r s =>
    { debugPlan r 1 s with
      needs := some []
      run := fun _ s =>
        let v := debugTake (fld r 0x10 2) (fld r 0x12 2) s
        (v.2, le 8 (b2n (s.debugPeek (fld r 0x10 2) (fld r 0x12 2)).2) ++ le 8 v.1) }))

/-! ## Trace (R885, R886) -/

/-- DBG_TRACE: at most 16 tiles are traced. -/
def execDbgTrace (mb : Mbox) (s : State) : Host.Outcome State Fault Refusal :=
  .next (runCmd 0x0A05 mb s (fun r s =>
    let tile := s.physOfName (fld r 0x10 2)
    let on := fld r 0x12 1
    let f := if expert r then fld r 0x14 4 else 0x8E
    let p := tile.getD 816
    { bad := [(0x10, tile.isNone), (0x12, decide (1 < on)), (0x13, expert r && fld r 0x13 1 != 0), (0x14, decide (255 < f))]
      state := on == 1 && (s.tile p).trace.isNone && decide (16 ≤ (s.tiles.filter (fun e => e.2.trace.isSome)).length)
      needs := some []
      run := fun _ s => (s.modTile p (fun x => { x with trace := if on = 1 then some (BitVec.ofNat 32 f) else none }), []) }))

end Sys2Proof.Machine
end

