-- ==== Sys2Proof/Machine/Messages.lean ====
section
/-! DEFINITION. Messages to the security processor: the management port, attested sessions and IDE, TDISP, MCTP telemetry
(19_trust_tenancy_management.md). The answers' protocols are numbered 1 management, 2 SPDM, 3 TDISP and 4 MCTP (log 13). -/

namespace Sys2Proof.Machine

open Sys2Proof

/-! ## The management port (R843-R847, R859, R860; R701) -/

/-- The management port answers: ROM boot has ended and the clocks run (R701). -/
def State.portUp (s : State) : Bool := s.start.romDone && !s.pins.perst && !s.pins.thermtrip

/-- A frame arrives: source 65; the session has carried a message (R845). -/
def mgmtFrame (s : State) : State := intcBoth 65 (s.setSec (fun c => { c with mgmt := c.mgmt.map (fun m => { m with lastTick := s.clk.tick }) }))

/-- A handshake: refused while a session is fresh, or when the chain does not end at the owner's root (R844, R845). -/
def execMgmtHandshake (chainOk : Bool) (s : State) : Host.Outcome State Fault Refusal :=
  if !s.portUp then .next s
  else
    let owned := s.sec.ownerKey.isSome
    let fresh : Bool := match s.sec.mgmt with | some m => decide (s.clk.tick < m.lastTick + 30000000) | none => false
    if fresh ∨ (owned && !chainOk) then .next ((intcBoth 65 s).emit (.answer 1 1 []))
    else .next ((intcBoth 65 (s.setSec (fun c => { c with mgmt := some { lastTick := s.clk.tick, enrolled := owned } }))).emit (.answer 1 0 []))

/-- A REQUEST message. A session opened while Unowned has IDENTIFY and STATUS alone (R844); a second request finds the mailbox Busy (R231). -/
def execRequest (req : List (BitVec 8)) (s : State) : Host.Outcome State Fault Refusal :=
  match s.sec.mgmt with
  | none => .next s
  | some m =>
    if !s.portUp then .next s
    else
      let s1 := mgmtFrame s
      if !m.enrolled ∧ reqOpcode req ≠ 0x0101 ∧ reqOpcode req ≠ 0x0102 then .next s1
      else if (s1.box .mgmt).taken.isSome then .next (s1.emit (.response .mgmt (respBytes (trimReq req) rcBusy 5 0 [])))
      else .next (takeRequest .mgmt req s1)

/-- Image bytes: they are taken in the order of OFFSET, and the acknowledgement tells how many have been (Table: Management message header;
log 41). The last ones complete the image. -/
def execBulk (op off : Nat) (data : List (BitVec 8)) (facts : ImageFacts) (s : State) : Host.Outcome State Fault Refusal :=
  match s.sec.mgmt with
  | none => .next s
  | some m =>
    if !s.portUp ∨ !m.enrolled then .next s
    else
      let s1 := mgmtFrame s
      match s.sec.uploads.find? (fun u => decide (u.op = op)) with
      | none => .next s1
      | some u =>
        let b := (data.take 1368).take (u.bytes - off)
        let u1 := if off ≤ u.got then { u with img := u.img.write off b, got := max u.got (off + b.length) } else u
        let s2 := (s1.setSec (fun c => { c with uploads := c.uploads.map (fun v => if v.op = op then u1 else v) })).emit (.bulkAck op u1.got)
        if u1.got < u.bytes then .next s2
        else
          let s3 := s2.setSec (fun c => { c with uploads := c.uploads.filter (fun v => !decide (v.op = op)) })
          .next (if u.kind = 0x0806 then installFirmware u1 facts s3 else installPattern u1 facts s3)

/-- The SPI NOR write of the owner record has failed twice (R860): logged, and answered as BAD_STATE. -/
def ownerWriteFailed (s : State) : State :=
  (logEvent { kind := s.free % 65536, severity := 2, unit := 0x0F } (s.took 1)).emit (.answer 1 rcState [])

/-- ENROLL (R846). -/
def execEnroll (key : List (BitVec 8)) (written : Bool) (s : State) : Host.Outcome State Fault Refusal :=
  if s.sec.mgmt.isNone ∨ !s.portUp then .next s
  else
    let s1 := mgmtFrame s
    if s.sec.ownerKey.isSome ∨ !s.pins.enroll ∨ key = [] then .next (s1.emit (.answer 1 rcState []))
    else if !written then .next (ownerWriteFailed s1)
    else .next ((remeasure 8 (remeasure 7 (s1.setSec (fun c => { c with ownerKey := some key })))).emit (.answer 1 0 []))

/-- OWNER_UPDATE: signed by the current owner; an outstanding command completes first (R847, R859). -/
def execOwnerUpdate (key : List (BitVec 8)) (sigOk written : Bool) (s : State) : Host.Outcome State Fault Refusal :=
  match s.sec.mgmt with
  | none => .next s
  | some m =>
    if !s.portUp ∨ !m.enrolled then .next s
    else
      let s1 := mgmtFrame s
      if s.sec.ownerKey.isNone ∨ !sigOk then .next (s1.emit (.answer 1 rcSignature []))
      else if !written then .next (ownerWriteFailed s1)
      else
        let s2 := s1.emit (.answer 1 0 [])
        .next (if (s.box .mgmt).taken.isSome then s2.setSec (fun c => { c with ownerDue := some key }) else setOwner key s2)

def execKeepalive (s : State) : Host.Outcome State Fault Refusal := .next (if s.sec.mgmt.isSome && s.portUp then mgmtFrame s else s)

/-- The session is closed; what it has outstanding runs on (R845). -/
def execManagementSessionEnd (s : State) : Host.Outcome State Fault Refusal := .next (s.setSec (fun c => { c with mgmt := none }))

/-! ## Attested sessions and IDE (R825-R828, R856) -/

/-- DOE answers: the PF's configuration space is there. -/
def State.doeUp (s : State) : Bool := s.start.cfgReady && !s.pins.perst && !s.pins.thermtrip

/-- KEY_EXCHANGE: one of at most four sessions; Busy during turnover (R856). The other error code is the standard's (log 42). -/
def execKeyExchange (s : State) : Host.Outcome State Fault Refusal :=
  if !s.doeUp then .next s
  else if s.sec.turnover.isSome then .next (s.emit (.answer 2 3 []))
  else
    match firstFree 4 (fun n => (s.sec.sessions.look n).isNone) with
    | none => .next (s.emit (.answer 2 0xA []))
    | some n => .next ((s.setSec (fun c => { c with sessions := c.sessions.put n s.clk.tick })).emit (.answer 2 0 [BitVec.ofNat 8 n]))

/-- A measurement (Table: Measurements). The values that it names are shown; a digest, and the bytes whose layout it leaves open, are open. -/
def State.measurement (s : State) (idx : Nat) : Bytes :=
  let dig : Bytes := (List.range 48).map (fun i => Config.measurement idx (s.sec.pkgDigests.val idx 0) i)
  if idx = 5 then le 8 s.likeness ++ dig
  else if idx = 6 then le 1 (if s.sec.unlocked then 1 else if s.sec.since then 2 else 0)
  else if idx = 7 then le 4 s.sec.epoch ++ le 1 (b2n s.sec.ownerKey.isSome) ++ le 2 s.mail.lockout.toNat
  else if idx = 8 ∧ s.sec.ownerKey.isNone then zeros 48
  else if 0x10 ≤ idx ∧ idx ≤ 0x17 ∧ ((s.parts.look (idx - 0x10)).all (fun q => q.season.isNone)) then zeros 48
  else dig

/-- GET_MEASUREMENTS of one index; a reserved one is no measurement. -/
def execGetMeasurements (idx : Nat) (s : State) : Host.Outcome State Fault Refusal :=
  .next (if !s.doeUp then s
    else if s.sec.turnover.isSome then s.emit (.answer 2 3 [])
    else if (1 ≤ idx ∧ idx ≤ 9) ∨ (0x10 ≤ idx ∧ idx ≤ 0x17) then s.emit (.answer 2 0 (s.measurement idx))
    else s.emit (.answer 2 1 []))

def execEndSession (sess : Nat) (s : State) : Host.Outcome State Fault Refusal :=
  .next (if s.doeUp && (s.sec.sessions.look sess).isSome then (endSession sess s).emit (.answer 2 0 []) else s)

/-- A heartbeat restarts the period of 10 s. -/
def execSpdmHeartbeat (sess : Nat) (s : State) : Host.Outcome State Fault Refusal :=
  .next (if s.doeUp && (s.sec.sessions.look sess).isSome then
    (s.setSec (fun c => { c with sessions := c.sessions.put sess s.clk.tick })).emit (.answer 2 0 []) else s)

def execSpdmHeartbeatTimeout (sess : Nat) (s : State) : Host.Outcome State Fault Refusal :=
  match s.sec.sessions.look sess with
  | none => .next s
  | some t => .next (if t + 10000000 ≤ s.clk.tick then endSession sess s else s)

/-- IDE_KM over a session: a selective stream 0-3, or the link stream, 4, becomes Secure. -/
def execIdeKm (sess stream : Nat) (s : State) : Host.Outcome State Fault Refusal :=
  .next (if !s.doeUp ∨ (s.sec.sessions.look sess).isNone then s
    else if stream < 4 then (s.setSec (fun c => { c with selIde := c.selIde.put stream sess })).emit (.answer 2 0 [])
    else if stream = 4 then (s.setSec (fun c => { c with linkIde := some sess })).emit (.answer 2 0 [])
    else s)

/-- A received TLP fails its integrity check on a Secure stream (R828): discarded and reported; a ring read that it answered has failed (R91, R93). -/
def execIdeCheckFailed (stream : Nat) (qfe slot : Nat) (s : State) : Host.Outcome State Fault Refusal :=
  let secure := if stream = 4 then s.sec.linkIde.isSome else (s.sec.selIde.look stream).isSome
  .next (if secure then fetchFailed (128 * qfe + slot) 6 (s.setSec (fun c => { c with aerIde := c.aerIde + 1 })) else s)

/-! ## TDISP (R829-R833, R858) -/

/-- LOCK_INTERFACE of a VF over a Secure selective stream (log 42). -/
def execLockInterface (v stream : Nat) (s : State) : Host.Outcome State Fault Refusal :=
  let x := s.fn v
  .next (if 512 ≤ v ∨ x.state = 0 ∨ !s.doeUp then s
    else if x.tdi ≠ 0 ∨ (s.sec.selIde.look stream).isNone then s.emit (.answer 3 1 [])
    else (s.setFn v { x with tdi := 1, tdiStream := stream }).emit (.answer 3 0 []))

def execStartInterface (v : Nat) (s : State) : Host.Outcome State Fault Refusal :=
  let x := s.fn v
  .next (if 512 ≤ v ∨ x.state = 0 ∨ !s.doeUp then s
    else if x.tdi ≠ 1 then s.emit (.answer 3 1 [])
    else (s.setFn v { x with tdi := 2 }).emit (.answer 3 0 []))

def execStopInterface (v : Nat) (s : State) : Host.Outcome State Fault Refusal :=
  let x := s.fn v
  .next (if 512 ≤ v ∨ x.state = 0 ∨ !s.doeUp then s else (s.setFn v { x with tdi := 0 }).emit (.answer 3 0 []))

/-! ## MCTP (R704, R853) -/

/-- An MCTP request: source 100, and the answer from the end of ROM boot on (R701). -/
def mctp (code : Nat) (data : Bytes) (s : State) : State := if s.portUp then (intcBoth 100 s).emit (.answer 4 code data) else s

/-- A telemetry request: not ready before readiness (R704). -/
def telemetry (code : Nat) (data : Bytes) (s : State) : State := if s.isReady then mctp code data s else mctp 4 [] s

def execSetEndpointId (eid : Nat) (s : State) : Host.Outcome State Fault Refusal :=
  let ok := decide (0 < eid ∧ eid < 255)
  .next (if !s.portUp then s else mctp (if ok then 0 else 2) [] (if ok then s.setSec (fun c => { c with eid := eid }) else s))
def execGetEndpointId (s : State) : Host.Outcome State Fault Refusal := .next (mctp 0 (le 1 s.sec.eid) s)

/-- The versions listed are open. -/
def execGetMctpVersionSupport (s : State) : Host.Outcome State Fault Refusal := .next ((mctp 0 (le 1 1 ++ le 4 s.free) s).took 1)

/-- MCTP control and PLDM (Table: MCTP support). -/
def execGetMessageTypeSupport (s : State) : Host.Outcome State Fault Refusal := .next (mctp 0 [2, 0, 1] s)

/-- The sensors, in the order of Table: MCTP support: die temperatures by SOURCE code, rail powers, energy, tiles Quarantined, columns retired;
their numbers are the model's (log 44). A rail's power is open. -/
def State.sensor (s : State) (n : Nat) : Option Nat :=
  if n < 16 then some (s.pwr.temps.val n 0)
  else if n < 24 then some s.free
  else if n = 24 then some s.pwr.energy
  else if n = 25 then some (s.health.filter (fun e => e.2.state == 2)).length
  else if n = 26 then some ((List.range 48).filter s.colRetired).length
  else none

/-- GetPDR: the record's bytes are open. -/
def execGetPdr (rec : Nat) (s : State) : Host.Outcome State Fault Refusal :=
  .next ((if (s.sensor rec).isSome then telemetry 0 (le 8 s.free) s else telemetry 0x80 [] s).took 1)

def execGetSensorReading (sensor : Nat) (s : State) : Host.Outcome State Fault Refusal :=
  .next ((match s.sensor sensor with | some v => telemetry 0 (le 8 v) s | none => telemetry 0x80 [] s).took 1)

/-- Power state and readiness. -/
def execGetStateSensorReadings (s : State) : Host.Outcome State Fault Refusal := .next (telemetry 0 (le 1 s.pwr.state ++ le 1 (b2n s.pwr.ready)) s)

end Sys2Proof.Machine
end

