-- ==== Sys2Proof/Machine/TileAlu.lean ====
section
/-! DEFINITION. The scalar arithmetic instructions (09_tile_instructions.md, R379, R380; Table: Opcodes). -/

namespace Sys2Proof.Machine

open Sys2Proof

/-! ## Register operands -/

/-- A comparison's result. -/
def flag64 (b : Bool) : BitVec 64 := if b then 1 else 0

/-- ADD: rd = ra + rb (R379). -/
def bodyAdd (c : TCtx) : TRes := c.wr (c.a + c.b)
def execAdd (t : Nat) (u : Upset) (s : State) : Host.Outcome State Fault Refusal := runTile t u .add bodyAdd s

/-- SUB: rd = ra - rb. -/
def bodySub (c : TCtx) : TRes := c.wr (c.a - c.b)
def execSub (t : Nat) (u : Upset) (s : State) : Host.Outcome State Fault Refusal := runTile t u .sub bodySub s

/-- AND. -/
def bodyAnd (c : TCtx) : TRes := c.wr (c.a &&& c.b)
def execAnd (t : Nat) (u : Upset) (s : State) : Host.Outcome State Fault Refusal := runTile t u .and bodyAnd s

/-- OR. -/
def bodyOr (c : TCtx) : TRes := c.wr (c.a ||| c.b)
def execOr (t : Nat) (u : Upset) (s : State) : Host.Outcome State Fault Refusal := runTile t u .or bodyOr s

/-- XOR. -/
def bodyXor (c : TCtx) : TRes := c.wr (c.a ^^^ c.b)
def execXor (t : Nat) (u : Upset) (s : State) : Host.Outcome State Fault Refusal := runTile t u .xor bodyXor s

/-- SHL: by rb[5:0]. -/
def bodyShl (c : TCtx) : TRes := c.wr (c.a <<< (c.b.toNat % 64))
def execShl (t : Nat) (u : Upset) (s : State) : Host.Outcome State Fault Refusal := runTile t u .shl bodyShl s

/-- SHR: logical, by rb[5:0]. -/
def bodyShr (c : TCtx) : TRes := c.wr (c.a >>> (c.b.toNat % 64))
def execShr (t : Nat) (u : Upset) (s : State) : Host.Outcome State Fault Refusal := runTile t u .shr bodyShr s

/-- SRA: arithmetic, by rb[5:0]. -/
def bodySra (c : TCtx) : TRes := c.wr (c.a.sshiftRight (c.b.toNat % 64))
def execSra (t : Nat) (u : Upset) (s : State) : Host.Outcome State Fault Refusal := runTile t u .sra bodySra s

/-- MUL: the low 64 bits. -/
def bodyMul (c : TCtx) : TRes := c.wr (c.a * c.b)
def execMul (t : Nat) (u : Upset) (s : State) : Host.Outcome State Fault Refusal := runTile t u .mul bodyMul s

/-- MULHU: the high 64 bits of the unsigned product. -/
def bodyMulhu (c : TCtx) : TRes := c.wr (BitVec.ofNat 64 (c.a.toNat * c.b.toNat / 2 ^ 64))
def execMulhu (t : Nat) (u : Upset) (s : State) : Host.Outcome State Fault Refusal := runTile t u .mulhu bodyMulhu s

/-- SLT: signed. -/
def bodySlt (c : TCtx) : TRes := c.wr (flag64 (c.a.slt c.b))
def execSlt (t : Nat) (u : Upset) (s : State) : Host.Outcome State Fault Refusal := runTile t u .slt bodySlt s

/-- SLTU: unsigned. -/
def bodySltu (c : TCtx) : TRes := c.wr (flag64 (c.a.ult c.b))
def execSltu (t : Nat) (u : Upset) (s : State) : Host.Outcome State Fault Refusal := runTile t u .sltu bodySltu s

/-- MIN: signed. -/
def bodyMin (c : TCtx) : TRes := c.wr (if c.b.slt c.a then c.b else c.a)
def execMin (t : Nat) (u : Upset) (s : State) : Host.Outcome State Fault Refusal := runTile t u .min bodyMin s

/-- MAX: signed. -/
def bodyMax (c : TCtx) : TRes := c.wr (if c.a.slt c.b then c.b else c.a)
def execMax (t : Nat) (u : Upset) (s : State) : Host.Outcome State Fault Refusal := runTile t u .max bodyMax s

/-- MINU: unsigned. -/
def bodyMinu (c : TCtx) : TRes := c.wr (if c.b.ult c.a then c.b else c.a)
def execMinu (t : Nat) (u : Upset) (s : State) : Host.Outcome State Fault Refusal := runTile t u .minu bodyMinu s

/-- MAXU: unsigned. -/
def bodyMaxu (c : TCtx) : TRes := c.wr (if c.a.ult c.b then c.b else c.a)
def execMaxu (t : Nat) (u : Upset) (s : State) : Host.Outcome State Fault Refusal := runTile t u .maxu bodyMaxu s

/-! ## Immediate operands -/

/-- ADDI: rd = ra + sign-extended IMM16 (R380). -/
def bodyAddi (c : TCtx) : TRes := c.wr (c.a + c.i.simm)
def execAddi (t : Nat) (u : Upset) (s : State) : Host.Outcome State Fault Refusal := runTile t u .addi bodyAddi s

/-- ANDI: with the zero-extended IMM16. -/
def bodyAndi (c : TCtx) : TRes := c.wr (c.a &&& c.i.zimm)
def execAndi (t : Nat) (u : Upset) (s : State) : Host.Outcome State Fault Refusal := runTile t u .andi bodyAndi s

/-- ORI: with the zero-extended IMM16. -/
def bodyOri (c : TCtx) : TRes := c.wr (c.a ||| c.i.zimm)
def execOri (t : Nat) (u : Upset) (s : State) : Host.Outcome State Fault Refusal := runTile t u .ori bodyOri s

/-- XORI: with the zero-extended IMM16. -/
def bodyXori (c : TCtx) : TRes := c.wr (c.a ^^^ c.i.zimm)
def execXori (t : Nat) (u : Upset) (s : State) : Host.Outcome State Fault Refusal := runTile t u .xori bodyXori s

/-- SHLI: by IMM16[5:0]. -/
def bodyShli (c : TCtx) : TRes := c.wr (c.a <<< c.i.imm)
def execShli (t : Nat) (u : Upset) (s : State) : Host.Outcome State Fault Refusal := runTile t u .shli bodyShli s

/-- SHRI: logical, by IMM16[5:0]. -/
def bodyShri (c : TCtx) : TRes := c.wr (c.a >>> c.i.imm)
def execShri (t : Nat) (u : Upset) (s : State) : Host.Outcome State Fault Refusal := runTile t u .shri bodyShri s

/-- SRAI: arithmetic, by IMM16[5:0]. -/
def bodySrai (c : TCtx) : TRes := c.wr (c.a.sshiftRight c.i.imm)
def execSrai (t : Nat) (u : Upset) (s : State) : Host.Outcome State Fault Refusal := runTile t u .srai bodySrai s

/-- MOVI: rd = sign-extended IMM16. -/
def bodyMovi (c : TCtx) : TRes := c.wr c.i.simm
def execMovi (t : Nat) (u : Upset) (s : State) : Host.Outcome State Fault Refusal := runTile t u .movi bodyMovi s

/-- MOVHI: rd = (rd << 16) | IMM16. -/
def bodyMovhi (c : TCtx) : TRes := c.wr ((c.d <<< 16) ||| c.i.zimm)
def execMovhi (t : Nat) (u : Upset) (s : State) : Host.Outcome State Fault Refusal := runTile t u .movhi bodyMovhi s

/-- SLTI: signed. -/
def bodySlti (c : TCtx) : TRes := c.wr (flag64 (c.a.slt c.i.simm))
def execSlti (t : Nat) (u : Upset) (s : State) : Host.Outcome State Fault Refusal := runTile t u .slti bodySlti s

end Sys2Proof.Machine
end

