-- ==== Sys2Proof/Machine/Post.lean ====
section
/-! DEFINITION. OUTBOX.POST (08_tiles.md, R359, R360, R374), and the waiting instructions whose condition comes to hold
(09_tile_instructions.md, R388; 11, R475). -/

namespace Sys2Proof.Machine

open Sys2Proof

/-- The result descriptor obeys its table (R374). -/
def postDescOk (d : Bytes) : Bool :=
  decide (fld d 2 2 = 0 ∨ fld d 2 2 = 2) && decide (fld d 5 1 < 2) && allZero d 6 2 && decide (fld d 8 4 ≤ 64481) && allZero d 0xC 4 && allZero d 0x18 8
    && decide (if fld d 2 2 = 2 then fld d 4 1 = 1 else fld d 4 1 ≤ 2)

/-- Bytes of results that a job entry's outbox holds. -/
def State.outboxUsed (s : State) (part sid : Nat) : Nat :=
  (s.outbox.filter (fun r => match s.pkts.look r.pkt with | some p => decide (p.part = some part ∧ p.sid = sid) | none => false)).foldl
    (fun n r => n + r.result.length) 0

/-- OUTBOX.POST: the result of the sequence entry's step goes to the outbox (R359), where there is room; a poisoned granule ends the job
(R360). An entry that holds no position of the job's step takes no result (log 29). -/
def bodyOutboxPost (c : TCtx) : TRes :=
  let a := c.a.toNat
  if a % 32 ≠ 0 ∨ storeBytes < a + 32 then .fault 9 (a / 65536 % 256) none
  else
    let d := c.x.store.read a 32
    let v := c.q.svcs.val c.jb.entry {}
    if !postDescOk d ∨ v.maxCpl < recordSlots (fld d 8 4) then .fault 0xC 0 none
    else c.consume a 32 (
      let e := fld d 0 2
      let n := fld d 8 4
      let x := c.s.seq e
      let room := match c.q.season with | some se => (match se.region 6 c.jb.entry with | some r => r.bytes | none => 0) | none => 0
      if !c.jb.occupied.contains e then .go c.s
      else if room < c.s.outboxUsed c.part v.sid + n then .wait c.s
      else
        match c.s.readVa c.q (fld d 0x10 8) n with
        | .fault k => .stay (accessFault c.part (c.p / 408) k (fld d 0x10 8) false (c.s.nameOf c.p) c.j c.s)
        | .nack _ => .stay (brokenSeason c.j c.s)
        | .ok (b, bad) =>
          if bad then
            let w := c.q.weightVa (fld d 0x10 8)
            let s1 := if w then markReload c.part (fld d 0x10 8) c.s else c.s
            .stay (beginKill c.j stPoisoned (if w then 2 else 1) (fail x.stepPkt stPoisoned 1 s1))
          else
            let r : Record := { pkt := x.stepPkt, status := fld d 2 2, detail := fld d 4 1, fin := bit (fld d 5 1) 0, result := b, born := c.s.clk.tick }
            .go (c.s.modSeq e (fun x => { x with posted := some r })))
def execOutboxPost (t : Nat) (u : Upset) (s : State) : Host.Outcome State Fault Refusal := runTile t u .outboxPost bodyOutboxPost s

/-- The effect of the operations that may wait: the waiting instructions, and the posts that wait for tokens (R300). -/
def waitBody : TOp → Option (TCtx → TRes)
  | .waitcyc => some bodyWaitcyc
  | .waitcycS => some bodyWaitcycS
  | .sync => some bodySync
  | .semAcq => some bodySemAcq
  | .semIncr => some bodySemIncr
  | .send => some bodySend
  | .recv => some bodyRecv
  | .watch => some bodyWatch
  | .pread => some bodyPread
  | .pwrite => some bodyPwrite
  | .xfer => some bodyXfer
  | .outboxPost => some bodyOutboxPost
  | _ => none

/-- The condition of a tile's waiting instruction holds: the instruction runs (R388). -/
def execWaitConditionMet (t : Nat) (u : Upset) (s : State) : Host.Outcome State Fault Refusal := .next (runWith t u 1 (fun i => waitBody i.op) s)

/-- A WATCH without a watch entry reads its slot again (R475). -/
def execWatchReread (t : Nat) (s : State) : Host.Outcome State Fault Refusal :=
  let entry := s.mem.watches.any (fun w => decide (w.2.2 = t))
  .next (if (s.tile t).watch.isSome && !entry then runWith t .none 1 (fun i => if i.op = .watch then some bodyWatch else none) s else s)

end Sys2Proof.Machine
end

