-- ==== Sys2Proof/Machine/Dispatch.lean ====
section
/-! DEFINITION. What each command does: one arm per row of the operation table. -/

namespace Sys2Proof.Machine

open Sys2Proof

def exec (i : Instr) (s : State) : Host.Outcome State Fault Refusal :=
  match i with
  | .perstRelease pwrgd straps => Sys2Proof.Machine.execPerstRelease pwrgd straps s
  | .perstAssert => Sys2Proof.Machine.execPerstAssert s
  | .pwrgdDeassert => Sys2Proof.Machine.execPwrgdDeassert s
  | .romBootEnd => Sys2Proof.Machine.execRomBootEnd s
  | .fwVerified img => Sys2Proof.Machine.execFwVerified img s
  | .configurationReady => Sys2Proof.Machine.execConfigurationReady s
  | .columnPowerUp => Sys2Proof.Machine.execColumnPowerUp s
  | .stackTraining ok => Sys2Proof.Machine.execStackTraining ok s
  | .stackInitialisation => Sys2Proof.Machine.execStackInitialisation s
  | .readiness => Sys2Proof.Machine.execReadiness s
  | .startFailed cause => Sys2Proof.Machine.execStartFailed cause s
  | .listenStart => Sys2Proof.Machine.execListenStart s
  | .configRequest f off => Sys2Proof.Machine.execConfigRequest f off s
  | .pcieLinkDown => Sys2Proof.Machine.execPcieLinkDown s
  | .flr f => Sys2Proof.Machine.execFlr f s
  | .vfResetComplete v => Sys2Proof.Machine.execVfResetComplete v s
  | .vfResetTimeout v => Sys2Proof.Machine.execVfResetTimeout v s
  | .vfEnableSet numVfs => Sys2Proof.Machine.execVfEnableSet numVfs s
  | .vfEnableClear => Sys2Proof.Machine.execVfEnableClear s
  | .msixMaskChange f c => Sys2Proof.Machine.execMsixMaskChange f c s
  | .lqiSqTail f qp val => Sys2Proof.Machine.execLqiSqTail f qp val s
  | .lqiCqHead f qp val => Sys2Proof.Machine.execLqiCqHead f qp val s
  | .lqiCqMod f qp val => Sys2Proof.Machine.execLqiCqMod f qp val s
  | .fetchGrant qfe => Sys2Proof.Machine.execFetchGrant qfe s
  | .ringReadCompletion qfe slot r => Sys2Proof.Machine.execRingReadCompletion qfe slot r s
  | .ringReadTimeout qfe slot => Sys2Proof.Machine.execRingReadTimeout qfe slot s
  | .pageRequestResponse f req ok => Sys2Proof.Machine.execPageRequestResponse f req ok s
  | .pageRequestTimeout f req => Sys2Proof.Machine.execPageRequestTimeout f req s
  | .atsInvalidation f page => Sys2Proof.Machine.execAtsInvalidation f page s
  | .packetPlacement f qp => Sys2Proof.Machine.execPacketPlacement f qp s
  | .pktNop pid => Sys2Proof.Machine.execPktNop pid s
  | .fence pid => Sys2Proof.Machine.execFence pid s
  | .fenceRelease f qp => Sys2Proof.Machine.execFenceRelease f qp s
  | .seqOpen pid => Sys2Proof.Machine.execSeqOpen pid s
  | .seqFeed pid => Sys2Proof.Machine.execSeqFeed pid s
  | .seqStep pid => Sys2Proof.Machine.execSeqStep pid s
  | .seqClose pid => Sys2Proof.Machine.execSeqClose pid s
  | .solveSet pid => Sys2Proof.Machine.execSolveSet pid s
  | .solveDelta pid => Sys2Proof.Machine.execSolveDelta pid s
  | .solveDrop pid => Sys2Proof.Machine.execSolveDrop pid s
  | .paramWrite pid => Sys2Proof.Machine.execParamWrite pid s
  | .paramRead pid => Sys2Proof.Machine.execParamRead pid s
  | .signal pid => Sys2Proof.Machine.execSignal pid s
  | .wait pid => Sys2Proof.Machine.execWait pid s
  | .queryQueueAccounting pid => Sys2Proof.Machine.execQueryQueueAccounting pid s
  | .querySequence pid => Sys2Proof.Machine.execQuerySequence pid s
  | .queryQuotaUse pid => Sys2Proof.Machine.execQueryQuotaUse pid s
  | .weightChunk pid => Sys2Proof.Machine.execWeightChunk pid s
  | .reservedOpcodePacket f qp => Sys2Proof.Machine.execReservedOpcodePacket f qp s
  | .cqRecordWrite f qp => Sys2Proof.Machine.execCqRecordWrite f qp s
  | .cqModTimer f qp => Sys2Proof.Machine.execCqModTimer f qp s
  | .signalAckTimeout sigTag => Sys2Proof.Machine.execSignalAckTimeout sigTag s
  | .packetTimeout pid => Sys2Proof.Machine.execPacketTimeout pid s
  | .stepLimitExpiry job => Sys2Proof.Machine.execStepLimitExpiry job s
  | .notifyRecordTimeout f qp => Sys2Proof.Machine.execNotifyRecordTimeout f qp s
  | .admissionClose job => Sys2Proof.Machine.execAdmissionClose job s
  | .workListBuilt job => Sys2Proof.Machine.execWorkListBuilt job s
  | .stepBuilderBoundMissed job => Sys2Proof.Machine.execStepBuilderBoundMissed job s
  | .plannedAction job a => Sys2Proof.Machine.execPlannedAction job a s
  | .plannedTransferStart job idx => Sys2Proof.Machine.execPlannedTransferStart job idx s
  | .layerBoundary job => Sys2Proof.Machine.execLayerBoundary job s
  | .jobSwitchDone job => Sys2Proof.Machine.execJobSwitchDone job s
  | .wake job idx => Sys2Proof.Machine.execWake job idx s
  | .gate job idx => Sys2Proof.Machine.execGate job idx s
  | .columnOn job idx => Sys2Proof.Machine.execColumnOn job idx s
  | .columnOff job idx => Sys2Proof.Machine.execColumnOff job idx s
  | .columnPowerGood col => Sys2Proof.Machine.execColumnPowerGood col s
  | .columnPowerGoodTimeout col => Sys2Proof.Machine.execColumnPowerGoodTimeout col s
  | .quietLate col => Sys2Proof.Machine.execQuietLate col s
  | .powerDomainOff d ok => Sys2Proof.Machine.execPowerDomainOff d ok s
  | .add t u => Sys2Proof.Machine.execAdd t u s
  | .sub t u => Sys2Proof.Machine.execSub t u s
  | .and t u => Sys2Proof.Machine.execAnd t u s
  | .or t u => Sys2Proof.Machine.execOr t u s
  | .xor t u => Sys2Proof.Machine.execXor t u s
  | .shl t u => Sys2Proof.Machine.execShl t u s
  | .shr t u => Sys2Proof.Machine.execShr t u s
  | .sra t u => Sys2Proof.Machine.execSra t u s
  | .mul t u => Sys2Proof.Machine.execMul t u s
  | .mulhu t u => Sys2Proof.Machine.execMulhu t u s
  | .slt t u => Sys2Proof.Machine.execSlt t u s
  | .sltu t u => Sys2Proof.Machine.execSltu t u s
  | .min t u => Sys2Proof.Machine.execMin t u s
  | .max t u => Sys2Proof.Machine.execMax t u s
  | .minu t u => Sys2Proof.Machine.execMinu t u s
  | .maxu t u => Sys2Proof.Machine.execMaxu t u s
  | .addi t u => Sys2Proof.Machine.execAddi t u s
  | .andi t u => Sys2Proof.Machine.execAndi t u s
  | .ori t u => Sys2Proof.Machine.execOri t u s
  | .xori t u => Sys2Proof.Machine.execXori t u s
  | .shli t u => Sys2Proof.Machine.execShli t u s
  | .shri t u => Sys2Proof.Machine.execShri t u s
  | .srai t u => Sys2Proof.Machine.execSrai t u s
  | .movi t u => Sys2Proof.Machine.execMovi t u s
  | .movhi t u => Sys2Proof.Machine.execMovhi t u s
  | .slti t u => Sys2Proof.Machine.execSlti t u s
  | .ld t u => Sys2Proof.Machine.execLd t u s
  | .lw t u => Sys2Proof.Machine.execLw t u s
  | .lh t u => Sys2Proof.Machine.execLh t u s
  | .lb t u => Sys2Proof.Machine.execLb t u s
  | .st t u => Sys2Proof.Machine.execSt t u s
  | .sw t u => Sys2Proof.Machine.execSw t u s
  | .sh t u => Sys2Proof.Machine.execSh t u s
  | .sb t u => Sys2Proof.Machine.execSb t u s
  | .beq t u => Sys2Proof.Machine.execBeq t u s
  | .bne t u => Sys2Proof.Machine.execBne t u s
  | .blt t u => Sys2Proof.Machine.execBlt t u s
  | .bge t u => Sys2Proof.Machine.execBge t u s
  | .bltu t u => Sys2Proof.Machine.execBltu t u s
  | .bgeu t u => Sys2Proof.Machine.execBgeu t u s
  | .j t u => Sys2Proof.Machine.execJ t u s
  | .call t u => Sys2Proof.Machine.execCall t u s
  | .callr t u => Sys2Proof.Machine.execCallr t u s
  | .jr t u => Sys2Proof.Machine.execJr t u s
  | .ret t u => Sys2Proof.Machine.execRet t u s
  | .tret t u => Sys2Proof.Machine.execTret t u s
  | .nop t u => Sys2Proof.Machine.execNop t u s
  | .lock t u => Sys2Proof.Machine.execLock t u s
  | .unlock t u => Sys2Proof.Machine.execUnlock t u s
  | .sync t u => Sys2Proof.Machine.execSync t u s
  | .waitcyc t u => Sys2Proof.Machine.execWaitcyc t u s
  | .waitcycS t u => Sys2Proof.Machine.execWaitcycS t u s
  | .rdoff t u => Sys2Proof.Machine.execRdoff t u s
  | .rdstep t u => Sys2Proof.Machine.execRdstep t u s
  | .rdid t u => Sys2Proof.Machine.execRdid t u s
  | .rdjob t u => Sys2Proof.Machine.execRdjob t u s
  | .spillw t u => Sys2Proof.Machine.execSpillw t u s
  | .fillw t u => Sys2Proof.Machine.execFillw t u s
  | .srr t u => Sys2Proof.Machine.execSrr t u s
  | .srw t u => Sys2Proof.Machine.execSrw t u s
  | .semInc t u => Sys2Proof.Machine.execSemInc t u s
  | .semAcq t u => Sys2Proof.Machine.execSemAcq t u s
  | .semTry t u => Sys2Proof.Machine.execSemTry t u s
  | .semIncr t u => Sys2Proof.Machine.execSemIncr t u s
  | .send t u => Sys2Proof.Machine.execSend t u s
  | .recv t u => Sys2Proof.Machine.execRecv t u s
  | .release t u => Sys2Proof.Machine.execRelease t u s
  | .credBorrow t u => Sys2Proof.Machine.execCredBorrow t u s
  | .credReturn t u => Sys2Proof.Machine.execCredReturn t u s
  | .watch t u => Sys2Proof.Machine.execWatch t u s
  | .pread t u => Sys2Proof.Machine.execPread t u s
  | .pwrite t u => Sys2Proof.Machine.execPwrite t u s
  | .blk t u => Sys2Proof.Machine.execBlk t u s
  | .xfer t u => Sys2Proof.Machine.execXfer t u s
  | .outboxPost t u => Sys2Proof.Machine.execOutboxPost t u s
  | .vadd t u => Sys2Proof.Machine.execVadd t u s
  | .vsub t u => Sys2Proof.Machine.execVsub t u s
  | .vmul t u => Sys2Proof.Machine.execVmul t u s
  | .vfma t u => Sys2Proof.Machine.execVfma t u s
  | .vmax t u => Sys2Proof.Machine.execVmax t u s
  | .vmin t u => Sys2Proof.Machine.execVmin t u s
  | .vexp t u => Sys2Proof.Machine.execVexp t u s
  | .vlog t u => Sys2Proof.Machine.execVlog t u s
  | .vrsq t u => Sys2Proof.Machine.execVrsq t u s
  | .vcvti t u => Sys2Proof.Machine.execVcvti t u s
  | .vcvtf t u => Sys2Proof.Machine.execVcvtf t u s
  | .vbcast t u => Sys2Proof.Machine.execVbcast t u s
  | .vredsum t u => Sys2Proof.Machine.execVredsum t u s
  | .vredmax t u => Sys2Proof.Machine.execVredmax t u s
  | .viadd t u => Sys2Proof.Machine.execViadd t u s
  | .vimul t u => Sys2Proof.Machine.execVimul t u s
  | .vld t u => Sys2Proof.Machine.execVld t u s
  | .vst t u => Sys2Proof.Machine.execVst t u s
  | .waitConditionMet t u => Sys2Proof.Machine.execWaitConditionMet t u s
  | .rowGroupEnd t u => Sys2Proof.Machine.execRowGroupEnd t u s
  | .transferRequest tag walkerUe => Sys2Proof.Machine.execTransferRequest tag walkerUe s
  | .transferResponse tag r => Sys2Proof.Machine.execTransferResponse tag r s
  | .transferNoResponse tag => Sys2Proof.Machine.execTransferNoResponse tag s
  | .pageTableUpdate part dva pte => Sys2Proof.Machine.execPageTableUpdate part dva pte s
  | .holdRepaired part => Sys2Proof.Machine.execHoldRepaired part s
  | .holdLimit part => Sys2Proof.Machine.execHoldLimit part s
  | .stackChannelFail ch => Sys2Proof.Machine.execStackChannelFail ch s
  | .stackRefresh ch => Sys2Proof.Machine.execStackRefresh ch s
  | .watchReread t => Sys2Proof.Machine.execWatchReread t s
  | .ucWrite p => Sys2Proof.Machine.execUcWrite p s
  | .ucRead p => Sys2Proof.Machine.execUcRead p s
  | .ucReadData p => Sys2Proof.Machine.execUcReadData p s
  | .ucSemInc p => Sys2Proof.Machine.execUcSemInc p s
  | .ucChanMsg p => Sys2Proof.Machine.execUcChanMsg p s
  | .ucChanCredit p => Sys2Proof.Machine.execUcChanCredit p s
  | .ucAck p => Sys2Proof.Machine.execUcAck p s
  | .ucNack p => Sys2Proof.Machine.execUcNack p s
  | .ucCfgRead p => Sys2Proof.Machine.execUcCfgRead p s
  | .ucCfgWrite p => Sys2Proof.Machine.execUcCfgWrite p s
  | .ucCfgData p => Sys2Proof.Machine.execUcCfgData p s
  | .halfLinkDown => Sys2Proof.Machine.execHalfLinkDown s
  | .monthBoundary => Sys2Proof.Machine.execMonthBoundary s
  | .slotSend port supplied => Sys2Proof.Machine.execSlotSend port supplied s
  | .slotReceive port arg => Sys2Proof.Machine.execSlotReceive port arg s
  | .equinox skew dm => Sys2Proof.Machine.execEquinox skew dm s
  | .equinoxMissed => Sys2Proof.Machine.execEquinoxMissed s
  | .adrift => Sys2Proof.Machine.execAdrift s
  | .signalFrame port fr => Sys2Proof.Machine.execSignalFrame port fr s
  | .signalAck port fr => Sys2Proof.Machine.execSignalAck port fr s
  | .semRead port fr => Sys2Proof.Machine.execSemRead port fr s
  | .semData port fr => Sys2Proof.Machine.execSemData port fr s
  | .almCtrl port fr => Sys2Proof.Machine.execAlmCtrl port fr s
  | .delayReq port fr => Sys2Proof.Machine.execDelayReq port fr s
  | .delayRsp port fr => Sys2Proof.Machine.execDelayRsp port fr s
  | .portUp port delay foreign => Sys2Proof.Machine.execPortUp port delay foreign s
  | .portDown port => Sys2Proof.Machine.execPortDown port s
  | .partnerCall port => Sys2Proof.Machine.execPartnerCall port s
  | .answerWindow port => Sys2Proof.Machine.execAnswerWindow port s
  | .trainingTimeout port => Sys2Proof.Machine.execTrainingTimeout port s
  | .tileSolverRequest p => Sys2Proof.Machine.execTileSolverRequest p s
  | .problemStart h => Sys2Proof.Machine.execProblemStart h s
  | .solverUnit h ctx ue => Sys2Proof.Machine.execSolverUnit h ctx ue s
  | .solverDeadline h ctx => Sys2Proof.Machine.execSolverDeadline h ctx s
  | .solverHang h ctx => Sys2Proof.Machine.execSolverHang h ctx s
  | .sourceEdge h tgt src => Sys2Proof.Machine.execSourceEdge h tgt src s
  | .levelInputChange h tgt src active => Sys2Proof.Machine.execLevelInputChange h tgt src active s
  | .intcClaim h tgt => Sys2Proof.Machine.execIntcClaim h tgt s
  | .intcComplete h tgt num => Sys2Proof.Machine.execIntcComplete h tgt num s
  | .intcSrc h tgt src w => Sys2Proof.Machine.execIntcSrc h tgt src w s
  | .holdoffEnd h g => Sys2Proof.Machine.execHoldoffEnd h g s
  | .wakeLatch h src => Sys2Proof.Machine.execWakeLatch h src s
  | .l12Exit => Sys2Proof.Machine.execL12Exit s
  | .summerReached facts => Sys2Proof.Machine.execSummerReached facts s
  | .winterEntry => Sys2Proof.Machine.execWinterEntry s
  | .drainGraceExpiry part => Sys2Proof.Machine.execDrainGraceExpiry part s
  | .thermalAlert die temp => Sys2Proof.Machine.execThermalAlert die temp s
  | .thermalTrip die temp => Sys2Proof.Machine.execThermalTrip die temp s
  | .railExcursion rail => Sys2Proof.Machine.execRailExcursion rail s
  | .refclkLost => Sys2Proof.Machine.execRefclkLost s
  | .regulatorRefill part res => Sys2Proof.Machine.execRegulatorRefill part res s
  | .shadowCompare job => Sys2Proof.Machine.execShadowCompare job s
  | .probeRoundStart t pkg => Sys2Proof.Machine.execProbeRoundStart t pkg s
  | .probeRoundEnd t own c1 c2 => Sys2Proof.Machine.execProbeRoundEnd t own c1 c2 s
  | .probeRoundTimeout t => Sys2Proof.Machine.execProbeRoundTimeout t s
  | .probeTimeout op => Sys2Proof.Machine.execProbeTimeout op s
  | .observationTest t ran fails => Sys2Proof.Machine.execObservationTest t ran fails s
  | .observationPeriodEnd t => Sys2Proof.Machine.execObservationPeriodEnd t s
  | .heartbeat cp => Sys2Proof.Machine.execHeartbeat cp s
  | .heartbeatCheck => Sys2Proof.Machine.execHeartbeatCheck s
  | .cpRestartEnd cp => Sys2Proof.Machine.execCpRestartEnd cp s
  | .cpRestartTimeout cp => Sys2Proof.Machine.execCpRestartTimeout cp s
  | .queueResetComplete f qp => Sys2Proof.Machine.execQueueResetComplete f qp s
  | .jobKillComplete job => Sys2Proof.Machine.execJobKillComplete job s
  | .killEscalation job => Sys2Proof.Machine.execKillEscalation job s
  | .partitionResetEnd part => Sys2Proof.Machine.execPartitionResetEnd part s
  | .partitionResetTimeout part => Sys2Proof.Machine.execPartitionResetTimeout part s
  | .qfeHang qfe => Sys2Proof.Machine.execQfeHang qfe s
  | .warmDeviceReset cause unit index => Sys2Proof.Machine.execWarmDeviceReset cause unit index s
  | .flushPhaseEnd => Sys2Proof.Machine.execFlushPhaseEnd s
  | .spWatchdog => Sys2Proof.Machine.execSpWatchdog s
  | .seasonInstall load facts => Sys2Proof.Machine.execSeasonInstall load facts s
  | .mgmtQueueTimeout op => Sys2Proof.Machine.execMgmtQueueTimeout op s
  | .dumpCaptureEnd => Sys2Proof.Machine.execDumpCaptureEnd s
  | .turnoverComplete epochOk badChannels => Sys2Proof.Machine.execTurnoverComplete epochOk badChannels s
  | .go mb => Sys2Proof.Machine.execGo mb s
  | .ack mb => Sys2Proof.Machine.execAck mb s
  | .mbNoticeHead mb val => Sys2Proof.Machine.execMbNoticeHead mb val s
  | .cpReq cp => Sys2Proof.Machine.execCpReq cp s
  | .registerWrite a => Sys2Proof.Machine.execRegisterWrite a s
  | .misalignedAccess a => Sys2Proof.Machine.execMisalignedAccess a s
  | .lowHalfRead a => Sys2Proof.Machine.execLowHalfRead a s
  | .highHalfRead a => Sys2Proof.Machine.execHighHalfRead a s
  | .lowHalfWrite a => Sys2Proof.Machine.execLowHalfWrite a s
  | .highHalfWrite a => Sys2Proof.Machine.execHighHalfWrite a s
  | .mbNoticeLostRead mb => Sys2Proof.Machine.execMbNoticeLostRead mb s
  | .seqBuildRead h => Sys2Proof.Machine.execSeqBuildRead h s
  | .partSwitchMaxRead part => Sys2Proof.Machine.execPartSwitchMaxRead part s
  | .partUcNackRead part => Sys2Proof.Machine.execPartUcNackRead part s
  | .partHoldRead part => Sys2Proof.Machine.execPartHoldRead part s
  | .partMemerrRead part => Sys2Proof.Machine.execPartMemerrRead part s
  | .partShadowStatsRead part => Sys2Proof.Machine.execPartShadowStatsRead part s
  | .fabHlErrRead => Sys2Proof.Machine.execFabHlErrRead s
  | .fabMeshNackRead h => Sys2Proof.Machine.execFabMeshNackRead h s
  | .fabMeshErrRead h => Sys2Proof.Machine.execFabMeshErrRead h s
  | .fabPortErrRead port => Sys2Proof.Machine.execFabPortErrRead port s
  | .fabAlmSkewRead => Sys2Proof.Machine.execFabAlmSkewRead s
  | .fabJobSilentRead job => Sys2Proof.Machine.execFabJobSilentRead job s
  | .seqSolverStatsRead h => Sys2Proof.Machine.execSeqSolverStatsRead h s
  | .seqSolverMaxRead h => Sys2Proof.Machine.execSeqSolverMaxRead h s
  | .intcLostCountRead h => Sys2Proof.Machine.execIntcLostCountRead h s
  | .intcSpuriousRead h tgt => Sys2Proof.Machine.execIntcSpuriousRead h tgt s
  | .pwrStatsRead => Sys2Proof.Machine.execPwrStatsRead s
  | .pwrThermalRead => Sys2Proof.Machine.execPwrThermalRead s
  | .pwrStartRead => Sys2Proof.Machine.execPwrStartRead s
  | .pwrAuditRead => Sys2Proof.Machine.execPwrAuditRead s
  | .secViolationRead => Sys2Proof.Machine.execSecViolationRead s
  | .dbgTracePtrRead => Sys2Proof.Machine.execDbgTracePtrRead s
  | .identify mb => Sys2Proof.Machine.execIdentify mb s
  | .status mb => Sys2Proof.Machine.execStatus mb s
  | .deviceReset mb => Sys2Proof.Machine.execDeviceReset mb s
  | .powerStateWinter mb => Sys2Proof.Machine.execPowerStateWinter mb s
  | .powerStateSummer mb => Sys2Proof.Machine.execPowerStateSummer mb s
  | .operationStatus mb => Sys2Proof.Machine.execOperationStatus mb s
  | .noticeMask mb => Sys2Proof.Machine.execNoticeMask mb s
  | .timeRead mb => Sys2Proof.Machine.execTimeRead mb s
  | .sliceRead mb => Sys2Proof.Machine.execSliceRead mb s
  | .vfQuota mb => Sys2Proof.Machine.execVfQuota mb s
  | .vfReset mb => Sys2Proof.Machine.execVfReset mb s
  | .partCreate mb => Sys2Proof.Machine.execPartCreate mb s
  | .partDestroy mb => Sys2Proof.Machine.execPartDestroy mb s
  | .partReset mb => Sys2Proof.Machine.execPartReset mb s
  | .partDrain mb => Sys2Proof.Machine.execPartDrain mb s
  | .partStatus mb => Sys2Proof.Machine.execPartStatus mb s
  | .partRegulate mb => Sys2Proof.Machine.execPartRegulate mb s
  | .seasonLoad mb => Sys2Proof.Machine.execSeasonLoad mb s
  | .seasonUnload mb => Sys2Proof.Machine.execSeasonUnload mb s
  | .jobStart mb => Sys2Proof.Machine.execJobStart mb s
  | .jobKill mb => Sys2Proof.Machine.execJobKill mb s
  | .jobModify mb => Sys2Proof.Machine.execJobModify mb s
  | .jobStatus mb => Sys2Proof.Machine.execJobStatus mb s
  | .serviceVisibility mb => Sys2Proof.Machine.execServiceVisibility mb s
  | .servicePositions mb => Sys2Proof.Machine.execServicePositions mb s
  | .serviceWithdraw mb => Sys2Proof.Machine.execServiceWithdraw mb s
  | .serviceList mb => Sys2Proof.Machine.execServiceList mb s
  | .queueCreate mb => Sys2Proof.Machine.execQueueCreate mb s
  | .queueModify mb => Sys2Proof.Machine.execQueueModify mb s
  | .queueReset mb => Sys2Proof.Machine.execQueueReset mb s
  | .queueDelete mb => Sys2Proof.Machine.execQueueDelete mb s
  | .signalTarget mb => Sys2Proof.Machine.execSignalTarget mb s
  | .stepLimit mb => Sys2Proof.Machine.execStepLimit mb s
  | .fetchReserve mb => Sys2Proof.Machine.execFetchReserve mb s
  | .healthRead mb => Sys2Proof.Machine.execHealthRead mb s
  | .shadowSet mb => Sys2Proof.Machine.execShadowSet mb s
  | .probe mb => Sys2Proof.Machine.execProbe mb s
  | .observeAdd mb => Sys2Proof.Machine.execObserveAdd mb s
  | .observeRemove mb => Sys2Proof.Machine.execObserveRemove mb s
  | .patternInstall mb => Sys2Proof.Machine.execPatternInstall mb s
  | .patternList mb => Sys2Proof.Machine.execPatternList mb s
  | .dumpCapture mb => Sys2Proof.Machine.execDumpCapture mb s
  | .dumpRead mb => Sys2Proof.Machine.execDumpRead mb s
  | .dumpClear mb => Sys2Proof.Machine.execDumpClear mb s
  | .errlogRead mb => Sys2Proof.Machine.execErrlogRead mb s
  | .cpRestart mb => Sys2Proof.Machine.execCpRestart mb s
  | .spareMapRead mb => Sys2Proof.Machine.execSpareMapRead mb s
  | .secStatus mb => Sys2Proof.Machine.execSecStatus mb s
  | .tenantTurnover mb => Sys2Proof.Machine.execTenantTurnover mb s
  | .weightKeyImport mb unwraps => Sys2Proof.Machine.execWeightKeyImport mb unwraps s
  | .hostLockout mb => Sys2Proof.Machine.execHostLockout mb s
  | .debugUnlockChallenge mb => Sys2Proof.Machine.execDebugUnlockChallenge mb s
  | .debugUnlockResponse mb sigOk => Sys2Proof.Machine.execDebugUnlockResponse mb sigOk s
  | .debugRelock mb => Sys2Proof.Machine.execDebugRelock mb s
  | .fwUpdate mb => Sys2Proof.Machine.execFwUpdate mb s
  | .ownershipRead mb => Sys2Proof.Machine.execOwnershipRead mb s
  | .fabStatus mb => Sys2Proof.Machine.execFabStatus mb s
  | .fabPort mb => Sys2Proof.Machine.execFabPort mb s
  | .almanacJoin mb => Sys2Proof.Machine.execAlmanacJoin mb s
  | .almanacLeave mb => Sys2Proof.Machine.execAlmanacLeave mb s
  | .semaphoreGrant mb => Sys2Proof.Machine.execSemaphoreGrant mb s
  | .dbgHalt mb => Sys2Proof.Machine.execDbgHalt mb s
  | .tileHalt t => Sys2Proof.Machine.execTileHalt t s
  | .lockWait t => Sys2Proof.Machine.execLockWait t s
  | .haltTimeout t => Sys2Proof.Machine.execHaltTimeout t s
  | .breakpointHit t => Sys2Proof.Machine.execBreakpointHit t s
  | .dbgResume mb => Sys2Proof.Machine.execDbgResume mb s
  | .dbgPeek mb => Sys2Proof.Machine.execDbgPeek mb s
  | .dbgTake mb => Sys2Proof.Machine.execDbgTake mb s
  | .dbgTrace mb => Sys2Proof.Machine.execDbgTrace mb s
  | .mgmtHandshake chainOk => Sys2Proof.Machine.execMgmtHandshake chainOk s
  | .request req => Sys2Proof.Machine.execRequest req s
  | .bulk op off data facts => Sys2Proof.Machine.execBulk op off data facts s
  | .enroll key written => Sys2Proof.Machine.execEnroll key written s
  | .ownerUpdate key sigOk written => Sys2Proof.Machine.execOwnerUpdate key sigOk written s
  | .keepalive => Sys2Proof.Machine.execKeepalive s
  | .keyExchange => Sys2Proof.Machine.execKeyExchange s
  | .getMeasurements idx => Sys2Proof.Machine.execGetMeasurements idx s
  | .endSession sess => Sys2Proof.Machine.execEndSession sess s
  | .spdmHeartbeatTimeout sess => Sys2Proof.Machine.execSpdmHeartbeatTimeout sess s
  | .ideCheckFailed stream qfe slot => Sys2Proof.Machine.execIdeCheckFailed stream qfe slot s
  | .lockInterface v stream => Sys2Proof.Machine.execLockInterface v stream s
  | .startInterface v => Sys2Proof.Machine.execStartInterface v s
  | .stopInterface v => Sys2Proof.Machine.execStopInterface v s
  | .setEndpointId eid => Sys2Proof.Machine.execSetEndpointId eid s
  | .getEndpointId => Sys2Proof.Machine.execGetEndpointId s
  | .getMctpVersionSupport => Sys2Proof.Machine.execGetMctpVersionSupport s
  | .getMessageTypeSupport => Sys2Proof.Machine.execGetMessageTypeSupport s
  | .getPdr rec => Sys2Proof.Machine.execGetPdr rec s
  | .getSensorReading sensor => Sys2Proof.Machine.execGetSensorReading sensor s
  | .getStateSensorReadings => Sys2Proof.Machine.execGetStateSensorReadings s
  | .powerOn => Sys2Proof.Machine.execPowerOn s
  | .powerCycle => Sys2Proof.Machine.execPowerCycle s
  | .refclkReturn => Sys2Proof.Machine.execRefclkReturn s
  | .thermalAlertEnd die temp => Sys2Proof.Machine.execThermalAlertEnd die temp s
  | .atsTranslationCompletion f qp page valid => Sys2Proof.Machine.execAtsTranslationCompletion f qp page valid s
  | .intcParityError h => Sys2Proof.Machine.execIntcParityError h s
  | .tileAwake t => Sys2Proof.Machine.execTileAwake t s
  | .unplannedWakeIdle t => Sys2Proof.Machine.execUnplannedWakeIdle t s
  | .frequencyLock => Sys2Proof.Machine.execFrequencyLock s
  | .ideKm sess stream => Sys2Proof.Machine.execIdeKm sess stream s
  | .spdmHeartbeat sess => Sys2Proof.Machine.execSpdmHeartbeat sess s
  | .managementSessionEnd => Sys2Proof.Machine.execManagementSessionEnd s
  | .serviceWithdrawGrace svc => Sys2Proof.Machine.execServiceWithdrawGrace svc s
  | .storeCePeriodEnd t => Sys2Proof.Machine.execStoreCePeriodEnd t s

end Sys2Proof.Machine
end

