-- ==== Sys2Proof/Machine/Idle.lean ====
section
/-! DEFINITION. One grid cycle: what happens because time passes, whatever is commanded (log 1). The events that the operation table
lists, such as a Month boundary or the end of a layer, are commands; this is what runs between them. -/

namespace Sys2Proof.Machine

open Sys2Proof

/-- The clocks: the grid cycle, the calendar tick of 1,500 cycles, the place in the Month (00, Notation; R25, R658, R659). -/
def Clock.tock (c : Clock) : Clock :=
  { c with
    cycle := c.cycle + 1
    sub := if c.sub = 1499 then 0 else c.sub + 1
    tick := if c.sub = 1499 then c.tick + 1 else c.tick
    phase := if c.monthsOn then c.phase + 1 else c.phase }

/-- REMAIN counts down at each calendar tick; its last tick is HOLDOFF_END (R622, R623). -/
def countRemain (s : State) : State :=
  if s.clk.sub = 0 ∧ s.pwr.cpClock then
    { s with intcs := s.intcs.updAll (fun _ c => { c with remain := c.remain.updAll (fun _ n => if 1 < n then n - 1 else n) }) }
  else s

/-- The partition's running cycles go on (R288, R486, R870): no Hold, no reset, no debug stop. -/
def Part.goes (q : Part) : Bool := q.hold.isNone && !q.resetting && q.stop.state != 1 && q.stop.state != 2

/-- A job in one grid cycle: the offset of the running one (R288), the lead of one whose close has been held (R290), the wait of one that is
ready (R295). -/
def cycleJob (s : State) (j : Nat) (b : Job) : Job :=
  match s.parts.look b.part with
  | none => b
  | some q =>
    if !q.goes ∨ b.state = 4 then b
    else
      let top := match q.season with | some x => x.stepCycles | none => 0
      let below : Bool := match q.runJob with | some k => decide (b.prio < (s.jobs.val k {}).prio) | none => q.switch.isSome
      let b1 := if b.state = 2 ∧ q.runJob = some j ∧ q.switch = none ∧ b.offset < top then { b with offset := b.offset + 1 } else b
      let b2 := if b.readyAt.isSome && below then { b1 with waited := b1.waited + 1 } else b1
      match b.readyIn with
      | none => b2
      | some n => if 1 < n then { b2 with readyIn := some (n - 1) } else { b2 with readyIn := none, readyAt := some s.clk.cycle, waited := 0 }

/-- The close of a slot-owning job's first step falls ADMIT_LEAD_CYCLES before the Month that starts it (R518). -/
def slotClose (s : State) (b : Job) : Job :=
  match (s.parts.val b.part {}).season with
  | none => b
  | some x =>
    if x.ownsSlots ∧ b.state = 1 ∧ !b.closed ∧ b.readyIn = none ∧ s.alm.month < b.startMonth
        ∧ (b.startMonth - s.alm.month) * 61440 ≤ s.clk.phase + x.lead then { b with closeDue := true }
    else b

/-- Every job's cycle. -/
def cycleJobs (s : State) : State := { s with jobs := s.jobs.updAll (fun j b => slotClose s (cycleJob s j b)) }

/-- A deferred GATE takes effect once the tile's task waits or is halted (R662). -/
def settleGates (s : State) : State :=
  { s with tiles := s.tiles.updAll (fun _ x => if x.gateDue ∧ x.run ≠ 0 ∧ x.power = 1 then { x with power := 0, ucWoken := none, gateDue := false } else x) }

/-- A probe round whose window has closed is abandoned (R744). -/
def dropRounds (s : State) : State :=
  { s with tiles := s.tiles.updAll (fun k x => if x.probe.isSome && !s.probeWindow k 0 then { x with probe := none } else x) }

/-- One trace entry goes to the trace ring (R885). -/
def drainTrace (s : State) : State :=
  match s.tiles.find? (fun e => e.2.traceQ != []) with
  | none => s
  | some (p, x) =>
    match x.traceQ with
    | [] => s
    | e :: rest =>
      (s.setTile p { x with traceQ := rest }).setDbg (fun d => { d with
        ring := d.ring.put d.next e
        next := (d.next + 1) % 32768
        wrapped := d.wrapped || d.next == 32767 })

/-- Restore the 2 MiB ranges of weights that await it, from the staged image under the kept key (R316, R494, R837). -/
def restoreWeights (part : Nat) (s : State) : State :=
  match s.parts.look part with
  | none => s
  | some q =>
    match q.season with
    | none => s
    | some x =>
      if q.reload = [] ∨ q.staged.isNone ∨ !q.contentKey then s
      else
        let pages := (layoutOf q x.regions).pages.filter (fun e => e.2.2.kind == 1)
        let r := pages.foldl (fun (r : Nat × State) e =>
          let n := e.2.2.pageBytes
          (r.1 + n, if q.reload.contains (e.1 / 0x200000) then writeDpa e.2.1 (Mem.read x.plain r.1 n) r.2 else r.2)) (0, s)
        r.2.modPart part (fun q => { q with reload := [] })

/-- What a partition does in a grid cycle. -/
def cyclePart (s : State) (part : Nat) : State := pickIdle part (endDrained part (restoreWeights part s))

/-- One grid cycle. Without power, and while THERMTRIP# has stopped the clocks, none passes. -/
def gridCycle (s : State) : State :=
  if !s.pins.aon ∨ s.pins.thermtrip then s
  else
    let s1 := intcBothLevel 263 false (countRemain { s with clk := s.clk.tock })
    let s2 := drainTrace (dropRounds (settleGates (cycleJobs s1)))
    settleWaits (forEach s2.parts.keys s2 cyclePart)

end Sys2Proof.Machine
end

