-- ==== Sys2Proof/Safety.lean ====
section
/-! DEFINITION. The terms that the claims are stated in: what a tile instruction's completion leaves alone, and when a command may run. -/

namespace Sys2Proof.Machine

open Sys2Proof

/-- The command answers a next state of which `p` holds. -/
def State.Does (s : State) (c : Instr) (p : State → Prop) : Prop := ∃ t, exec c s = .next t ∧ p t

/-- The stack memory and every tile store are in their canonical form. -/
def State.memWf (s : State) : Bool := Memory.wf s.mem.stack && s.tiles.all (fun e => Memory.wf e.2.store)

/-! ## Hangs -/

/-- A warm device reset may begin: no flush phase, PERST# deasserted, no thermal trip, no warm start on its way (R811). -/
def State.mayReset (s : State) : Bool :=
  s.ladder.flush.isNone && !s.pins.perst && !s.pins.thermtrip && !(s.start.running && s.start.warm)

/-- A warm device reset has begun: the cause and the unit are recorded, the flush phase runs from this tick, the device is not ready and no job is left. -/
def State.WarmReset (s : State) (cause unit index : Nat) (t : State) : Prop :=
  t.pwr.lastCause = cause ∧ t.pwr.lastUnit = unit ∧ t.pwr.lastIndex = index ∧ t.pwr.ready = false ∧ t.ladder.flush = some s.clk.tick ∧ t.jobs = []

/-- The engine's hang has begun a warm device reset. -/
def State.Hung (s : State) (unit index : Nat) (t : State) : Prop := s.WarmReset 4 unit index t

/-! ## Long operations and notices -/

/-- The operation is outstanding, and no CP restart has ended it. -/
def State.opOpen (s : State) (op : Nat) : Bool := match s.opRec op with | some r => !r.done && r.rc == 0 | none => false

/-- The operation has ended with this code and DETAIL. -/
def State.OpDone (t : State) (op rc detail : Nat) : Prop := ∃ r, t.opRec op = some r ∧ r.done = true ∧ r.rc = rc ∧ r.detail = detail

/-- The notice is the next entry of PF mailbox 0's ring, where the mailbox's mask enables its kind and the ring has room. -/
def State.Posts (s t : State) (kind : Nat) (data : Bytes) : Prop :=
  let b := s.box (.pf 0)
  bit b.mask.toNat kind = true → b.tail < 16 → b.head < 16 → (b.tail + 1) % 16 ≠ b.head →
    (t.box (.pf 0)).ring.look b.tail = some (noticeEntry kind ((b.nseq + 1) % 65536) s.clk.tick data)

/-! ## Packets and their records -/

/-- Packet `pid`, of the opcode, is the next that its function's packets let be taken: placed, not taken, not final, of the current generation and epoch,
no earlier packet of its function waiting to be taken (R153). -/
def State.Takes (s : State) (pid op : Nat) (p : Packet) (q : QueuePair) : Prop :=
  s.pkts.look pid = some p ∧ s.qps.look p.qp = some q ∧ p.taken = false ∧ p.final = false ∧ p.opcode = op ∧ s.live p = true ∧
  ∀ e, e ∈ s.pkts → e.1 < pid → e.2.fnKey = p.fnKey → e.2.taken = true ∨ e.2.final = true ∨ s.live e.2 = false

/-- One record has joined the outbox, the packet's final one, with this status, DETAIL, handle and result. -/
def State.Answers (s t : State) (pid status detail handle : Nat) (result : Bytes) : Prop :=
  ∃ r, t.outbox = s.outbox ++ [r] ∧ r.pkt = pid ∧ r.fin = true ∧ r.status = status ∧ r.detail = detail ∧ r.handle = handle ∧ r.result = result

/-- A final record of the packet with this status and DETAIL is in the outbox. -/
def State.Ended (t : State) (pid status detail : Nat) : Prop :=
  ∃ r, r ∈ t.outbox ∧ r.pkt = pid ∧ r.fin = true ∧ r.status = status ∧ r.detail = detail

/-- The job is being killed, with this status and DETAIL as what its JOB_ENDED notice will carry. -/
def State.Killed (t : State) (job status detail : Nat) : Prop :=
  ∃ b, t.jobs.look job = some b ∧ b.state = 4 ∧ b.killStatus = status ∧ b.killDetail = detail

/-! ## Mailbox commands -/

/-- The states are alike but for mailboxes, operations and locks, what the block sent, and the functions (whose pending vectors an answer may set). -/
def State.Apart (e t : State) : Prop := { t with mail := e.mail, out := e.out, fns := e.fns } = e

/-- Mailbox `m` holds the request `r` of a command that its channel may send, with a header in order, and nothing keeps the command waiting: no CP restart, no lock,
fewer than 64 operations outstanding, no ownership change due (R225, R236, R242, R248). -/
def State.Serves (s : State) (m : Mbox) (op : Nat) (r : Bytes) : Prop :=
  s.hasBox m = true ∧ boxTakes m (op / 256) = true ∧ (∃ c, c ∈ cmdTable ∧ c.1 = op ∧ c.2.1 &&& boxWho m ≠ 0) ∧
  (s.box m).taken = some r ∧ (s.box m).state = 1 ∧ (s.box m).discard = false ∧ reqOpcode r = op ∧ (∀ e, e ∈ headBad r → e.2 = false) ∧
  s.cpsOut = false ∧ s.pins.thermtrip = false ∧ s.mail.locks = [] ∧ s.mail.late = [] ∧ s.opsOut < 64 ∧ s.sec.ownerDue = none

/-- The command is answered: the mailbox is Done with the response, or the management host has been sent it. -/
def State.Replied (t : State) (m : Mbox) (r : Bytes) (rc detail op : Nat) (result : Bytes) : Prop :=
  (t.box m).taken = none ∧
  (m ≠ .mgmt → (t.box m).state = 2 ∧ (t.box m).rsp = fit 512 (respBytes r rc detail op result)) ∧
  (m = .mgmt → (t.box m).state = 0 ∧ UpMsg.response m (respBytes r rc detail op result) ∈ t.out.up)

/-- The command is answered OK with the results, and what it does holds. -/
def State.Runs (s : State) (c : Mbox → Instr) (m : Mbox) (r result : Bytes) (p : State → Prop) : Prop :=
  s.Does (c m) (fun t => t.Replied m r rcOk 0 0 result ∧ p t)

/-- The command is answered STARTED with the results and the number of its operation, of which what it does holds. -/
def State.Starts (s : State) (c : Mbox → Instr) (m : Mbox) (r result : Bytes) (p : Nat → State → Prop) : Prop :=
  let n := nextOpFrom s.mail.ops 65 s.mail.nextOp
  s.Does (c m) (fun t => t.Replied m r rcStarted 0 n result ∧ p n t)

/-- The command is refused with the code and DETAIL, and changes nothing else. -/
def State.Refuses (s : State) (c : Mbox → Instr) (m : Mbox) (r : Bytes) (rc detail : Nat) : Prop :=
  s.Does (c m) (fun t => t.Replied m r rc detail 0 [] ∧ s.Apart t)

/-! ## Tile instructions -/

/-- What a tile's program computes with and nothing else: the tile less its program counter, its RUN, its trace queue and the marks of a
debug stop. -/
def Tile.arch (x : Tile) : Tile :=
  { x with
    pc := 0
    run := 0
    haltReq := none
    traceQ := []
    blkAgain := false
    bpPassed := false
    lock := x.lock.map (fun l => { l with count := 0, bp := none }) }

/-- The two states are alike but for what the debugger's own records show: program counters, RUN, trace queues and debug stops. -/
def State.Like (s s' : State) : Prop :=
  (∀ k, (s'.tile k).arch = (s.tile k).arch) ∧
  (∀ k, (s'.parts.look k).map (fun q => { q with stop := {} }) = (s.parts.look k).map (fun q => { q with stop := {} })) ∧
  { s'.dbg with lost := 0 } = { s.dbg with lost := 0 } ∧
  { s' with tiles := [], parts := [], dbg := {} } = { s with tiles := [], parts := [], dbg := {} }

/-- Tile `t`, its RUN being as given, stands at the word of instruction `i` and nothing keeps it from running it: its job runs, no Hold, switch,
halt, block operation or breakpoint is in its way, and a locked sequence accepts the operation (R334, R340, R341, R388, R486, R870). -/
def State.stands (s : State) (t run : Nat) (i : TInst) : Bool :=
  let x := s.tile t
  (s.issuer t run).isSome && decide (x.pc + 4 ≤ storeBytes ∧ x.pc % 4 = 0) && decide (decodeTile (ofLe (x.store.read x.pc 4)) = some i) &&
    (match x.lock with
      | none => x.bpPassed || (s.breakAt t x.pc).isNone
      | some l => lockAllows i.op && (decide (l.count < 16) || i.op == .unlock))

/-- The command ends with the instruction complete: the state is `e` but for the debugger's records, the program counter is `pc`, and the
tile does not wait. -/
def State.Completes (s : State) (c : Instr) (t : Nat) (e : State) (pc : Nat) : Prop :=
  ∃ s', exec c s = .next s' ∧ e.Like s' ∧ (s'.tile t).pc = pc ∧ (s'.tile t).run ≠ 1

/-- The instruction completes at the next word with a value in RD and nothing else changed. -/
def State.Writes (s : State) (c : Instr) (t : Nat) (i : TInst) (v : BitVec 64) : Prop :=
  s.Completes c t (s.setTile t ((s.tile t).setReg i.rd v)) ((s.tile t).pc + 4)

/-- The instruction completes at the next word with the tile as given and nothing else changed. -/
def State.Makes (s : State) (c : Instr) (t : Nat) (x : Tile) : Prop := s.Completes c t (s.setTile t x) ((s.tile t).pc + 4)

/-- The job and the partition of a tile that stands at an instruction. -/
def State.jobAt (s : State) (t run : Nat) : Nat × Job × Nat × Part := (s.issuer t run).getD (0, {}, 0, {})

/-- The context of the instruction at which a tile stands. -/
def State.ctxAt (s : State) (t run : Nat) (i : TInst) : TCtx :=
  { s := s, p := t, x := s.tile t, i := i, j := (s.jobAt t run).1, jb := (s.jobAt t run).2.1, part := (s.jobAt t run).2.2.1, q := (s.jobAt t run).2.2.2 }

end Sys2Proof.Machine
end

