-- ==== Sys2Proof/Certificates/Slice0/Obligations.lean ====
section
/-! DEFINITION. The statements for the provers. -/

open Sys2Proof Sys2Proof.Machine

/-- A command that stands at the front of the queue is taken from it, and the step is what the command does with the queue's rest. -/
def Obligations.StepRunsTheFrontCommand : Prop :=
  ∀ (c : Instr) (rest : List Instr) (s : State), s.pending = c :: rest → step s = exec c { s with pending := rest }

/-- With no command waiting, a step is the passing of one grid cycle: while the clocks run the cycle counter of R25 is one higher after it, and nothing is put in
the queue. (That an empty queue lets time pass is the model's choice, log 1.) -/
def Obligations.IdleStepIsOneGridCycle : Prop :=
  ∀ s : State, s.pending = [] → step s = .next (gridCycle s) ∧ (gridCycle s).pending = [] ∧
    (s.pins.aon = true → s.pins.thermtrip = false → (gridCycle s).clk.cycle = s.clk.cycle + 1)

/-! ## Tile instructions -/

/-- Words written out from the encoding tables decode to the instructions that they stand for: a word of every format, and two words that the spec
forbids (an unused field that is not 0, register code 25). -/
def Obligations.TileWordsDecode : Prop :=
  decodeTile 0x24A0001C = some { op := .movi, rd := 5, imm := 0x1C } ∧
  decodeTile 0x08420001 = some { op := .addi, rd := 2, ra := 2, imm := 1 } ∧
  decodeTile 0x7BFFFFFB = some { op := .j, imm := 0x3FFFFFB } ∧
  decodeTile 0x8C060C01 = some { op := .semAcq, ra := 6, res := 3 } ∧
  decodeTile 0x98050000 = some { op := .blk, ra := 5 } ∧
  decodeTile 0x94611000 = some { op := .watch, rd := 3, ra := 1, rb := 2 } ∧
  decodeTile 0x80040008 = some { op := .waitcyc, ra := 4 } ∧
  decodeTile 0x80200000 = none ∧
  decodeTile 0x0BA20001 = none

/-- Every tile instruction with its fields in range decodes from its own word to itself, and every 32-bit word that decodes is the word of the
instruction it decodes to: no bit of an encoding is dropped and no two words mean one instruction. -/
def Obligations.TileEncodingRoundTrip : Prop :=
  (∀ i : TInst, i.wf = true → decodeTile (encodeTile i) = some i) ∧
  (∀ (w : Nat) (i : TInst), w < 2 ^ 32 → decodeTile w = some i → encodeTile i = w ∧ i.wf = true)

/-- A register reads back what was written to it and every other register keeps its value; ZR reads 0 and discards writes. -/
def Obligations.TileRegistersHoldTheirValues : Prop :=
  ∀ (x : Tile) (n m : Nat) (v : BitVec 64), n ≤ 24 → m ≤ 24 →
    (x.setReg n v).reg m = (if m = 24 then 0 else if n = m then v else x.reg m) ∧ (x.setReg 24 v) = x

/-- A write of bytes to the tile store changes those bytes and no others, clears the poison bit of a granule that it covers whole and leaves
every other granule's.
(The model's own readings and choices in it: log 24.) -/
def Obligations.TileStoreWriteFrame : Prop :=
  ∀ (x : Tile) (a : Nat) (b : Bytes), Memory.wf x.store = true →
    let y := x.storeClean a b
    (∀ k, Mem.get y.store k = if a ≤ k ∧ k < a + b.length then b.getD (k - a) 0 else Mem.get x.store k) ∧
    (∀ g, y.poison.val g false = if 0 < b.length ∧ a ≤ 32 * g ∧ 32 * g + 32 ≤ a + b.length then false else x.poison.val g false) ∧
    { y with store := [], poison := [] } = { x with store := [], poison := [] } ∧ Memory.wf y.store = true

/-- The register instructions write RD with the value that the opcode table gives, over 64 bits; a write of ZR is discarded; nothing else of the
machine changes but the program counter, which passes to the next word. -/
def Obligations.RegisterArithmetic : Prop :=
  ∀ (s : State) (t : Nat) (i : TInst), s.stands t 0 i = true →
    let a := (s.tile t).reg i.ra
    let b := (s.tile t).reg i.rb
    (i.op = .add → s.Writes (.add t .none) t i (a + b)) ∧
    (i.op = .sub → s.Writes (.sub t .none) t i (a - b)) ∧
    (i.op = .and → s.Writes (.and t .none) t i (a &&& b)) ∧
    (i.op = .or → s.Writes (.or t .none) t i (a ||| b)) ∧
    (i.op = .xor → s.Writes (.xor t .none) t i (a ^^^ b)) ∧
    (i.op = .shl → s.Writes (.shl t .none) t i (a <<< (b.toNat % 64))) ∧
    (i.op = .shr → s.Writes (.shr t .none) t i (a >>> (b.toNat % 64))) ∧
    (i.op = .sra → s.Writes (.sra t .none) t i (a.sshiftRight (b.toNat % 64))) ∧
    (i.op = .mul → s.Writes (.mul t .none) t i (a * b)) ∧
    (i.op = .mulhu → s.Writes (.mulhu t .none) t i (BitVec.ofNat 64 (a.toNat * b.toNat / 2 ^ 64))) ∧
    (i.op = .slt → s.Writes (.slt t .none) t i (if a.toInt < b.toInt then 1 else 0)) ∧
    (i.op = .sltu → s.Writes (.sltu t .none) t i (if a.toNat < b.toNat then 1 else 0)) ∧
    (i.op = .min → s.Writes (.min t .none) t i (if a.toInt ≤ b.toInt then a else b)) ∧
    (i.op = .max → s.Writes (.max t .none) t i (if a.toInt ≤ b.toInt then b else a)) ∧
    (i.op = .minu → s.Writes (.minu t .none) t i (if a.toNat ≤ b.toNat then a else b)) ∧
    (i.op = .maxu → s.Writes (.maxu t .none) t i (if a.toNat ≤ b.toNat then b else a))

/-- The immediate instructions write RD: ADDI, SLTI and MOVI sign-extend IMM16, ANDI, ORI and XORI zero-extend it, the shifts take it as their
amount, MOVHI moves RD up by 16 bits and sets the low 16. Nothing else changes but the program counter. -/
def Obligations.ImmediateArithmetic : Prop :=
  ∀ (s : State) (t : Nat) (i : TInst), s.stands t 0 i = true →
    let a := (s.tile t).reg i.ra
    let d := (s.tile t).reg i.rd
    let m := (BitVec.ofNat 16 i.imm).signExtend 64
    let z := BitVec.ofNat 64 i.imm
    (i.op = .addi → s.Writes (.addi t .none) t i (a + m)) ∧
    (i.op = .andi → s.Writes (.andi t .none) t i (a &&& z)) ∧
    (i.op = .ori → s.Writes (.ori t .none) t i (a ||| z)) ∧
    (i.op = .xori → s.Writes (.xori t .none) t i (a ^^^ z)) ∧
    (i.op = .shli → s.Writes (.shli t .none) t i (a <<< i.imm)) ∧
    (i.op = .shri → s.Writes (.shri t .none) t i (a >>> i.imm)) ∧
    (i.op = .srai → s.Writes (.srai t .none) t i (a.sshiftRight i.imm)) ∧
    (i.op = .movi → s.Writes (.movi t .none) t i m) ∧
    (i.op = .movhi → s.Writes (.movhi t .none) t i ((d <<< 16) ||| z)) ∧
    (i.op = .slti → s.Writes (.slti t .none) t i (if a.toInt < m.toInt then 1 else 0))

/-- Loads: an aligned address inside the tile store whose granules hold no poison gives RD the bytes, zero-extended, and inside a locked sequence the
sequence's own buffered stores; VLD gives VD its 64 converted lanes; FILLW fills a window in the trap window. Nothing else changes but the program
counter.
(The model's own readings and choices in it: log 63.) -/
def Obligations.LoadsReadTheTileStore : Prop :=
  ∀ (s : State) (t : Nat) (i : TInst), s.stands t 0 i = true →
    let x := s.tile t
    let ready (a n : Nat) : Prop := a % n = 0 ∧ a + n ≤ storeBytes ∧ x.poisonAt a n = none
    let a := (x.reg i.ra + (BitVec.ofNat 16 i.imm).signExtend 64).toNat
    let v (n : Nat) : BitVec 64 := BitVec.ofNat 64 (ofLe (x.storeRead a n))
    let va := (x.reg i.ra).toNat
    let n := vmemBytes i.fmt
    let w := (x.reg i.rb).toNat
    (i.op = .ld → ready a 8 → s.Writes (.ld t .none) t i (v 8)) ∧
    (i.op = .lw → ready a 4 → s.Writes (.lw t .none) t i (v 4)) ∧
    (i.op = .lh → ready a 2 → s.Writes (.lh t .none) t i (v 2)) ∧
    (i.op = .lb → ready a 1 → s.Writes (.lb t .none) t i (v 1)) ∧
    (i.op = .vld → ready va n →
      s.Makes (.vld t .none) t (x.setVec i.vd ((List.range 64).map (fun k => laneIn i.fmt (x.store.read (va + k * (n / 64)) (n / 64)))))) ∧
    (i.op = .fillw → x.inTrap = true → ready w 128 →
      s.Makes (.fillw t .none) t ((List.range 16).foldl (fun (y : Tile) k =>
        y.setWreg ((x.reg i.ra).toNat % 8) k (BitVec.ofNat 64 (ofLe (x.store.read (w + 8 * k) 8)))) x))

/-- Stores: an aligned address inside the tile store takes the low bytes of RD, lowest first; inside a locked sequence the bytes are buffered and the tile
store keeps its own; VST stores its 64 converted lanes and SPILLW the sixteen registers of a window. Nothing else changes but the program counter. -/
def Obligations.StoresWriteTheTileStore : Prop :=
  ∀ (s : State) (t : Nat) (i : TInst), s.stands t 0 i = true →
    let x := s.tile t
    let ready (a n : Nat) : Prop := a % n = 0 ∧ a + n ≤ storeBytes
    let a := (x.reg i.ra + (BitVec.ofNat 16 i.imm).signExtend 64).toNat
    let stored (n : Nat) : Tile :=
      match x.lock with
      | none => x.storeClean a (le n (x.reg i.rd).toNat)
      | some l => { x with lock := some { l with stores := l.stores ++ (le n (x.reg i.rd).toNat).zipIdx.map (fun e => (a + e.2, e.1)) } }
    let va := (x.reg i.ra).toNat
    let w := (x.reg i.rb).toNat
    (i.op = .st → ready a 8 → s.Makes (.st t .none) t (stored 8)) ∧
    (i.op = .sw → ready a 4 → s.Makes (.sw t .none) t (stored 4)) ∧
    (i.op = .sh → ready a 2 → s.Makes (.sh t .none) t (stored 2)) ∧
    (i.op = .sb → ready a 1 → s.Makes (.sb t .none) t (stored 1)) ∧
    (i.op = .vst → ready va (vmemBytes i.fmt) → s.Makes (.vst t .none) t (x.storeClean va ((x.vec i.vd).flatMap (laneOut i.fmt x.fpcr)))) ∧
    (i.op = .spillw → x.inTrap = true → ready w 128 →
      s.Makes (.spillw t .none) t (x.storeClean w ((List.range 16).flatMap (fun k => le 8 (x.wreg ((x.reg i.ra).toNat % 8) k).toNat))))

/-- Branches and jumps: a branch whose condition holds continues at the program counter plus four times its sign-extended offset, one whose
condition fails at the next word; J and JR always transfer. The target lies in the tile store, four-byte aligned. Nothing else changes. -/
def Obligations.BranchesAndJumps : Prop :=
  ∀ (s : State) (t : Nat) (i : TInst), s.stands t 0 i = true →
    let x := s.tile t
    let d := x.reg i.rd
    let a := x.reg i.ra
    let dest (w : Nat) : Nat := (BitVec.ofNat 64 x.pc + ((BitVec.ofNat w i.imm).signExtend 64 <<< 2)).toNat
    let inside (g : Nat) : Prop := g < storeBytes ∧ g % 4 = 0
    let branch (c : Instr) (p : Prop) : Prop :=
      (p → inside (dest 16) → s.Completes c t s (dest 16)) ∧ (¬ p → s.Completes c t s (x.pc + 4))
    (i.op = .beq → branch (.beq t .none) (d = a)) ∧
    (i.op = .bne → branch (.bne t .none) (d ≠ a)) ∧
    (i.op = .blt → branch (.blt t .none) (d.toInt < a.toInt)) ∧
    (i.op = .bge → branch (.bge t .none) (a.toInt ≤ d.toInt)) ∧
    (i.op = .bltu → branch (.bltu t .none) (d.toNat < a.toNat)) ∧
    (i.op = .bgeu → branch (.bgeu t .none) (a.toNat ≤ d.toNat)) ∧
    (i.op = .j → inside (dest 26) → s.Completes (.j t .none) t s (dest 26)) ∧
    (i.op = .jr → inside a.toNat → s.Completes (.jr t .none) t s a.toNat)

/-- Calls and returns with the window they need: CALL and CALLR enter the next window, RET leaves it for the address in w15, and TRET, in
the trap window, leaves the trap window with the lowest resident depth moved and completes the CALL or RET that trapped. With the window
file full (CALL) or the caller's window spilled (RET) the window trap is taken instead: the trap window holds the save address, the
window, the cause and the address of the instruction, and the handler runs. -/
def Obligations.CallsReturnsAndWindowTraps : Prop :=
  ∀ (s : State) (t : Nat) (i : TInst), s.stands t 0 i = true →
    let x := s.tile t
    let inside (g : Nat) : Prop := g < storeBytes ∧ g % 4 = 0
    let dest : Nat := (BitVec.ofNat 64 x.pc + ((BitVec.ofNat 26 i.imm).signExtend 64 <<< 2)).toNat
    let ret : Nat := (x.wreg (x.depth % 7) 15).toNat
    let trapped (cause depth : Nat) (jump : Option Nat) : Tile :=
      { (((x.setWreg 7 12 (BitVec.ofNat 64 (x.spillBase.toNat + 128 * depth))).setWreg 7 13 (BitVec.ofNat 64 (depth % 7))).setWreg 7 14
          (BitVec.ofNat 64 cause)).setWreg 7 15 (BitVec.ofNat 64 x.pc) with inTrap := true, trapPc := x.pc, trapJump := jump }
    let call (c : Instr) (g : Nat) : Prop :=
      inside g → x.inTrap = false →
        (x.depth + 1 - x.low ≠ 7 → s.Completes c t (s.setTile t (x.enter (x.pc + 4))) g) ∧
        (x.depth + 1 - x.low = 7 → 128 * x.low < x.spillBytes.toNat →
          s.Completes c t (s.setTile t (trapped 0 x.low (some g))) x.trapVec.toNat)
    (i.op = .call → call (.call t .none) dest) ∧
    (i.op = .callr → call (.callr t .none) (x.reg i.ra).toNat) ∧
    (i.op = .ret → x.inTrap = false → 0 < x.depth → inside ret →
      (x.low ≤ x.depth - 1 → s.Completes (.ret t .none) t (s.setTile t x.leave) ret) ∧
      (x.depth - 1 < x.low → s.Completes (.ret t .none) t (s.setTile t (trapped 1 (x.depth - 1) none)) (x.trapVec.toNat + 64))) ∧
    (i.op = .tret → x.inTrap = true →
      (∀ g, x.trapJump = some g →
        s.Completes (.tret t .none) t (s.setTile t (({ x with inTrap := false, low := x.low + 1 } : Tile).enter (x.trapPc + 4))) g) ∧
      (x.trapJump = none →
        s.Completes (.tret t .none) t (s.setTile t ({ x with inTrap := false, low := x.low - 1 } : Tile).leave) ret))

/-- A call passes w8-w11 of the caller as w0-w3 of the callee and leaves the return address in its w15; a return passes w0 and w1 as the caller's
w8 and w9; the global registers keep their values and the depth moves by one. -/
def Obligations.WindowsPassArgumentsAndResults : Prop :=
  ∀ (x : Tile) (r : Nat), x.inTrap = false →
    (x.enter r).depth = x.depth + 1 ∧ (x.enter r).reg 23 = BitVec.ofNat 64 r ∧
    (∀ k, k < 4 → (x.enter r).reg (8 + k) = x.reg (16 + k)) ∧ (∀ k, k < 8 → (x.enter r).reg k = x.reg k) ∧
    (0 < x.depth → x.leave.depth = x.depth - 1 ∧ x.leave.reg 16 = x.reg 8 ∧ x.leave.reg 17 = x.reg 9 ∧
      (∀ k, k < 8 → x.leave.reg k = x.reg k) ∧ (∀ k, k < 8 → x.leave.reg (8 + k) = x.wreg ((x.depth - 1) % 7) k))

/-- The vector instructions write the 64 lanes of VD, and the reductions write RD, with the arithmetic of the opcode table under the rounding mode
of TILE_FPCR; nothing else changes but the program counter, and a result of an addition, multiplication, fused multiplication or reciprocal square root that is a NaN is
0x7FC0_0000. (The accuracy of VEXP and VLOG is open: a free value, log 16.) -/
def Obligations.VectorArithmetic : Prop :=
  ∀ (s : State) (t : Nat) (i : TInst), s.stands t 0 i = true →
    let x := s.tile t
    let rm := fpRm x.fpcr
    let one (c : Instr) (f : BitVec 32 → BitVec 32) : Prop := s.Makes c t (x.setVec i.vd ((x.vec i.va).map f))
    let two (c : Instr) (f : BitVec 32 → BitVec 32 → BitVec 32) : Prop := s.Makes c t (x.setVec i.vd (List.zipWith f (x.vec i.va) (x.vec i.vb)))
    (i.op = .vadd → two (.vadd t .none) (fadd rm)) ∧
    (i.op = .vsub → two (.vsub t .none) (fsub rm)) ∧
    (i.op = .vmul → two (.vmul t .none) (fmul rm)) ∧
    (i.op = .vfma → s.Makes (.vfma t .none) t (x.setVec i.vd
      (List.zipWith (fun f c => f c) (List.zipWith (ffma rm) (x.vec i.va) (x.vec i.vb)) (x.vec i.vd)))) ∧
    (i.op = .vmax → two (.vmax t .none) (fun a b => canon (fmaxB a b))) ∧
    (i.op = .vmin → two (.vmin t .none) (fun a b => canon (fminB a b))) ∧
    (i.op = .vexp → one (.vexp t .none) (fun a => canon (Config.vexp a))) ∧
    (i.op = .vlog → one (.vlog t .none) (fun a => canon (Config.vlog a))) ∧
    (i.op = .vrsq → one (.vrsq t .none) (frsq rm)) ∧
    (i.op = .vcvti → one (.vcvti t .none) (fcvti rm)) ∧
    (i.op = .vcvtf → one (.vcvtf t .none) (fcvtf rm)) ∧
    (i.op = .vbcast → s.Makes (.vbcast t .none) t (x.setVec i.vd (List.replicate 64 ((x.reg i.rd).setWidth 32)))) ∧
    (i.op = .vredsum → s.Writes (.vredsum t .none) t i ((tree64 (fadd rm) (x.vec i.va)).setWidth 64)) ∧
    (i.op = .vredmax → s.Writes (.vredmax t .none) t i ((tree64 (fun a b => canon (fmaxB a b)) (x.vec i.va)).setWidth 64)) ∧
    (i.op = .viadd → two (.viadd t .none) (fun a b => a + b)) ∧
    (i.op = .vimul → two (.vimul t .none) (fun a b => a * b)) ∧
    ∀ (r : Nat) (a b c : BitVec 32),
      (f32 (fadd r a b) = .nan → fadd r a b = 0x7FC00000) ∧ (f32 (fsub r a b) = .nan → fsub r a b = 0x7FC00000) ∧
      (f32 (fmul r a b) = .nan → fmul r a b = 0x7FC00000) ∧ (f32 (ffma r a b c) = .nan → ffma r a b c = 0x7FC00000) ∧
      (f32 (frsq r a) = .nan → frsq r a = 0x7FC00000)

/-- NOP, SYNC, the waits for a step offset, the reads of the job's place in its step, the special registers, and the locked sequence: each completes with
the effect of the opcode table and nothing else. SYNC with a posted operation outstanding, and a wait whose offset has not come, wait:
RUN reads waiting and nothing else changes. UNLOCK applies the buffered semaphore changes and stores at once.
(The model's own readings and choices in it: log 78.) -/
def Obligations.ControlAndSpecialInstructions : Prop :=
  ∀ (s : State) (t : Nat) (i : TInst), s.stands t 0 i = true →
    let x := s.tile t
    let a := x.reg i.ra
    let j := s.jobAt t 0
    let waits (c : Instr) : Prop := exec c s = .next (s.modTile t (fun y => { y with run := 1 }))
    let cycles : Nat := match j.2.2.2.season with | some e => e.stepCycles | none => 0
    (i.op = .nop → s.Makes (.nop t .none) t x) ∧
    (i.op = .sync → (x.posted = 0 → s.Makes (.sync t .none) t x) ∧ (x.posted ≠ 0 → waits (.sync t .none))) ∧
    (i.op = .waitcyc → a.toNat < cycles →
      (a.toNat ≤ j.2.1.offset → s.Makes (.waitcyc t .none) t x) ∧ (j.2.1.offset < a.toNat → waits (.waitcyc t .none))) ∧
    (i.op = .waitcycS → a.toNat < cycles →
      (a.toNat = j.2.1.offset → s.Makes (.waitcycS t .none) t x) ∧ (j.2.1.offset < a.toNat → waits (.waitcycS t .none))) ∧
    (i.op = .rdoff → s.Writes (.rdoff t .none) t i (BitVec.ofNat 64 j.2.1.offset)) ∧
    (i.op = .rdstep → s.Writes (.rdstep t .none) t i (BitVec.ofNat 64 j.2.1.step)) ∧
    (i.op = .rdid → s.Writes (.rdid t .none) t i (BitVec.ofNat 64 (s.nameOf t))) ∧
    (i.op = .rdjob → s.Writes (.rdjob t .none) t i (BitVec.ofNat 64 j.1)) ∧
    (i.op = .srr → i.imm ≤ 11 → s.Makes (.srr t .none) t ((specialClear i.imm x).setReg i.rd (specialRead i.imm x))) ∧
    (i.op = .srw → i.imm = 11 → a.getLsbD 2 = false → s.Makes (.srw t .none) t { x with fpcr := a.setWidth 32 &&& 7 }) ∧
    (i.op = .srw → i.imm = 11 → a.getLsbD 2 = true → s.Makes (.srw t .none) t { x with fpcr := (x.fpcr &&& 6) ||| (a.setWidth 32 &&& 1) }) ∧
    (i.op = .srw → i.imm = 0 → a.getLsbD 7 = true → s.Makes (.srw t .none) t { x with lockAborted := false }) ∧
    (i.op = .srw → i.imm < 11 → (i.imm = 0 → a.getLsbD 7 = false) → s.Makes (.srw t .none) t x) ∧
    (i.op = .lock → x.lock = none → s.Makes (.lock t .none) t { x with lock := some { pc := x.pc, saved := x.regs } }) ∧
    (i.op = .unlock → ∀ l y, x.lock = some l → ({ x with lock := none } : Tile).applySems j.1 l.sems = .ok y →
      s.Makes (.unlock t .none) t (l.stores.foldl (fun (z : Tile) e => z.storeClean e.1 [e.2]) y))

/-- Tile semaphores and credits: an increment up to 0xFFFF is added, a decrement that the count allows is taken (SEM.TRY answers 1, or 0 with the count
unchanged, and SEM.ACQ otherwise waits), both buffered inside a locked sequence; RECV hands over the oldest message; CRED.BORROW moves a credit from the lending
channel and CRED.RETURN back to it. -/
def Obligations.SemaphoresAndCredits : Prop :=
  ∀ (s : State) (t : Nat) (i : TInst), s.stands t 0 i = true →
    let x := s.tile t
    let n := (x.reg i.ra).toNat % 65536
    let job := (s.jobAt t 0).1
    let l := (x.reg i.ra).toNat % 64
    let k := x.chans.val i.res {}
    let o := x.chans.val l {}
    let buffered (e : Nat) (y : Tile) : Tile :=
      match x.lock with
      | none => y
      | some q => { x with lock := some { q with sems := q.sems ++ [(e, n)] } }
    (i.op = .semInc → x.sem i.res + n ≤ 0xFFFF → s.Makes (.semInc t .none) t (buffered i.res (x.semAdd i.res n))) ∧
    (i.op = .semAcq → n ≤ x.sem i.res → s.Makes (.semAcq t .none) t (buffered (32 + i.res) (x.semSub i.res n job))) ∧
    (i.op = .semAcq → x.sem i.res < n → exec (.semAcq t .none) s = .next (s.modTile t (fun y => { y with run := 1 }))) ∧
    (i.op = .semTry → (n ≤ x.sem i.res → s.Makes (.semTry t .none) t ((x.semSub i.res n job).setReg i.rd 1)) ∧
      (x.sem i.res < n → s.Writes (.semTry t .none) t i 0)) ∧
    (i.op = .recv → i.res < 62 → k.conf = true → ∀ m r, k.queue = m :: r →
      s.Makes (.recv t .none) t (({ x with chans := x.chans.put i.res { k with queue := r, held := k.held ++ [m] } } : Tile).setReg i.rd
        (BitVec.ofNat 64 m.1))) ∧
    (i.op = .credBorrow → k.conf = true → o.conf = true → 0 < o.avail → l ≠ i.res →
      s.Makes (.credBorrow t .none) t { x with
        chans := (x.chans.put l { o with avail := o.avail - 1, lent := o.lent + 1 }).put i.res
          { k with avail := k.avail + 1, borrowed := k.borrowed.put l (k.borrowed.val l 0 + 1) }
        loaned := x.loaned + 1
        loanJob := job }) ∧
    (i.op = .credReturn → k.conf = true → o.conf = true → 0 < k.borrowed.val l 0 → 0 < k.avail →
      s.Makes (.credReturn t .none) t { x with
        chans := (x.chans.put l { o with avail := o.avail + 1, lent := o.lent - 1 }).put i.res
          { k with avail := k.avail - 1, borrowed := (k.borrowed.put l (k.borrowed.val l 0 - 1)).keep (fun _ n => n != 0) }
        loaned := x.loaned - 1 })

/-- What a tile sends: with tokens in its partition's unplanned regulator, SEM.INCR posts an increment of RD to the named tile, PWRITE posts the 64
bytes at RD to a parameter slot, and SEND takes a credit and posts the message of its channel, or, on a planned channel, puts it on the wire; RELEASE gives
the oldest held slot back and sends its credit to the sender, to the requesting channel of a solver's reply, or to nobody of the model. -/
def Obligations.TilesSendMessages : Prop :=
  ∀ (s : State) (t : Nat) (i : TInst), s.stands t 0 i = true →
    let x := s.tile t
    let c := s.ctxAt t 0 i
    let a := (x.reg i.ra).toNat
    let d := x.reg i.rd
    let k := x.chans.val i.res {}
    let h : UcPacket := { src := 0x280 + c.part, part := c.part, job := c.j }
    let next := x.pc + 4
    (i.op = .semIncr → a < 2048 → ∀ s1, takeTokens c.part 1 64 s = some s1 →
      s.Completes (.semIncr t .none) t (sendUc t 64 true { h with typ := 4, dest := a, addr := i.res, count := d.toNat % 65536 } s1) next) ∧
    (i.op = .pwrite → d.toNat % 64 = 0 → d.toNat + 64 ≤ storeBytes → a < c.q.slotCount → ∀ s1, takeTokens c.part 1 128 s = some s1 →
      s.Completes (.pwrite t .none) t
        (sendUc t 64 true { h with typ := 1, len := 1, dest := c.q.destOf (c.q.slotVa a), addr := c.q.slotVa a, count := 64,
                                   data := x.store.read d.toNat 64, poison := x.halves d.toNat 64 } s1) next) ∧
    (i.op = .send → i.res < 60 → k.conf = true → 0 < k.avail → a + 64 * k.flits ≤ storeBytes →
      (k.planned = true → s.Makes (.send t .none) t { x with
        posted := x.posted + 1
        chans := x.chans.put i.res { k with avail := k.avail - 1, wire := k.wire ++ [(x.store.read a (64 * k.flits), x.halves a (64 * k.flits))] } }) ∧
      (k.planned = false → ∀ s1, takeTokens c.part 1 (64 * (1 + k.flits)) s = some s1 →
        s.Completes (.send t .none) t
          (sendUc t i.res true { h with typ := 5, len := k.flits, dest := if k.dst < 768 then tileName k.dst else 0x8041 + 1024 * (k.dst - 768),
                                        addr := k.dstChan, data := x.store.read a (64 * k.flits), poison := x.halves a (64 * k.flits) }
            (s1.modTile t (fun y => { y with chans := y.chans.put i.res { k with avail := k.avail - 1, flying := k.flying + 1 } }))) next)) ∧
    (i.op = .release → k.conf = true → ∀ m r, k.held = m :: r →
      let s1 := s.setTile t { x with chans := x.chans.put i.res { k with held := r } }
      (2048 ≤ m.2 → s.Completes (.release t .none) t (s1.modTile t (fun y => { y with chans := y.chans.upd (m.2 - 2048) Channel.credit })) next) ∧
      (768 ≤ m.2 → m.2 < 2048 → s.Completes (.release t .none) t s1 next) ∧
      (m.2 < 768 → ∃ ch, s.Completes (.release t .none) t
        (sendUc t 64 false { h with typ := 6, dest := tileName m.2, addr := ch }
          (s1.modTile (s.physOf m.2) (fun y => { y with chans := y.chans.upd ch (fun e => { e with returning := e.returning + 1 }) }))) next))

/-- Parameter slots, transfers and block operations: WATCH copies its slot to RD once the slot's first word is RB, PREAD at once; XFER hands a valid
descriptor to the transfer unit under a free tag; BLK samples TILE_FPCR and starts a valid descriptor, the program counter staying at the
instruction; OUTBOX.POST hands the result of a sequence entry of the step to the outbox. -/
def Obligations.SlotsTransfersAndBlocks : Prop :=
  ∀ (s : State) (t : Nat) (i : TInst), s.stands t 0 i = true →
    let x := s.tile t
    let c := s.ctxAt t 0 i
    let a := (x.reg i.ra).toNat
    let d := (x.reg i.rd).toNat
    let slot : Prop := d % 64 = 0 ∧ d + 64 ≤ storeBytes ∧ a < c.q.slotCount
    let desc (n : Nat) : Bytes := x.store.read a n
    let ready (n : Nat) : Prop := a % n = 0 ∧ a + n ≤ storeBytes ∧ x.poisonAt a n = none
    (i.op = .watch → slot → ∀ b p1, c.readSlot a = .ok (b, false, p1) → word64 b 0 = x.reg i.rb →
      s.Completes (.watch t .none) t
        ((s.setMem (fun m => { m with watches := m.watches.filter (fun w => !decide (w.2.2 = t)) })).setTile t
          ({ x with watch := none }.storeWrite d b (fun g => if g % 2 = 0 then false else p1))) (x.pc + 4)) ∧
    (i.op = .pread → slot → ∀ b p0 p1, c.readSlot a = .ok (b, p0, p1) →
      s.Makes (.pread t .none) t (x.storeWrite d b (fun g => if g % 2 = 0 then p0 else p1))) ∧
    (i.op = .xfer → ready 32 → xferDescOk (desc 32) = true →
      let me := (s.logOf t).getD 768
      ∀ tag, s.freeTag me false (match c.q.season with | some e => e.plannedTags | none => 0) = some tag →
        s.Completes (.xfer t .none) t (s.setMem (fun m => { m with xfers := m.xfers.put tag (xferOf (desc 32) c.part c.j me false) })) (x.pc + 4)) ∧
    (i.op = .blk → ready 64 → (blkDesc (desc 64)).ok a (s.progOf c.q t) = true →
      s.Completes (.blk t .none) t
        (s.setTile t { x with inBlk := true, rowsDone := 0, rowsTotal := (blkDesc (desc 64)).rows, descAddr := a, blkFpcr := x.fpcr }) x.pc) ∧
    (i.op = .outboxPost → ready 32 → postDescOk (desc 32) = true →
      let v := c.q.svcs.val c.jb.entry {}
      let e := fld (desc 32) 0 2
      let n := fld (desc 32) 8 4
      recordSlots n ≤ v.maxCpl → c.jb.occupied.contains e = true →
      s.outboxUsed c.part v.sid + n ≤ (match c.q.season with | some se => (match se.region 6 c.jb.entry with | some r => r.bytes | none => 0) | none => 0) →
      ∀ b, s.readVa c.q (fld (desc 32) 0x10 8) n = .ok (b, false) →
        s.Completes (.outboxPost t .none) t
          (s.modSeq e (fun q => { q with posted := some { pkt := (s.seq e).stepPkt, status := fld (desc 32) 2 2, detail := fld (desc 32) 4 1,
                                                          fin := bit (fld (desc 32) 5 1) 0, result := b, born := s.clk.tick } })) (x.pc + 4))

/-- A waiting instruction whose condition has come to hold completes as it would have when it issued: SYNC, SEM.ACQ, RECV and WAITCYC; a tile
watching a slot without an entry of the watch unit reads it again; a row group that ends writes its rows, counts them in ROWS_DONE and, after the
last row, ends the block operation at the next word. -/
def Obligations.WaitsEndAndRowGroupsEnd : Prop :=
  ∀ (s : State) (t : Nat),
    (∀ i : TInst, s.stands t 1 i = true →
      let x := s.tile t
      let n := (x.reg i.ra).toNat % 65536
      let job := (s.jobAt t 1).1
      (i.op = .sync → x.posted = 0 → s.Makes (.waitConditionMet t .none) t x) ∧
      (i.op = .semAcq → x.lock = none → n ≤ x.sem i.res → s.Makes (.waitConditionMet t .none) t (x.semSub i.res n job)) ∧
      (i.op = .watch → x.watch.isSome = true → (s.mem.watches.any (fun w => decide (w.2.2 = t))) = false →
        exec (.watchReread t) s = exec (.waitConditionMet t .none) s)) ∧
    (let x := s.tile t
     let d := blkDesc (x.store.read x.descAddr 64)
     let g := runGroup t d s
     let n := x.rowsDone + min 16 (x.rowsTotal - x.rowsDone)
     x.inBlk = true → x.power = 1 → x.run = 0 → x.blkEngine = none → x.blkAgain = false → x.haltReq = none → d.poisonIn x x.group = none →
     (∀ p q, s.partOfTile t = some p → s.parts.look p = some q → q.hold = none) →
      ∃ s', exec (.rowGroupEnd t .none) s = .next s' ∧ (s'.tile t).rowsDone = n ∧ (s'.tile t).store = (g.tile t).store ∧
        (n < x.rowsTotal → (s'.tile t).inBlk = true ∧ (s'.tile t).pc = x.pc) ∧
        (x.rowsTotal ≤ n → (s'.tile t).inBlk = false ∧ (s'.tile t).pc = x.pc + 4))

/-! ## Starts, power and columns -/

/-- The pins: PERST# released with PWRGD asserted samples the straps and begins the power-on start; PERST# asserted, PWRGD lost and REFCLK lost begin a
PERST# reset, which ends every partition, job, queue pair and packet and keeps the error log and the stacks' contents; a REFCLK that
returns begins the start that waited for it; a power cycle keeps what fuses and SPI NOR hold and empties the log and the stacks.
(The model's own reading in it: log 95, no start while THERMTRIP# is asserted.) -/
def Obligations.PinsAndResets : Prop :=
  ∀ s : State,
    let emptied (t : State) : Prop := t.parts = [] ∧ t.jobs = [] ∧ t.qps = [] ∧ t.pkts = [] ∧ t.tiles = [] ∧ t.ports = [] ∧ t.pwr.ready = false
    let kept (t : State) : Prop := t.ladder.log = s.ladder.log ∧ t.mem.stack = s.mem.stack ∧ t.health = s.health ∧ t.sec.ownerKey = s.sec.ownerKey
    (∀ pwrgd straps, s.pins.aon = true → (s.pins.perst = true ∨ s.pins.pwrgd = false) →
      s.Does (.perstRelease pwrgd straps) (fun t =>
        t.pins.perst = !pwrgd ∧ t.pins.pwrgd = pwrgd ∧ t.pins.x8 = straps.getLsbD 0 ∧ t.pins.enroll = straps.getLsbD 4 ∧
        t.pins.testMode = straps.getLsbD 5 ∧ t.pins.smbAddr = straps.extractLsb' 1 3 ∧
        (pwrgd = true → s.pins.refclkLost = false → s.pins.thermtrip = false → t.start.running = true ∧ t.start.stage = 0 ∧ t.clk.tick = 0) ∧
        (pwrgd = false → t.start = s.start))) ∧
    (s.pins.aon = true → s.pins.perst = false → s.Does .perstAssert (fun t => t.pins.perst = true ∧ emptied t ∧ kept t)) ∧
    (s.pins.aon = true → s.pins.perst = false → s.pins.pwrgd = true →
      s.Does .pwrgdDeassert (fun t => t.pins.pwrgd = false ∧ t.pins.thermtrip = false ∧ emptied t ∧ kept t)) ∧
    (s.pins.aon = true → s.pins.refclkLost = false →
      s.Does .refclkLost (fun t => t.pins.refclkLost = true ∧ t.pwr.rails = s.pwr.rails ||| 0x100#9 ∧ emptied t ∧ kept t)) ∧
    (s.pins.refclkLost = true → s.Does .refclkReturn (fun t =>
      t.pins.refclkLost = false ∧ (s.pins.perst = false → s.pins.pwrgd = true → s.pins.thermtrip = false → t.start.running = true ∧ t.start.stage = 0))) ∧
    s.Does .powerCycle (fun t => t.pins.aon = false ∧ emptied t ∧ t.ladder.log = [] ∧ t.mem.stack = [] ∧ t.sec.ownerKey = s.sec.ownerKey ∧
      t.sec.epoch = s.sec.epoch ∧ t.sec.fw = s.sec.fw ∧ t.ladder.spiSpares = s.ladder.spiSpares) ∧
    (s.pins.aon = false → exec .powerOn s = .next { s with pins := { s.pins with aon := true } })

/-- The start sequence: ROM boot reads the fuses and opens the management channel's stage; the first firmware slot that verifies and may boot brings up the control
processors; the configuration space is loaded; the columns come up in the order of R685 and the stacks are trained one by one, a stack that fails
twice being marked failed; initialisation zeroes the trained stacks; readiness makes the device ready in Summer, starts the Months and then audits the books;
a start that cannot finish ends in the Failed stage; the ports come to listen. -/
def Obligations.StartSequence : Prop :=
  ∀ s : State,
    (s.start.running = true → s.start.romDone = false → s.pins.testMode = false →
      s.Does .romBootEnd (fun t => t.start.romDone = true ∧ t.start.stage = 1 ∧ t.ident.fusesRead = true)) ∧
    (∀ img, s.start.running = true → s.start.stage = 1 →
      (s.boots img (s.start.pendingActive.getD s.sec.activeFw) = true →
        s.Does (.fwVerified img) (fun t => t.start.stage = 2 ∧ t.start.fwSlot = s.start.pendingActive.getD s.sec.activeFw ∧ t.pwr.cpClock = true)) ∧
      (s.boots img (s.start.pendingActive.getD s.sec.activeFw) = false → s.boots img (1 - s.start.pendingActive.getD s.sec.activeFw) = false →
        s.Does (.fwVerified img) (fun t => t.start.stage = 7 ∧ t.start.fail = 1 ∧ t.start.running = false))) ∧
    (2 ≤ s.start.stage → s.pins.perst = false →
      exec .configurationReady s = .next { s with start := { s.start with cfgReady := true } }) ∧
    (s.start.nextCol < 48 → s.start.running = false → s.pwr.state = 1 → s.start.stage = 6 → s.start.colTick + 2000 ≤ s.clk.tick →
      let c := 24 * (s.start.nextCol % 2) + s.start.nextCol / 2
      s.colRetired c = false →
      s.Does .columnPowerUp (fun t => t.pwr.cols.val c 0 = 1 ∧ t.start.nextCol = s.start.nextCol + 1 ∧ t.start.colTick = s.clk.tick ∧ PowerDomain.column c ∈ t.pwr.domains)) ∧
    (∀ k, s.stackNext = some k → s.start.running = true → 2 ≤ s.start.stage → s.start.stage ≤ 3 →
      s.Does (.stackTraining true) (fun t => t.start.nextStack = k + 1 ∧ PowerDomain.stack k ∈ t.pwr.domains ∧ t.start.stacksFailed = s.start.stacksFailed) ∧
      (s.start.stackTries = 0 → s.Does (.stackTraining false) (fun t => t.start.nextStack = s.start.nextStack ∧ t.start.stackTries = 1)) ∧
      (s.start.stackTries ≠ 0 → s.Does (.stackTraining false) (fun t =>
        t.start.nextStack = k + 1 ∧ t.start.stacksFailed = s.start.stacksFailed ++ [k] ∧ ∀ c, c < 16 → (16 * k + c) ∈ t.mem.failed))) ∧
    (s.start.running = true → s.start.warm = false → s.start.stacksDone = false → s.stackNext = none → 2 ≤ s.start.stage →
      s.Does .stackInitialisation (fun t => t.start.stage = 5 ∧ t.start.stacksDone = true ∧ (Memory.wf s.mem.stack = true → Memory.wf t.mem.stack = true) ∧
        (s.start.stacksFailed = [] → t.mem.stack = [] ∧ t.mem.poison = []))) ∧
    (s.mayBeReady = true → s.pwr.cpClock = true → ∃ t, exec .readiness s = .next (audit t) ∧ t.pwr.ready = true ∧ t.pwr.state = 2 ∧ t.start.stage = 6 ∧
      t.start.running = false ∧ t.clk.monthsOn = true ∧ t.clk.months = 0 ∧ t.clk.phase = 0 ∧ t.clk.readyTick = s.clk.tick ∧ t.parts = s.parts) ∧
    (∀ cause, s.start.running = true → 1 ≤ s.start.stage → 2 ≤ cause → cause ≤ 4 →
      s.Does (.startFailed cause) (fun t => t.start.stage = 7 ∧ t.start.fail = cause ∧ t.start.running = false)) ∧
    (s.start.listening = false → s.clk.startTick + 100000 ≤ s.clk.tick → s.start.stage = 6 →
      s.Does .listenStart (fun t => t.start.listening = true ∧ ∀ p, p ∈ s.portList → (s.port p).disabled = false → (s.port p).state = portOff → (t.port p).state = portListen)) ∧
    (∀ k, s.ladder.flush = some k → s.outbox = [] →
      s.Does .flushPhaseEnd (fun t => t.start.running = true ∧ t.start.warm = true ∧ t.start.stage = 1 ∧ t.parts = [] ∧ t.qps = [] ∧ t.mem.stack = s.mem.stack ∧
        t.ladder.flush = none))

/-- Winter and Spring: with everything quiet and no domain to leave, Winter entry takes the power state to Winter, the ended operation being delivered; leaving L1.2 in Winter begins
Spring with the control processors' clock running; when every column is up Spring ends in Summer, the device ready again. -/
def Obligations.WinterAndSpring : Prop :=
  ∀ s : State,
    (s.pwr.state = 3 → s.quiet = true → s.pins.perst = false → s.alm.belongs = false → s.pwr.wakeOwed = none →
      s.Does .winterEntry (fun t => t.pwr.state = 0 ∧ t.pwr.cpClock = false ∧ t.pwr.domains = [] ∧ (s.parts = [] → t.outbox = []) ∧ t.clk.monthsOn = false ∧ t.hl.state = 0)) ∧
    (s.pwr.state = 3 → s.quiet = true → s.pins.perst = false → s.alm.belongs = true → s.alm.leaveAt = false →
      exec .winterEntry s = .next (leaveStart s)) ∧
    (s.pwr.state = 0 → s.Does .l12Exit (fun t => t.pwr.state = 1 ∧ t.pwr.wakeSource = 0x3FF ∧ t.pwr.cpClock = true ∧ t.start.running = true ∧ t.start.nextCol = 0)) ∧
    (s.pwr.state = 3 → s.Does .l12Exit (fun t => t.pwr.state = 3 ∧ t.pwr.wakeOwed = some 0x3FF)) ∧
    (s.pwr.state = 1 → s.start.stage = 6 → s.colsLeft = [] → 48 ≤ s.start.nextCol → s.pwr.alertOwed = false →
      s.Does (.summerReached []) (fun t => t.pwr.state = 2 ∧ t.pwr.ready = true ∧ t.start.running = false ∧ t.start.listening = true))

/-- The wake schedule and the columns: WAKE makes the named tile Awake; GATE makes it Dormant, or is deferred and counted while its task executes an instruction that does not
wait; COLUMN_ON and COLUMN_OFF begin to power a column up or down; power-good leaves its tiles Dormant with an empty store; a partition reset waits for such a transition and begins after it; a late power-good in a start is a failed column; a
column that is not quiet in time stays on and is counted; a quiet column goes Dark; a tile woken by unplanned traffic is Awake when its wake ends and Dormant again when the traffic has been gone for 256 cycles.
(The model's own readings and choices in it: log 74, 87.) -/
def Obligations.TileAndColumnPower : Prop :=
  ∀ s : State,
    let noDue : Prop := ∀ e, e ∈ s.parts → e.2.resetDue = none
    (∀ job idx b x e many i, s.wakeEntry job idx 1 = some (b, x, e, many) → logOfName e.tile = some i → (s.tile (s.physOf i)).power ≠ 2 →
      s.Does (.wake job idx) (fun t => (t.tile (s.physOf i)).power = 1 ∧ ∀ k, k ≠ s.physOf i → t.tile k = s.tile k)) ∧
    (∀ job idx b x e many i, s.wakeEntry job idx 2 = some (b, x, e, many) → logOfName e.tile = some i → (s.tile (s.physOf i)).power = 1 →
      ((s.tile (s.physOf i)).job = none ∨ (s.tile (s.physOf i)).run ≠ 0 → s.Does (.gate job idx) (fun t => (t.tile (s.physOf i)).power = 0)) ∧
      ((s.tile (s.physOf i)).job.isSome = true → (s.tile (s.physOf i)).run = 0 →
        s.Does (.gate job idx) (fun t => (t.tile (s.physOf i)).power = 1 ∧ (t.tile (s.physOf i)).gateDue = true ∧ t.pwr.gateDeferred = sat 16 (s.pwr.gateDeferred + 1)))) ∧
    (∀ job idx b x e, s.wakeEntry job idx 3 = some (b, x, e, false) → s.pwr.cols.val e.col 0 = 0 →
      s.Does (.columnOn job idx) (fun t => t.pwr.cols.val e.col 0 = 1 ∧ t.pwr.colSince.val e.col 0 = s.clk.cycle)) ∧
    (∀ job idx b x e, s.wakeEntry job idx 4 = some (b, x, e, false) → s.pwr.cols.val e.col 0 = 2 →
      s.Does (.columnOff job idx) (fun t => t.pwr.cols.val e.col 0 = 3)) ∧
    (∀ c, c < 48 → s.pwr.cols.val c 0 = 1 → s.pwr.cpClock = true → noDue →
      s.Does (.columnPowerGood c) (fun t => t.pwr.cols.val c 0 = 2 ∧ ∀ y, y < 17 → (t.tile (17 * c + y)).power = 0 ∧ (t.tile (17 * c + y)).store = [])) ∧
    (∀ c, s.pwr.cols.val c 0 = 1 → s.pwr.colSince.val c 0 + 60000 ≤ s.clk.cycle → s.start.running = true →
      s.Does (.columnPowerGoodTimeout c) (fun t => t.pwr.cols.val c 0 = 0 ∧ c ∈ t.start.failedCols)) ∧
    (∀ c, s.pwr.cols.val c 0 = 3 → s.pwr.colSince.val c 0 + 4096 ≤ s.clk.cycle → noDue →
      s.Does (.quietLate c) (fun t => t.pwr.cols.val c 0 = 2 ∧ t.pwr.quietLate = sat 16 (s.pwr.quietLate + 1))) ∧
    (∀ c, PowerDomain.column c ∈ s.pwr.domains → s.pwr.cols.val c 0 = 3 → s.colQuiet c = true → s.pwr.cpClock = true → noDue →
      s.Does (.powerDomainOff (.column c) true) (fun t => t.pwr.cols.val c 0 = 0 ∧ PowerDomain.column c ∉ t.pwr.domains ∧
        ∀ k, colOf k = c → (t.tile k).power = 2)) ∧
    (∀ p c, (s.tile p).ucWoken = some c → (s.tile p).waking = true → (s.tile p).power = 0 → c + 3000 ≤ s.clk.cycle → (s.tile p).arrivals = [] →
      s.Does (.tileAwake p) (fun t => (t.tile p).power = 1 ∧ (t.tile p).waking = false ∧ ∀ k, k ≠ p → t.tile k = s.tile k)) ∧
    (∀ p c, (s.tile p).ucWoken = some c → (s.tile p).waking = false → (s.tile p).power = 1 → c + 256 ≤ s.clk.cycle →
      s.Does (.unplannedWakeIdle p) (fun t => (t.tile p).power = 0 ∧ (t.tile p).ucWoken = none ∧ ∀ k, k ≠ p → t.tile k = s.tile k)) ∧
    (∀ part q c d, c < 48 → s.partOfCol c = some part → s.parts.look part = some q → q.resetting = false →
      (s.pwr.cols.val c 0 = 1 → s.pwr.cpClock = true → q.resetDue = some d → q.cols = [c] →
        s.Does (.columnPowerGood c) (fun t => ∃ q', t.parts.look part = some q' ∧ q'.resetting = true ∧ q'.resetDue = none ∧ q'.remap = d.1)) ∧
      (∀ j b, s.pwr.cols.val c 0 = 3 → c ∈ q.cols → s.jobs.look j = some b → b.part = part → b.state = 4 → b.killAt + 50000 ≤ s.clk.tick → q.resetDue = none →
        s.Does (.killEscalation j) (fun t => t.jobs = s.jobs ∧ t.tiles = s.tiles ∧ ∃ q', t.parts.look part = some q' ∧ q'.resetting = false ∧ q'.resetDue.isSome = true)))

/-- Temperatures, rails and regulators: a die at its alert temperature is recorded hot, and cooled again is not; at its trip temperature THERMTRIP# is driven and the clocks
stop; a rail out of tolerance outside Summer sets its bit and waits for readiness to be logged; a calendar tick adds RATE bytes to a regulator's bucket, up to its burst. -/
def Obligations.TemperaturesRailsRegulators : Prop :=
  ∀ s : State,
    (∀ die temp, alertTemp die ≤ temp → s.pins.aon = true → s.pwr.cpClock = true →
      s.Does (.thermalAlert die temp) (fun t => die ∈ t.pwr.alerts ∧ t.pwr.temps.val die 0 = temp ∧ t.jobs = s.jobs)) ∧
    (∀ die temp, temp < alertTemp die → die ∈ s.pwr.alerts → s.pwr.cpClock = true →
      s.Does (.thermalAlertEnd die temp) (fun t => die ∉ t.pwr.alerts ∧ t.pwr.temps.val die 0 = temp)) ∧
    (∀ die temp, tripTemp die ≤ temp → s.pins.aon = true →
      s.Does (.thermalTrip die temp) (fun t => t.pins.thermtrip = true ∧ t.pwr.tripped = true ∧ t.pwr.cpClock = false ∧ t.clk.monthsOn = false)) ∧
    (∀ rail, rail < 8 → s.pins.pwrgd = true → s.pins.aon = true → s.pwr.state ≠ 2 →
      s.Does (.railExcursion rail) (fun t => t.pwr.rails = s.pwr.rails ||| (1#9 <<< rail) ∧ t.pwr.railsLate = true ∧ t.jobs = s.jobs)) ∧
    (∀ part res q r, s.parts.look part = some q → q.regs.look res = some r → r.rate ≠ 0 →
      s.Does (.regulatorRefill part res) (fun t => ∃ q', t.parts.look part = some q' ∧
        q'.regs.look res = some { r with bucket := min (r.burst * 1024) (r.bucket + r.rate) } ∧ { q' with regs := [] } = { q with regs := [] }))

/-! ## Functions and their configuration -/

/-- Functions: a configuration request before the space is loaded is answered CRS, and afterwards reads the identifiers of R188; a link that goes down
resets the configuration space; an FLR of a VF takes it to Resetting with its next generation and leaves every other VF alone, and the reset's completion
makes it Unsized or Sized with no signal target; an FLR of the PF and a cleared VF Enable take every VF away; VF Enable set makes Unsized VFs;
a change of MSI-X masks sends the messages that nothing masks any more.
(The model's own readings and choices in it: log 19, 73, 95.) -/
def Obligations.FunctionsAndConfiguration : Prop :=
  ∀ s : State,
    (∀ f, s.pins.perst = false → s.start.cfgReady = true → s.noFn f = false → f ≤ 512 →
      s.Does (.configRequest f 0) (fun t => t.out.crs = false ∧ t.out.read = (if f = 512 then 0x48001E6B#64 else 0x48011E6B#64) ∧ t.cfg.linkUp = true)) ∧
    (∀ f off, s.start.cfgReady = false →
      exec (.configRequest f off) s = .next { s with out := { s.out with crs := true, read := 0xFFFF0001#64 } }) ∧
    s.Does .pcieLinkDown (fun t => t.cfg = {} ∧ t.jobs = s.jobs ∧ ∀ f, (t.fn f).ats = false ∧ (t.fn f).msixEnable = false ∧ (t.fn f).msixTable = []) ∧
    (∀ v, v < 512 → (s.fn v).state ≠ 0 → s.Does (.flr v) (fun t =>
      (t.fn v).state = 3 ∧ (t.fn v).gen = (s.fn v).gen + 1 ∧ (t.fn v).msixEnable = false ∧ (t.fn v).quotas = (s.fn v).quotas ∧
      (∀ f, f ≠ v → f ≠ 512 → t.fn f = s.fn f) ∧ t.parts = s.parts ∧ t.jobs = s.jobs ∧ t.outbox = s.outbox ∧ t.mem = s.mem)) ∧
    s.Does (.flr 512) (fun t =>
      t.cfg.vfEnable = false ∧ t.svcGrants = [] ∧ (t.fn 512).gen = (s.fn 512).gen + 1 ∧ (t.fn 512).targets = [] ∧
      (∀ k, k < 4 → (t.box (.pf k)).state = 0 ∧ (t.box (.pf k)).ring = [] ∧ (t.box (.pf k)).head = 0 ∧ (t.box (.pf k)).tail = 0) ∧
      (∀ k q, t.qps.look k = some q → k / 16 = 512 ∧ q.state = 0 ∨ 512 < k / 16)) ∧
    (∀ v, v < 512 → (s.fn v).state = 3 → s.readsOut (fun k => decide (k / 16 = v)) = false → (∀ r, r ∈ s.outbox → r.qp / 16 = v → r.notify = none) →
      let quotas := (s.fn v).deferred.getD (s.fn v).quotas
      s.Does (.vfResetComplete v) (fun t =>
        (t.fn v).state = (if quotas.qp = 0 then 1 else 2) ∧ (t.fn v).quotas = quotas ∧ (t.fn v).deferred = none ∧ (t.fn v).targets = [] ∧
        (t.fn v).gen = (s.fn v).gen ∧ (t.fn v).resetAt = none ∧ ∀ k q, t.qps.look k = some q → k / 16 = v → q.state = 0)) ∧
    (∀ v u, (s.fn v).state = 3 → (s.fn v).resetAt = some u → u + 60000 ≤ s.clk.tick → s.mayReset = true →
      s.Does (.vfResetTimeout v) (s.Hung 4 (((s.fslots.find? (fun e => decide (e.2.qp / 16 = v))).map (fun e => e.1 / 128)).getD 0))) ∧
    (∀ n, s.cfg.vfEnable = false → n ≤ 512 → s.start.cfgReady = true → s.Does (.vfEnableSet n) (fun t =>
      t.cfg.vfEnable = true ∧ t.cfg.numVfs = n ∧
      ∀ v, v < (if 7 < n ∧ s.cfg.ari = false then 7 else n) → (t.fn v).state = 1 ∧ (t.fn v).gen = (s.fn v).gen)) ∧
    (s.cfg.vfEnable = true → s.Does .vfEnableClear (fun t =>
      t.cfg.vfEnable = false ∧ t.cfg.numVfs = 0 ∧ t.svcGrants = [] ∧ (∀ v, v < 512 → (t.fn v).state = 0) ∧
      ∀ k q, t.qps.look k = some q → 512 ≤ k / 16)) ∧
    (∀ f v, s.Does (.msixMaskChange f (.vector v true)) (fun t => v ∉ (t.fn f).vecUnmasked) ∧
      ((s.fn f).msixEnable = true → (s.fn f).msixMask = false → v ∈ (s.fn f).vecPending →
        s.Does (.msixMaskChange f (.vector v false)) (fun t => UpMsg.msix f v ∈ t.out.up ∧ v ∉ (t.fn f).vecPending ∧ v ∈ (t.fn f).vecUnmasked))) ∧
    (∀ f b, s.Does (.msixMaskChange f (.function b)) (fun t => (t.fn f).msixMask = b) ∧
      s.Does (.msixMaskChange f (.enable b)) (fun t => (t.fn f).msixEnable = b))

/-! ## Queue pairs and their rings -/

/-- Doorbells and moderation, once the device is ready: a tail within the ring is the new tail, one beyond it puts the queue pair in Error; a head within
the records written is the new head, one beyond them an error; moderation takes the new COUNT and TIME at once, and a vector message that falls due clears
the unsignalled count. Before readiness a doorbell only counts as an early write. -/
def Obligations.DoorbellsAndModeration : Prop :=
  ∀ (s : State) (f n val : Nat) (q : QueuePair), s.qps.look (qpKey f n) = some q →
    (s.isReady = true → q.state = 1 →
      (val % 65536 < q.sqSize → exec (.lqiSqTail f n val) s = .next (s.setQp (qpKey f n) { q with sqTail := val % 65536 })) ∧
      (q.sqSize ≤ val % 65536 → s.Does (.lqiSqTail f n val) (fun t => t.qps.look (qpKey f n) = some { q with state := 2, errReason := 1 }))) ∧
    (s.isReady = true → q.state = 1 ∨ q.state = 2 → val % 65536 < q.cqSize →
      (q.cqTail + q.cqSize - q.cqHead) % q.cqSize ≥ (val % 65536 + q.cqSize - q.cqHead) % q.cqSize →
      exec (.lqiCqHead f n val) s = .next (s.setQp (qpKey f n) { q with cqHead := val % 65536 })) ∧
    (s.isReady = true → q.state = 1 → q.cqSize ≤ val % 65536 ∨
        (q.cqTail + q.cqSize - q.cqHead) % q.cqSize < (val % 65536 + q.cqSize - q.cqHead) % q.cqSize →
      s.Does (.lqiCqHead f n val) (fun t => t.qps.look (qpKey f n) = some { q with state := 2, errReason := 2 })) ∧
    (s.isReady = true → val % 256 ≠ 0 → q.unsig = 0 →
      exec (.lqiCqMod f n val) s = .next (s.setQp (qpKey f n) { q with modCount := val % 256, modTime := bits val 31 16 })) ∧
    (s.isReady = true → val % 256 ≠ 0 → q.unsig ≠ 0 → bits val 31 16 = 0 ∨ val % 256 ≤ q.unsig →
      s.Does (.lqiCqMod f n val) (fun t =>
        t.qps.look (qpKey f n) = some { q with modCount := val % 256, modTime := bits val 31 16, unsig := 0 })) ∧
    (q.unsig ≠ 0 → q.modTime ≠ 0 → q.unsigTick + q.modTime ≤ s.clk.tick →
      s.Does (.cqModTimer f n) (fun t => t.qps.look (qpKey f n) = some { q with unsig := 0 })) ∧
    (s.isReady = false →
      exec (.lqiSqTail f n val) s = .next (earlyWrite s) ∧ exec (.lqiCqHead f n val) s = .next (earlyWrite s) ∧
      exec (.lqiCqMod f n val) s = .next (earlyWrite s))

/-- Fetching: a fetch engine grants its one ready latency-class queue pair a free slot and reads the ring's next slots, up to 64 and up to the ring's place that a 4 KiB
page ends; with no latency-class queue pair ready, the one ready best-effort queue pair, outside the reserved slots. The read's data are held whole; a poisoned,
refused or unanswered read frees the slot and puts the queue pair in Error with its reason. An engine without progress for 100,000 ticks hangs.
(The model's own readings and choices in it: log 11, 64.) -/
def Obligations.FetchEngines : Prop :=
  ∀ (s : State) (qfe : Nat),
    (∀ k q i lc, s.qfeRuns = true → (s.qfes.val qfe {}).lastCycle ≠ some s.clk.cycle → s.sec.turnover = none →
      s.qps.look k = some q → q.lc = lc → s.fetchReady qfe k q = true → s.heldBy qfe (fun _ _ => true) < 128 →
      (∀ x, x ∈ s.qps → s.fetchReady qfe x.1 x.2 = true → x.1 = k ∧ x.2.lc = lc) →
      (lc = false → (s.qfes.val qfe {}).reserve - min (s.heldBy qfe (fun q _ => q.lc)) (s.qfes.val qfe {}).reserve < 128 - s.heldBy qfe (fun _ _ => true)) →
      firstFree 128 (fun i => (s.fslots.look (128 * qfe + i)).isNone) = some i →
      s.lacks (k / 16) (ringPage q.sqBase q.fetchPos) = false →
      let n := min (64 - q.fetchPos % 64) ((q.sqTail + q.sqSize - q.fetchPos) % q.sqSize)
      s.Does (.fetchGrant qfe) (fun t =>
        t.fslots.look (128 * qfe + i) = some { qp := k, first := q.fetchPos, count := n, gen := (s.fn (k / 16)).gen, epoch := q.epoch, tick := s.clk.tick } ∧
        t.qps.look k = some { q with fetchPos := (q.fetchPos + n) % q.sqSize } ∧ UpMsg.ringRead (k / 16) (k % 16) q.fetchPos n ∈ t.out.up)) ∧
    (∀ slot x q, s.fslots.look (128 * qfe + slot) = some x → x.back = false → s.fetchLive x = true → s.qps.look x.qp = some q →
      (∀ b, x.count ≤ q.sqSize → s.Does (.ringReadCompletion qfe slot (.data b)) (fun t =>
        t.fslots.look (128 * qfe + slot) = some { x with back := true } ∧
        ∃ q', t.qps.look x.qp = some q' ∧ (∀ i, i < x.count → q'.slots.look ((x.first + i) % q.sqSize) = some (fit 64 (b.drop (64 * i)))) ∧
          q'.fetchPos = q.fetchPos ∧ q'.state = q.state)) ∧
      (q.state = 1 →
        let failed (r : Nat) (t : State) : Prop := t.fslots.look (128 * qfe + slot) = none ∧ t.qps.look x.qp = some { q with state := 2, errReason := r }
        s.Does (.ringReadCompletion qfe slot .poisoned) (failed 6) ∧ s.Does (.ringReadCompletion qfe slot .refused) (failed 7) ∧
        s.Does (.ringReadTimeout qfe slot) (failed 8))) ∧
    (100000 ≤ s.clk.tick → s.qfeOwes qfe (s.clk.tick - 100000) = true → (s.qfes.val qfe {}).progress ≤ s.clk.tick - 100000 → s.mayReset = true →
      s.Does (.qfeHang qfe) (s.Hung 4 qfe))

/-- Translations: the host's answer with a translation lets the access go on; without one it is parked on a page request, or with PRI disabled fails with ERR_REASON 0x04 or 0x05;
the page request's answer ends the parking with the translation, or with the same error, as does an answer that does not come for 1,000,000 ticks; an invalidation takes the translation
away at once and completes when no read uses it.
(The model's own readings and choices in it: log 64.) -/
def Obligations.TranslationsAndPages : Prop :=
  ∀ (s : State) (f page : Nat),
    (∀ n q cq, s.qps.look (qpKey f n) = some q → s.lacks f page = true → q.parked = none → q.state = 1 → s.wants (qpKey f n) page q = some cq →
      exec (.atsTranslationCompletion f n page true) s = .next { s with xlat := (f, page) :: s.xlat } ∧
      ((s.fn f).pri = true → s.Does (.atsTranslationCompletion f n page false) (fun t =>
        t.qps.look (qpKey f n) = some { q with parked := some (nextKey s.preqs) } ∧
        ∃ r, t.preqs.look (nextKey s.preqs) = some r ∧ r.qp = qpKey f n ∧ r.page = page ∧ r.cq = cq)) ∧
      ((s.fn f).pri = false → s.Does (.atsTranslationCompletion f n page false) (fun t =>
        ∃ q', t.qps.look (qpKey f n) = some q' ∧ q'.state = 2 ∧ q'.errReason = (if cq then 5 else 4)))) ∧
    (∀ req r q, s.preqs.look req = some r → r.fn = f → r.sent = true → s.qps.look r.qp = some q → q.parked = some req →
      s.Does (.pageRequestResponse f req true) (fun t =>
        (f, r.page) ∈ t.xlat ∧ t.preqs.look req = none ∧ t.qps.look r.qp = some { q with parked := none }) ∧
      (q.state = 1 →
        let failed (t : State) : Prop := t.preqs.look req = none ∧ t.xlat = s.xlat ∧
          ∃ q', t.qps.look r.qp = some q' ∧ q'.state = 2 ∧ q'.errReason = (if r.cq then 5 else 4) ∧ q'.parked = none
        s.Does (.pageRequestResponse f req false) failed ∧
        (r.tick + 1000000 ≤ s.clk.tick → s.Does (.pageRequestTimeout f req) failed))) ∧
    s.Does (.atsInvalidation f page) (fun t =>
      (f, page) ∉ t.xlat ∧ (∀ e, e ≠ (f, page) → (e ∈ t.xlat ↔ e ∈ s.xlat)) ∧ (s.fslots = [] → t.invs = [] ∧ UpMsg.invDone f page ∈ t.out.up))

/-- The completion writer: the next record of a queue pair that finds room is written to the ring's slots, the first slot last in the list, the tail moves past it and the phase turns
with the ring's end; a record that finds no room waits and stops fetching; one that never fits is discarded in Error with reason 0x0A. A NOTIFY record is discarded after 1,000 ticks;
a signal unacknowledged for 1,000 ticks is counted lost; a queue reset completes with no read out, leaving the queue pair Active, Disabled or gone. -/
def Obligations.CompletionsAndQueueResets : Prop :=
  ∀ (s : State) (f n : Nat),
    (∀ q r, s.qps.look (qpKey f n) = some q → s.outbox.find? (fun r => decide (r.qp = qpKey f n)) = some r → s.qfeRuns = true →
      s.recordLive q r = true → q.state = 1 → (s.fn f).tdi ≠ 1 → (s.fn f).tdi ≠ 3 → q.parked = none → s.tagRoom f q.qfe = true →
      let len := recordSlots r.result.length
      let erased := s.outbox.eraseP (fun x => decide (x.qp = qpKey f n))
      (len ≤ q.cqSize - 1 → len ≤ q.cqFree → (∀ i, i < len → s.lacks f (ringPage q.cqBase ((q.cqTail + i) % q.cqSize)) = false) →
        s.Does (.cqRecordWrite f n) (fun t => t.outbox = erased ∧ (∀ w, w ∈ recordWrites q r len → UpMsg.cqWrite f n w.1 w.2 ∈ t.out.up) ∧
          ∃ q', t.qps.look (qpKey f n) = some q' ∧ q'.cqTail = (q.cqTail + len) % q.cqSize ∧
            q'.phase = (if q.cqSize ≤ q.cqTail + len then !q.phase else q.phase) ∧ q'.cqFull = false ∧ q'.state = 1)) ∧
      (len ≤ q.cqSize - 1 → q.cqFree < len → exec (.cqRecordWrite f n) s = .next (s.setQp (qpKey f n) { q with cqFull := true })) ∧
      (q.cqSize - 1 < len → s.Does (.cqRecordWrite f n) (fun t => t.outbox = erased ∧
        ∃ q', t.qps.look (qpKey f n) = some q' ∧ q'.state = 2 ∧ q'.errReason = 0xA ∧ q'.cqTail = q.cqTail))) ∧
    (∀ r u, s.outbox.find? (fun r => decide (r.qp = qpKey f n)) = some r → r.notify = some u → u + 1000 ≤ s.clk.tick →
      s.Does (.notifyRecordTimeout f n) (fun t => t.outbox = s.outbox.eraseP (fun x => decide (x.qp = qpKey f n)))) ∧
    (∀ tag g, s.alm.sigs.look tag = some g → s.alm.heldSigs = [] → g.tick + 1000 ≤ s.clk.tick → g.gen = (s.fn g.fn).gen →
      s.Does (.signalAckTimeout tag) (fun t => t.alm.sigs.look tag = none ∧
        (t.fn g.fn).targets.look g.target = ((s.fn g.fn).targets.look g.target).map (fun x => { x with lostN := x.lostN + 1 }))) ∧
    (∀ q, s.qps.look (qpKey f n) = some q → q.state = 3 → s.readsOut (· == qpKey f n) = false →
      s.Does (.queueResetComplete f n) (fun t => t.qps.look (qpKey f n) =
        (if q.deleting then none else some { q.restart with
          state := if q.leaveDisabled then 0 else 1, leaveDisabled := false, vacant := q.vacant && q.leaveDisabled })))

/-! ## Packets -/

/-- Placement: the next whole packet of a ring that passes its checks is placed with its payload, the limit of its queue pair and, but for a FENCE, its timer, and leaves the
ring; a malformed or reserved one puts the queue pair in Error with its reason and its record; one of an unknown service or a denied object, or one that meets Autumn, gets its
record at once. A packet of a service that carries no payload to the inbox, or that finds its place there, is placed like one of none.
(The model's own readings and choices in it: log 20, 69.) -/
def Obligations.PacketsArePlacedOrRefused : Prop :=
  ∀ (s : State) (f n : Nat) (q : QueuePair) (h : Bytes), n < 16 → s.qps.look (qpKey f n) = some q → q.slots.look q.placePos = some h →
    s.mayPlace (qpKey f n) q = true → q.chain = none →
    let k := qpKey f n
    let body := ((List.range (fld h 2 2 - 1)).flatMap (fun i => (q.slots.look ((q.placePos + 1 + i) % q.sqSize)).getD [])).take (fld h 0x14 4)
    let placed (va : Nat) (t : State) : Prop :=
      t.nextPkt = s.nextPkt + 1 ∧ t.outbox = s.outbox ∧
      (∃ p, t.pkts.look s.nextPkt = some p ∧ p.qp = k ∧ p.hdr = h ∧ p.payload = body ∧ p.gen = (s.fn f).gen ∧ p.epoch = q.epoch ∧ p.placed = s.clk.tick ∧
        p.taken = false ∧ p.final = false ∧ p.limitMs = q.timeoutMs ∧ p.timer = (if fld h 0 1 = opFence then none else some s.clk.tick) ∧ p.va = va) ∧
      ∃ q', t.qps.look k = some q' ∧ q'.placePos = (q.placePos + fld h 2 2) % q.sqSize ∧ q'.state = q.state
    (reservedOp (fld h 0 1) = false → verdict s k q h = .fine → q.whole q.placePos (fld h 2 2) = true → contentBad s k q h body = none →
      bit (fld h 1 1) 2 = false → s.pwr.state ≠ 3 →
      (s.visible f (fld h 4 4) = none → s.Does (.packetPlacement f n) (placed 0)) ∧
      (∀ part entry v s0, s.visible f (fld h 4 4) = some (part, entry, v) → s.tagRoom f q.qfe = true → (s.parts.val part {}).resetting = false → takeTokens part 0 (64 * fld h 2 2) s = some s0 →
        (body = [] ∨ (fld h 0 1 ≠ opOpen ∧ fld h 0 1 ≠ opFeed ∧ fld h 0 1 ≠ opStep) → s.Does (.packetPlacement f n) (placed 0)) ∧
        (∀ a y s1, body ≠ [] → fld h 0 1 = opOpen ∨ fld h 0 1 = opFeed ∨ fld h 0 1 = opStep →
          s.inboxSpot part entry (fld h 0x14 4) = some a → s.parts.look part = some y → s0.writeVa y a body false = .ok s1 →
          s.Does (.packetPlacement f n) (fun t => placed a t ∧ t.mem = s1.mem)))) ∧
    (q.state = 1 →
      let bad (d : Nat) (t : State) : Prop :=
        s.Answers t s.nextPkt stMalformed (if bit (fld h 1 1) 2 ∧ d ≠ 1 then 8 else d) (fld h 0x10 4) [] ∧
        ∃ q', t.qps.look k = some q' ∧ q'.state = 2 ∧ q'.errReason = errReasonOf d ∧ q'.stopAt = some q.placePos ∧ q'.sqHead = q.placePos
      (∀ d, reservedOp (fld h 0 1) = false → verdict s k q h = .malformed d → s.Does (.packetPlacement f n) (bad d)) ∧
      (reservedOp (fld h 0 1) = true → s.Does (.reservedOpcodePacket f n) (bad 1))) ∧
    (reservedOp (fld h 0 1) = false → q.whole q.placePos (fld h 2 2) = true → bit (fld h 1 1) 2 = false →
      (verdict s k q h = .unknown → s.Does (.packetPlacement f n) (fun t => s.Answers t s.nextPkt stUnknown 0 (fld h 0x10 4) [])) ∧
      (∀ d, verdict s k q h = .denied d → contentBad s k q h body = none →
        s.Does (.packetPlacement f n) (fun t => s.Answers t s.nextPkt stDenied d (fld h 0x10 4) [])) ∧
      (verdict s k q h = .fine → contentBad s k q h body = none → s.pwr.state = 3 → fld h 0 1 ≠ opClose →
        s.Does (.packetPlacement f n) (fun t => s.Answers t s.nextPkt stDraining 1 (fld h 0x10 4) [])))

/-- The packets that the queue interface serves by itself, taken in their order, with a record for completion: NOP ends OK; a FENCE holds its ring until every
earlier packet of the ring is final; a WAIT holds it until its semaphore has reached the THRESHOLD, and returns the value; a SIGNAL adds its count to a semaphore of the
device, or is held behind the earlier signals of its target; the QUERY kinds return the queue pair's accounting, the sequence's record and the function's quota use.
(The model's own readings and choices in it: log 69, 86.) -/
def Obligations.QueuePacketsComplete : Prop :=
  ∀ (s : State) (pid : Nat) (p : Packet) (q : QueuePair),
    (s.Takes pid opNop p q → p.cplMode ≠ 2 → s.Does (.pktNop pid) (fun t => s.Answers t pid stOk 0 0 [])) ∧
    (s.Takes pid opFence p q → s.Does (.fence pid) (fun t =>
      t.qps.look p.qp = some { q with hold := some pid } ∧ t.pkts.look pid = some { p with taken := true } ∧ t.outbox = s.outbox)) ∧
    (∀ f n, p.qp = qpKey f n → s.pkts.look pid = some p → s.qps.look p.qp = some q → q.hold = some pid → p.opcode = opFence → p.final = false → s.live p = true → p.cplMode ≠ 2 →
      (∀ e, e ∈ s.pkts → e.1 < pid → e.2.qp = p.qp → e.2.final = true) →
      s.Does (.fenceRelease f n) (fun t => s.Answers t pid stOk 0 0 [] ∧ ∃ q', t.qps.look p.qp = some q' ∧ q'.hold = none)) ∧
    (s.Takes pid opWait p q →
      (s.waitMet p = none → s.Does (.wait pid) (fun t =>
        t.qps.look p.qp = some { q with hold := some pid } ∧ t.pkts.look pid = some { p with taken := true } ∧ t.outbox = s.outbox)) ∧
      (∀ v, s.waitMet p = some v → p.cplMode ≠ 2 →
        s.Does (.wait pid) (fun t => s.Answers t pid stOk 0 0 (le 8 v.toNat) ∧ ∃ q', t.qps.look p.qp = some q' ∧ q'.hold = none))) ∧
    (s.Takes pid opSignal p q → p.cplMode = 0 → (∀ r, r ∈ s.outbox → r.pkt ≠ pid) →
      let x := (s.fn p.fnKey).targets.val (fld p.hdr 0x20 2) {}
      let sem := 2048 * x.half + x.sem
      (x.kind = 2 → s.sigWaits p.fnKey (fld p.hdr 0x20 2) = false → s.Does (.signal pid) (fun t =>
        t.alm.sems.val sem 0 = s.alm.sems.val sem 0 + BitVec.ofNat 64 (fld p.hdr 0x22 2) ∧ ((t.fn p.fnKey).targets.val (fld p.hdr 0x20 2) {}).issued = x.issued + 1 ∧
        ∃ r, t.outbox = s.outbox ++ [r] ∧ r.pkt = pid ∧ r.status = stOk ∧ r.sigSent = true)) ∧
      (s.canSignal p.fnKey (fld p.hdr 0x20 2) = false → s.Does (.signal pid) (fun t =>
        t.alm.sems = s.alm.sems ∧ ∃ r, t.outbox = s.outbox ++ [r] ∧ r.pkt = pid ∧ r.status = stOk ∧ r.sigSent = false ∧ r.sigLost = true)) ∧
      (s.canSignal p.fnKey (fld p.hdr 0x20 2) = true → s.sigWaits p.fnKey (fld p.hdr 0x20 2) = true → s.Does (.signal pid) (fun t =>
        t.alm.sems = s.alm.sems ∧ t.alm.sigs = s.alm.sigs ∧ t.fns = s.fns ∧ (∃ h, t.alm.heldSigs = s.alm.heldSigs ++ [h] ∧ h.fn = p.fnKey ∧ h.target = fld p.hdr 0x20 2 ∧ h.count = fld p.hdr 0x22 2) ∧
        ∃ r, t.outbox = s.outbox ++ [r] ∧ r.pkt = pid ∧ r.status = stOk))) ∧
    (s.Takes pid opQuery p q → p.cplMode ≠ 2 →
      (fld p.hdr 0x20 1 = 0 → s.Does (.queryQueueAccounting pid) (fun t => s.Answers t pid stOk 0 0 q.acct.bytes)) ∧
      (fld p.hdr 0x20 1 = 1 → s.Does (.querySequence pid) (fun t => s.Answers t pid stOk 0 p.object (s.seq (p.object % 16384)).bytes)) ∧
      (fld p.hdr 0x20 1 = 2 → s.Does (.queryQuotaUse pid) (fun t => s.Answers t pid stOk 0 0 (s.quotaRecord p.fnKey))))

/-- Parameters and weights: PARAM_READ returns the slots, POISONED where one of them is; PARAM_WRITE of one slot writes it through the partition's page table and wakes its watches;
a WEIGHT_CHUNK stores its bytes in its load, or is malformed where it lies outside it.
(The model's own readings and choices in it: log 59.) -/
def Obligations.ParametersAndWeightChunks : Prop :=
  ∀ (s : State) (pid : Nat) (p : Packet) (q : QueuePair), p.cplMode ≠ 2 →
    (∀ part entry v y b bad, s.Takes pid opParamRead p q → s.visible p.fnKey p.sid = some (part, entry, v) → s.parts.look part = some y →
      s.readVa y (y.slotVa (v.paramBase + fld p.hdr 0x20 4)) (64 * fld p.hdr 0x24 2) = .ok (b, bad) →
      s.Does (.paramRead pid) (fun t => s.Answers t pid (if bad then stPoisoned else stOk) (if bad then 1 else 0) 0 (if bad then [] else b))) ∧
    (∀ part entry v y s2, s.Takes pid opParamWrite p q → s.visible p.fnKey p.sid = some (part, entry, v) → s.parts.look part = some y → fld p.hdr 0x24 2 = 1 →
      let slot := v.paramBase + fld p.hdr 0x20 4
      (s.modPkt pid (fun x => { x with taken := true })).writeVa y (y.slotVa slot) (fit 64 p.payload) false = .ok s2 →
      exec (.paramWrite pid) s = .next (finish pid stOk 0 0 [] false (slotWritten part slot s2))) ∧
    (∀ l y, s.Takes pid opChunk p q → s.loads.look (fld p.hdr 0x20 4) = some l → s.parts.look l.part = some y → l.source = 0 → l.dark = false →
      let off := fld p.hdr 0x28 8
      let got := granulesOf off p.payload.length
      (off + p.payload.length ≤ l.bytes → y.roomFor l = true ∨ off = l.nextOff → s.Does (.weightChunk pid) (fun t =>
        t.loads.look (fld p.hdr 0x20 4) = some { l with
          img := Mem.write l.img off p.payload, got := l.got ++ got.filter (fun g => !l.got.contains g), inOrder := !y.roomFor l,
          nextOff := if off = l.nextOff then off + p.payload.length else l.nextOff } ∧
        s.Answers t pid stOk 0 0 [])) ∧
      (l.bytes < off + p.payload.length → s.Does (.weightChunk pid) (fun t => t.loads = s.loads ∧ s.Answers t pid stMalformed 9 p.object [])))

/-- Sequences: SEQ_OPEN takes the lowest free entry of its service's partition with the next REUSE and answers its handle; SEQ_FEED and SEQ_STEP queue their
operation on the sequence, which is then Pending, a single pass on an entry of its own; a feed of no items ends at once with the positions held, a step of a full sequence ends OK
with DETAIL 0x02; SEQ_CLOSE frees the entry at its head and answers the tokens and the positions; what is refused gets its record and changes no sequence's queue. -/
def Obligations.SequencesOpenFeedStepClose : Prop :=
  ∀ (s : State) (pid : Nat) (p : Packet) (q : QueuePair), p.cplMode ≠ 2 →
    (∀ part entry v, s.Takes pid opOpen p q → s.visible p.fnKey p.sid = some (part, entry, v) →
      (∀ e, s.newRefused p.fnKey v part q.lc false = none → s.freeEntryOf part = some e →
        let reuse := nextReuse (s.seq e).reuse
        s.Does (.seqOpen pid) (fun t =>
          (t.seq e).state = 1 ∧ (t.seq e).reuse = reuse ∧ (t.seq e).fn = p.fnKey ∧ (t.seq e).sid = p.sid ∧ (t.seq e).part = part ∧ (t.seq e).positions = 0 ∧
          (t.seq e).maxTok = (if fld p.hdr 0x20 4 = 0 then v.maxTok else fld p.hdr 0x20 4) ∧ (t.seq e).ops = [] ∧ (∀ k, k ≠ e → t.seq k = s.seq k) ∧
          s.Answers t pid stOk 0 (seqHandleOf e reuse) [])) ∧
      (∀ r, s.newRefused p.fnKey v part q.lc false = some r → s.Does (.seqOpen pid) (fun t => t.seqs = s.seqs ∧ s.Answers t pid r.1 r.2 p.object []))) ∧
    (∀ part entry v, s.Takes pid opFeed p q → s.visible p.fnKey p.sid = some (part, entry, v) → p.chainOf = none → p.more = false →
      let e := p.object % 16384
      let x := s.seq e
      let o : SeqOp := { pkt := pid, kind := opFeed, left := fld p.hdr 0x24 4, placedAt := p.placed, closed := true }
      s.opRefused x v part q.lc (fld p.hdr 0x24 4) opFeed = none →
      (x.state = 1 → x.ops = [] → x.stepPkt = 0 → x.nextOpPkt = 0 →
        (0 < fld p.hdr 0x24 4 → s.Does (.seqFeed pid) (fun t => (t.seq e).state = 2 ∧ (t.seq e).ops = [o] ∧ t.outbox = s.outbox)) ∧
        (fld p.hdr 0x24 4 = 0 → s.Does (.seqFeed pid) (fun t =>
          (t.seq e).state = 1 ∧ (t.seq e).ops = [] ∧ s.Answers t pid stOk 0 (seqHandleOf e x.reuse) (le 4 x.positions)))) ∧
      (x.state = 3 → s.Does (.seqFeed pid) (fun t => t.seq e = { x with ops := x.ops ++ [o] } ∧ t.outbox = s.outbox))) ∧
    (∀ part entry v, s.Takes pid opStep p q → s.visible p.fnKey p.sid = some (part, entry, v) → v.kind ≠ 2 →
      let e := p.object % 16384
      let x := s.seq e
      let o : SeqOp := { pkt := pid, kind := opStep, left := fld p.hdr 0x20 2, placedAt := p.placed, closed := true }
      (s.opRefused x v part q.lc 0 opStep = none →
        (x.state = 1 → x.ops = [] → x.stepPkt = 0 → x.nextOpPkt = 0 → x.transient = false →
          (x.positions < x.maxTok → s.Does (.seqStep pid) (fun t => (t.seq e).state = 2 ∧ (t.seq e).ops = [o] ∧ t.outbox = s.outbox)) ∧
          (x.maxTok ≤ x.positions → s.Does (.seqStep pid) (fun t => (t.seq e).ops = [] ∧ s.Answers t pid stOk 2 (seqHandleOf e x.reuse) []))) ∧
        (x.state = 3 → s.Does (.seqStep pid) (fun t => t.seq e = { x with ops := x.ops ++ [o] } ∧ t.outbox = s.outbox))) ∧
      (∀ r, s.opRefused x v part q.lc 0 opStep = some r → s.Does (.seqStep pid) (fun t => t.seqs = s.seqs ∧ ∃ d, t.outbox = s.outbox ++ [d] ∧
        d.pkt = pid ∧ d.status = r.1 ∧ d.detail = r.2))) ∧
    (∀ part entry v e, s.Takes pid opStep p q → s.visible p.fnKey p.sid = some (part, entry, v) → v.kind = 2 →
      s.newRefused p.fnKey v part q.lc true = none → s.freeEntryOf part = some e →
      s.Does (.seqStep pid) (fun t => (t.seq e).state = 2 ∧ (t.seq e).transient = true ∧ (t.seq e).fn = p.fnKey ∧
        (t.seq e).ops = [{ pkt := pid, kind := opStep, left := 1, placedAt := p.placed, closed := true }] ∧ t.outbox = s.outbox)) ∧
    (s.Takes pid opClose p q →
      let e := p.object % 16384
      let x := s.seq e
      (x.state ≠ 0 → x.state ≠ 3 → x.stepPkt = 0 → x.nextOpPkt = 0 → x.ops = [] →
        s.Does (.seqClose pid) (fun t => (t.seq e).state = 0 ∧ (t.seq e).reuse = x.reuse ∧ (t.seq e).pages = [] ∧
          s.Answers t pid stOk 0 (e + 16384 * x.reuse) (le 4 x.tokens ++ le 4 x.positions))) ∧
      (x.state = 3 → x.ops.length < 8 → s.Does (.seqClose pid) (fun t => (t.seq e).state = 3 ∧ (t.seq e).closing = true ∧
        (t.seq e).ops.length = x.ops.length + 1 ∧ t.outbox = s.outbox)))

/-- The solver's packets: SOLVE_SET stores its image under a free skeleton with the next REUSE and answers the handle; SOLVE_DELTA joins its skeleton's queue with its
deadline in grid cycles, or is refused where the queue is full or no job serves; SOLVE_DROP of a skeleton without problems frees it.
(The model's own readings and choices in it: log 20, 28.) -/
def Obligations.SolverPackets : Prop :=
  ∀ (s : State) (pid : Nat) (p : Packet) (q : QueuePair), p.cplMode ≠ 2 →
    (∀ part entry v n, s.Takes pid opSet p q → s.visible p.fnKey p.sid = some (part, entry, v) → p.chainOf = none → p.chainPkts = [] → p.more = false →
      p.fnKey = 512 ∨ s.skelUse p.fnKey < (s.fn p.fnKey).quotas.skel →
      let h := s.solverOf part
      let z := s.solver h
      let i := (s.free % 4096 + n) % 4096
      let reuse := nextReuse (z.skels.val i {}).reuse
      (List.range 4096).find? (fun n => !(z.skels.val ((s.free % 4096 + n) % 4096) {}).used) = some n →
      z.skels.foldl (fun n e => n + (if e.2.used then e.2.blocks else 0)) 0 + ceilDiv p.payload.length 1024 ≤ 12288 →
      s.Does (.solveSet pid) (fun t => s.Answers t pid stOk 0 (skelHandle h i reuse) [] ∧
        (t.solver h).skels.look i = some
          { used := true, reuse := reuse, fn := p.fnKey, gen := p.gen, sid := p.sid, part := part, blocks := ceilDiv p.payload.length 1024, image := p.payload })) ∧
    (s.Takes pid opDelta p q → s.skelOf p.fnKey p.sid p.object = none →
      s.Does (.solveDelta pid) (fun t => s.Answers t pid stDenied 3 p.object [] ∧ t.solvers = s.solvers)) ∧
    (∀ h i, s.Takes pid opDelta p q → s.skelOf p.fnKey p.sid p.object = some (h, i) →
      let k := (s.solver h).skels.val i {}
      s.refusing k.part = false →
      let limit := fld p.hdr 0x24 4
      let b : Problem :=
        { skel := i, pkt := some pid, fn := p.fnKey, gen := p.gen, lc := q.lc, method := fld p.hdr 0x20 1, iters := fld p.hdr 0x22 2,
          deadline := if limit = 0 then none else some (s.clk.cycle + (if s.clk.sub = 0 then 0 else 1500 - s.clk.sub) + 1500 * limit),
          accepted := s.clk.cycle, acceptedTick := s.clk.tick, delta := p.payload }
      ((s.solverJob k.sid).isSome = true → k.queue.length < 8 → s.Does (.solveDelta pid) (fun t =>
        t.outbox = s.outbox ∧ (t.solver h).skels.look i = some { k with queue := k.queue ++ [b] })) ∧
      ((s.solverJob k.sid).isSome = true → 8 ≤ k.queue.length →
        s.Does (.solveDelta pid) (fun t => s.Answers t pid stFull 2 p.object [] ∧ t.solvers = s.solvers)) ∧
      (s.solverJob k.sid = none → s.Does (.solveDelta pid) (fun t => s.Answers t pid stJobLost 1 p.object [] ∧ t.solvers = s.solvers))) ∧
    (s.Takes pid opDrop p q →
      let h := p.object / 4096 % 2
      let i := p.object % 4096
      let k := (s.solver h).skels.val i {}
      k.dropping = some pid → k.queue = [] → (∀ c, c ∈ (s.solver h).ctxs → c.2.skel ≠ i) →
      (∀ e, e ∈ (s.solver h).skels → e.2.dropping = none ∨ e.2.dropping = some pid) →
      s.Does (.solveDrop pid) (fun t => ((t.solver h).skels.val i {}).used = false ∧ t.Ended pid stOk 0))

/-- Time-outs: a packet whose timer reaches T before its work is admitted ends TIMEOUT with DETAIL 0x01 and nothing else stops; one whose operation a step holds ends with DETAIL 0x02
and its job is killed; a WAIT whose semaphore has got there ends OK; a step that runs longer than DEVICE_STEP_LIMIT has its job killed with DETAIL 0x03, and a solver
problem's context is free. -/
def Obligations.PacketsAndStepsTimeOut : Prop :=
  ∀ s : State,
    (∀ pid p q u, s.pkts.look pid = some p → s.qps.look p.qp = some q → p.timer = some u → p.final = false → p.opcode ≠ opFence → s.live p = true →
      u + p.limitMs * 1000 ≤ s.clk.tick → p.cplMode ≠ 2 →
      (s.opOfPkt pid = none → s.problemOf pid = none →
        (p.opcode ≠ opWait → s.Does (.packetTimeout pid) (fun t => s.Answers t pid stTimeout 1 p.object [] ∧ t.jobs = s.jobs)) ∧
        (p.opcode = opWait → p.taken = false → s.Does (.packetTimeout pid) (fun t => s.Answers t pid stTimeout 1 p.object [] ∧ t.jobs = s.jobs)) ∧
        (∀ v, p.opcode = opWait → p.taken = true → ((s.fn p.fnKey).targets.val (fld p.hdr 0x20 2) {}).kind = 2 → s.waitMet p = some v →
          s.Does (.packetTimeout pid) (fun t => s.Answers t pid stOk 0 0 (le 8 v.toNat)))) ∧
      (∀ e o, s.opOfPkt pid = some (e, o) → o.admAt = none →
        s.Does (.packetTimeout pid) (fun t => t.Ended pid stTimeout 1 ∧ ∀ j, (t.jobs.look j).map (·.state) = (s.jobs.look j).map (·.state)))) ∧
    (∀ job b u, s.jobs.look job = some b → b.state ≠ 4 → b.solver = false → b.stepStart = some u → u + s.stepLimit * 1000 ≤ s.clk.tick →
      s.Does (.stepLimitExpiry job) (fun t => t.Killed job stTimeout 3)) ∧
    (∀ job b h c x, s.jobs.look job = some b → b.state ≠ 4 → b.solver = true → h < 2 → (s.solver h).ctxs.look c = some x →
      ((s.solver h).skels.val x.skel {}).sid = ((s.parts.val b.part {}).svcs.val b.entry {}).sid →
      x.startTick + s.stepLimit * 1000 ≤ s.clk.tick → x.deadline = none →
      s.Does (.stepLimitExpiry job) (fun t => (t.solver h).ctxs.look c = none))

/-! ## Steps and jobs -/

/-- An admission close marks the coming step closed and starts the build of its work list, admits nothing in a draining partition, and holds an Idle job's start
for the lead; a lone latency-class candidate of the PF that finds its pages is admitted, its head operation taken for the coming step. The step builder's list takes the build off, and a
list that misses its bound hangs the builder.
(The model's own readings and choices in it: log 71, 83.) -/
def Obligations.AdmissionClosesAndWorkLists : Prop :=
  ∀ (s : State) (job : Nat) (b : Job) (q : Part), s.jobs.look job = some b → s.parts.look b.part = some q →
    (∀ se, q.season = some se → b.closeNow se = true → b.state ≠ 4 →
      let v := q.svcs.val b.entry {}
      s.Does (.admissionClose job) (fun t => ∃ b', t.jobs.look job = some b' ∧ b'.closed = true ∧ b'.closeDue = false ∧ b'.build = some s.clk.cycle ∧
        b'.lcLimitAt = v.lcLimit ∧ b'.state = b.state ∧ b'.occupied = b.occupied ∧ (b.state = 1 → b'.readyIn = some se.lead) ∧
        (s.refusing b.part = true → b'.admitted = [] ∧ b'.lcAdm = 0)) ∧
      (∀ e c, s.refusing b.part = false → s.entriesOf b.part v.sid = [e] → (∀ o, o ∈ (s.seq e).ops → s.opLive o = true) →
        poisonedList b.part s e = false → s.candOf e (s.seq e) = some c → c.lc = true → 0 < v.lcLimit → (s.seq e).fn = 512 →
        let need := ceilDiv (((s.seq e).ahead + c.items v) * v.kvBytes) 65536 - (s.seq e).pages.length
        need ≤ q.kvFree.length →
        s.Does (.admissionClose job) (fun t => (∃ b', t.jobs.look job = some b' ∧ b'.admitted = [e] ∧ b'.lcAdm = 1) ∧
          (t.seq e).state = 3 ∧ (t.seq e).nextOpPkt = c.op.pkt ∧ (t.seq e).nextItems = c.items v ∧ (t.seq e).pages = (s.seq e).pages ++ q.kvFree.take need))) ∧
    (∀ u, b.build = some u → q.hold = none →
      (∀ s2, s.workList b q = .ok s2 → exec (.workListBuilt job) s = .next
        ({ s2 with buildMax := s2.buildMax.put q.builderHalf (max (s2.buildMax.val q.builderHalf 0) (sat 18 (s.clk.cycle - u))) }.modJob job
          (fun b => { b with build := none }))) ∧
      (∀ k a, s.workList b q = .error (k, a) → k < 16 → exec (.workListBuilt job) s = .next (accessFault b.part q.builderHalf k a true 0xFFFF job s)) ∧
      (u + 1024 + 32 * (q.svcs.val b.entry {}).positions < s.clk.cycle → s.mayReset = true →
        s.Does (.stepBuilderBoundMissed job) (s.Hung 5 q.builderHalf)))

/-- The boundary of a running job's layer: without another ready job the next layer follows, and after the last one, with work admitted, the step ends and the next
begins with it; a ready job of a higher priority takes the tiles, the running one Waiting and counted, unless a tile holds a semaphore or a credit of it: then it keeps the seam
once and dies the second time. A boundary that finds a tile of the job in a locked sequence, in a block operation or at a window depth other than 0 breaks the Season. A completed switch runs its job with each
tile Awake or Dormant as the wake schedule has it at the job's offset; a step begins where none is in progress, once no column of the partition is powering up or down.
(The model's own readings and choices in it: log 92.) -/
def Obligations.LayerBoundariesAndSwitches : Prop :=
  ∀ (s : State) (job : Nat) (b : Job) (q : Part), s.jobs.look job = some b → s.parts.look b.part = some q →
    (∀ se, q.season = some se → b.state = 2 → q.runJob = some job → q.hold = none → q.switch = none → q.stop.state = 0 → s.layerOpen q job = true →
      (if se.layerEnds.length ≤ b.layer + 1 then se.stepCycles else se.layerEnds.getD b.layer se.stepCycles) ≤ b.offset →
      s.Does (.layerBoundary job) (fun t => t.Killed job stJobLost 2)) ∧
    (∀ se, q.season = some se → b.state = 2 → q.runJob = some job → q.hold = none → q.switch = none → q.drain = none → q.draining = false →
      q.stop.state = 0 → s.layerOpen q job = false → b.prio ≤ 7 → se.ownsSlots = false →
      let others := (s.readyJobs b.part).filter (fun e => decide (e.1 ≠ job))
      (b.layer + 1 < se.layerEnds.length → se.layerEnds.getD b.layer se.stepCycles ≤ b.offset →
        (others = [] → s.Does (.layerBoundary job) (fun t =>
          (∃ b', t.jobs.look job = some b' ∧ b'.layer = b.layer + 1 ∧ b'.state = 2 ∧ b'.step = b.step ∧ b'.occupied = b.occupied ∧ b'.heldSeam = false) ∧
          ∀ k, q.cols.contains (colOf k) = true → (t.tile k).digest.val (16 + b.entry) 0 = (s.tile k).digest.val b.entry 0)) ∧
        (∀ j p, others = [(j, p)] → p < b.prio →
          (s.jobHolds q job = false → s.Does (.layerBoundary job) (fun t =>
            (∃ b', t.jobs.look job = some b' ∧ b'.state = 3 ∧ b'.preempts = b.preempts + 1 ∧ b'.layer = b.layer + 1) ∧
            ∃ q', t.parts.look b.part = some q' ∧ q'.switch = some (j, s.clk.cycle) ∧ q'.runJob = none)) ∧
          (s.jobHolds q job = true → b.heldSeam = false → s.Does (.layerBoundary job) (fun t =>
            ∃ b', t.jobs.look job = some b' ∧ b'.state = 2 ∧ b'.layer = b.layer + 1 ∧ b'.heldSeam = true ∧ b'.overruns = sat 32 (b.overruns + 1))) ∧
          (s.jobHolds q job = true → b.heldSeam = true → s.Does (.layerBoundary job) (fun t => t.Killed job stJobLost 3)))) ∧
      (se.layerEnds.length ≤ b.layer + 1 → se.stepCycles ≤ b.offset → others = [] → b.admitted ≠ [] →
        s.Does (.layerBoundary job) (fun t => ∃ b', t.jobs.look job = some b' ∧ b'.state = 2 ∧ b'.step = b.step + 1 ∧ b'.steps = b.steps + 1 ∧
          b'.layer = 0 ∧ b'.offset = 0 ∧ b'.occupied = b.admitted ∧ b'.admitted = [] ∧ b'.closed = false ∧ b'.stepStart = some s.clk.tick))) ∧
    (∀ u, q.switch = some (job, u) → b.state ≠ 4 → b.stepStart.isSome = true ∨ s.colsMove q = false →
      s.Does (.jobSwitchDone job) (fun t =>
        (∃ q', t.parts.look b.part = some q' ∧ q'.runJob = some job ∧ q'.switch = none) ∧
        ∃ b', t.jobs.look job = some b' ∧ b'.state = 2 ∧ b'.waited = 0 ∧ b'.readyAt = none ∧
          (b.stepStart = none → b'.stepStart = some s.clk.tick ∧ b'.occupied = b.admitted ∧ b'.admitted = [] ∧ b'.offset = 0)) ∧
      (∀ se k i, q.season = some se → s.logOf k = some i → q.cols.contains (colOf k) = true → (s.tile k).power ≠ 2 → (s.tile k).ucWoken = none →
        b.stepStart.isSome = true →
        s.Does (.jobSwitchDone job) (fun t => (t.tile k).power = b2n (schedAwake (decide (1 < q.svcs.length)) se.wakes (tileName i) b.offset))))

/-- Planned actions: a flit's last hop stores its 64 bytes in an Awake tile that no reset holds; a flit that enters the Half Link takes a timetabled credit while one is left; a message of a
planned channel leaves the wire; an action that the machine does not reach or that no timetable has breaks the Season. A scheduled transfer starts under the lowest free tag of its tile, or
breaks the Season where there is none. -/
def Obligations.PlannedActions : Prop :=
  ∀ (s : State) (job : Nat) (b : Job), s.jobs.look job = some b →
    (b.state ≠ 4 →
      (∀ f : PlanFlit, f.lane = none → (s.tile (s.physOf f.dst)).power = 1 → s.partOfTile (s.physOf f.dst) = none →
        s.Does (.plannedAction job (.flit f)) (fun t =>
          t.tile (s.physOf f.dst) = (s.tile (s.physOf f.dst)).storeWrite f.addr f.data (fun g => f.poison.contains (g - f.addr / 32) || decide (f.err = 2)) ∧
          ∀ k, k ≠ s.physOf f.dst → t.tile k = s.tile k)) ∧
      (∀ (f : PlanFlit) dir n, f.lane = some (dir, n) → f.onLink = true →
        (s.hl.ttAvail.val dir 0 < 1920 → exec (.plannedAction job (.flit f)) s =
          .next (s.setHl (fun h => { h with ttAvail := h.ttAvail.put dir (s.hl.ttAvail.val dir 0 + 1) }))) ∧
        (1920 ≤ s.hl.ttAvail.val dir 0 → s.Does (.plannedAction job (.flit f)) (fun t => t.Killed job stJobLost 2))) ∧
      (∀ p c m rest, ((s.tile p).chans.val c {}).wire = m :: rest → s.physOf ((s.tile p).chans.val c {}).dst ≠ p →
        s.Does (.plannedAction job (.message p c)) (fun t =>
          ((t.tile p).chans.val c {}).wire = rest ∧ (t.tile p).posted = (s.tile p).posted - 1)) ∧
      s.Does (.plannedAction job .stray) (fun t => t.Killed job stJobLost 2) ∧
      (∀ n, s.Does (.plannedAction job (.missed n)) (fun t => t.Killed job stJobLost 2))) ∧
    (∀ q se idx e i, s.parts.look b.part = some q → q.season = some se → se.transfers[idx]? = some e → b.state = 2 → q.runJob = some job →
      q.hold = none → e.offset ≤ b.offset → b.xferIdx.contains idx = false → q.stop.state = 0 → logOfName e.tile = some i →
      (∀ tag, s.freeTag i true 0 = some tag → s.Does (.plannedTransferStart job idx) (fun t =>
        t.mem.xfers.look tag = some
          { part := b.part, job := job, tile := some i, kind := e.kind, flags := e.flags, sem := e.sem, dst := (logOfName e.dst).getD 0,
            localAddr := e.localAddr, bytes := e.bytes, remote := e.remote, planned := true } ∧
        ∃ b', t.jobs.look job = some b' ∧ b'.xferIdx = b.xferIdx ++ [idx])) ∧
      (s.freeTag i true 0 = none → s.Does (.plannedTransferStart job idx) (fun t => t.Killed job stJobLost 2)))

/-! ## Transfers, Hold and the stacks -/

/-- A transfer's request is issued under the partition's translation, and a fault on the way holds the partition or kills its job; its response brings the data into the tile and
DONE_BYTES up to what was asked, the last one returning the tag and counting the notify semaphore; a NACK of a reset tile discards the transfer; a response that does not come
within 65,536 cycles kills the job. -/
def Obligations.TransfersRequestAndRespond : Prop :=
  ∀ (s : State) (tag : Nat) (x : Xfer) (i : Nat), s.mem.xfers.look tag = some x → x.tile = some i →
    (∀ q, s.parts.look x.part = some q → x.issued = x.done → x.done < x.bytes → q.faulted.contains tag = false → q.hold = none → q.stop.state = 0 →
      x.planned = true ∨ ((q.regs.val 1 {}).rate = 0 ∧ (q.regs.val 2 {}).rate = 0) →
      (∀ dpa w, x.kind ≠ 3 → q.walk (x.remote + x.done) (x.kind == 2) = .ok dpa w → exec (.transferRequest tag false) s =
        .next (s.setMem (fun m => { m with xfers := m.xfers.put tag { x with issued := x.done + x.chunk, reqCycle := s.clk.cycle, dpa := dpa } }))) ∧
      (x.kind = 3 → exec (.transferRequest tag false) s =
        .next (s.setMem (fun m => { m with xfers := m.xfers.put tag { x with issued := x.done + x.chunk, reqCycle := s.clk.cycle, dpa := 0 } }))) ∧
      (∀ k, x.kind ≠ 3 → q.walk (x.remote + x.done) (x.kind == 2) = .fault k → k < 4 → q.inRegion (x.remote + x.done) = true →
        s.Does (.transferRequest tag false) (fun t => ∃ q', t.parts.look x.part = some q' ∧ q'.hold = some s.clk.cycle ∧ tag ∈ q'.faulted ∧
          q'.faults = sat 16 (q.faults + 1) ∧ q'.holds = sat 16 (q.holds + 1))) ∧
      (∀ b, x.kind ≠ 3 → q.walk (x.remote + x.done) (x.kind == 2) = .fault 4 → s.jobs.look x.job = some b → b.state ≠ 4 →
        s.Does (.transferRequest tag false) (fun t => t.Killed x.job stJobLost 3))) ∧
    (x.done < x.issued →
      (x.kind = 1 → x.issued - x.done = 64 → x.planned = true ∨ s.takesUc (s.physOf i) = true →
       (match placeOf x.dpa with | .tile j => x.planned || s.takesUc (s.physOf j) | _ => true) = true → ∀ b p0 p1, s.readGran x.dpa = .ok b p0 p1 →
        let a := x.localAddr + x.done
        (x.issued ≠ x.bytes → s.Does (.transferResponse tag .done) (fun t =>
          t.mem.xfers.look tag = some { x with done := x.issued } ∧
          (t.tile (s.physOf i)).store = ((s.tile (s.physOf i)).storeWrite a b (fun g => if g % 2 = 0 then p0 else p1)).store)) ∧
        (x.issued = x.bytes → bit x.flags 0 = false → bit x.flags 1 = false → s.Does (.transferResponse tag .done) (fun t =>
          t.mem.xfers.look tag = none ∧
          (t.tile (s.physOf i)).store = ((s.tile (s.physOf i)).storeWrite a b (fun g => if g % 2 = 0 then p0 else p1)).store)) ∧
        (x.issued = x.bytes → bit x.flags 0 = true → bit x.flags 1 = false → (s.tile (s.physOf i)).sems.val x.sem 0 < 0xFFFF →
          s.Does (.transferResponse tag .done) (fun t =>
            t.mem.xfers.look tag = none ∧ (t.tile (s.physOf i)).sems.val x.sem 0 = (s.tile (s.physOf i)).sems.val x.sem 0 + 1))) ∧
      s.Does (.transferResponse tag .nackReset) (fun t => t.mem.xfers.look tag = none ∧ t.tiles = s.tiles ∧ t.jobs = s.jobs) ∧
      (∀ b, s.jobs.look x.job = some b → b.state ≠ 4 →
        s.Does (.transferResponse tag .nackRoute) (fun t => t.Killed x.job stJobLost 3) ∧
        s.Does (.transferResponse tag .nackDark) (fun t => t.Killed x.job stJobLost 3) ∧
        (x.reqCycle + 65536 ≤ s.clk.cycle → s.Does (.transferNoResponse tag) (fun t => t.Killed x.job stJobLost 3))))

/-- Page tables, Hold and the stacks' own events: a change of a page-table entry of the partition's own memory takes effect; a Hold whose faults are all repaired ends; one that
lasts 10,000 ticks ends with its unrepaired jobs killed; a failed channel is recorded; a refresh is timed; a day's count of corrected store errors starts anew. -/
def Obligations.HoldsPagesAndStackEvents : Prop :=
  ∀ s : State,
    (∀ part q dva k pte, s.parts.look part = some q → q.entryOf dva = some k → q.owns pte = true →
      (∀ e, e ∈ s.mem.xfers → e.2.part = part → e.2.issued ≤ e.2.done) →
      exec (.pageTableUpdate part dva pte) s =
        .next (s.modPart part (fun q => { q with tables := if pte = 0 then q.tables.del k else q.tables.put k pte }))) ∧
    (∀ part q u, s.parts.look part = some q → q.hold = some u → q.faulted.all (s.repaired q) = true → (∀ se, q.season = some se → se.ownsSlots = false) →
      s.Does (.holdRepaired part) (fun t => t.jobs = s.jobs ∧
        t.parts.look part = some { q with hold := none, faulted := [], maxTicks := max q.maxTicks (sat 16 (ceilDiv (s.clk.cycle - u) 1500)) })) ∧
    (∀ part q u, s.parts.look part = some q → q.hold = some u → u + 15000000 ≤ s.clk.cycle →
      s.Does (.holdLimit part) (fun t => (∃ q', t.parts.look part = some q' ∧ q'.hold = none) ∧
        ∀ f b, f ∈ q.faulted → s.repaired q f = false → s.jobs.look (s.faultJob f) = some b → b.state ≠ 4 → t.Killed (s.faultJob f) stJobLost 3)) ∧
    (∀ ch, ch < 128 → s.mem.failed.contains ch = false → s.ident.variant.hasStack (ch / 16) = true →
      s.Does (.stackChannelFail ch) (fun t => t.mem = { s.mem with failed := s.mem.failed ++ [ch] } ∧ t.jobs = s.jobs)) ∧
    (∀ ch, ch < 128 → s.ident.variant.hasStack (ch / 16) = true →
      s.chanBusy ch = false ∨ 85 < s.pwr.temps.val (8 + ch / 16) 0 ∨ s.mem.refreshAt.val ch 0 + 2880 ≤ s.clk.cycle →
      exec (.stackRefresh ch) s = .next (s.setMem (fun m => { m with refreshAt := m.refreshAt.put ch s.clk.cycle }))) ∧
    (∀ p, (s.healthOf p).cePeriod < (s.clk.tick - s.clk.readyTick) / dayTicks →
      exec (.storeCePeriodEnd p) s =
        .next (s.setHealth p { s.healthOf p with cePeriod := (s.clk.tick - s.clk.readyTick) / dayTicks, storeCe := 0 }))

/-! ## The unplanned channel -/

/-- Requests at an Awake tile, or at one that cannot take them: a permitted WRITE stores its bytes, a READ answers the store's, a SEM_INC counts, a CHAN_MSG joins the channel's
queue, a CHAN_CREDIT returns a credit, configuration reads and writes reach the tile's registers, each with its response; a tile that is dark or being reset is answered with its NACK code; a master without the permission
changes nothing and is recorded in SEC_VIOLATION.
(The model's own readings and choices in it: log 36, 80.) -/
def Obligations.UnplannedRequestsAtTiles : Prop :=
  ∀ (s : State) (p : UcPacket) (i : Nat), logOfName p.dest = some i → tileSrc p.src = false → p.flags = 0 → p.nack = 0 → p.ueHead = false → p.ueData = 0 →
    let x := s.physOf i
    let permitted (need : Nat) : Prop := s.memPerm (s.partOfTile x) true p.src need = true
    let answered (t : State) (typ nack : Nat) (data : Bytes) : Prop :=
      ∃ r, t.hl.resps = s.hl.resps ++ [r] ∧ r.typ = typ ∧ r.nack = nack ∧ r.tag = p.tag ∧ r.data = data
    (s.tileNack i = 0 → s.takesUc x = true →
      (permitted needWrite → p.addr + p.data.length ≤ storeBytes → s.Does (.ucWrite p) (fun t => answered t 7 0 [] ∧
        (t.tile x).store = ((s.tile x).storeWrite p.addr p.data (fun g => p.poison.contains (g - p.addr / 32))).store ∧ ∀ k, k ≠ x → t.tile k = s.tile k)) ∧
      (permitted needRead → p.addr + p.count ≤ storeBytes → s.Does (.ucRead p) (fun t => answered t 3 0 ((s.tile x).store.read p.addr p.count) ∧
        (t.tile x).store = (s.tile x).store)) ∧
      (permitted needSignal → p.addr < 32 → (s.tile x).sems.val p.addr 0 + p.count ≤ 0xFFFF → s.Does (.ucSemInc p) (fun t => answered t 7 0 [] ∧
        (t.tile x).sems.val p.addr 0 = (s.tile x).sems.val p.addr 0 + p.count)) ∧
      (permitted needSignal → s.msgFirst p = true → ((s.tile x).chans.val p.addr {}).conf = true → s.Does (.ucChanMsg p) (fun t => answered t 7 0 [] ∧
        ∃ a, ((t.tile x).chans.val p.addr {}).queue = ((s.tile x).chans.val p.addr {}).queue ++ [(a, 1536)])) ∧
      (∀ c, (s.tile x).chans.look p.addr = some c → s.Does (.ucChanCredit p) (fun t => answered t 7 0 [] ∧
        (t.tile x).chans.look p.addr = some { c.credit with returning := c.returning - 1 })) ∧
      (permitted needRead → s.Does (.ucCfgRead p) (fun t => answered t 0xB 0 (le 8 (specialRead (p.addr / 8) (s.tile x)).toNat))) ∧
      (permitted needConfig → s.Does (.ucCfgWrite p) (fun t => answered t 7 0 [] ∧
        { t.tile x with ucWoken := none } = { specialWrite (p.addr / 8) (word32 p.inl 0) (s.tile x) with ucWoken := none })) ∧
      (s.memPerm (s.partOfTile x) true p.src needWrite = false → s.Does (.ucWrite p) (fun t => answered t 7 0 [] ∧ (t.tile x).store = (s.tile x).store ∧
        t.sec.violations = sat 16 (s.sec.violations + 1) ∧ t.sec.vMaster = p.src ∧ t.sec.vTarget = 1 ∧ t.sec.vNeed = needWrite))) ∧
    (s.tileNack i ≠ 0 →
      let refused (t : State) : Prop := answered t 8 (s.tileNack i) [] ∧ t.tiles = s.tiles
      s.Does (.ucWrite p) refused ∧ s.Does (.ucRead p) refused ∧ s.Does (.ucSemInc p) refused ∧ s.Does (.ucChanCredit p) refused ∧
      s.Does (.ucCfgRead p) refused ∧ s.Does (.ucCfgWrite p) refused)

/-- Responses at their requesters: an ACK ends the request and, for a posted one, what its tile has outstanding; data go to the engine that asked; a NACK is counted by the tile's partition and breaks
the Season of an engine's job. A Half Link that goes down is a hang.
(The model's own readings and choices in it: log 80.) -/
def Obligations.UnplannedResponses : Prop :=
  ∀ (s : State) (p : UcPacket),
    let erased (typ : Nat) : List UcPacket := s.hl.resps.eraseP (fun r => decide (r.typ = typ ∧ r.tag = p.tag))
    (∀ r e, s.respOf 7 p.tag = some r → tileSrc r.src = true → s.hl.reqs.look p.tag = some e → e.pkt.typ = 1 →
      s.Does (.ucAck p) (fun t => t.hl.resps = erased 7 ∧ t.hl.reqs.look p.tag = none ∧ (t.tile e.tile).posted = (s.tile e.tile).posted - 1)) ∧
    (∀ r, s.respOf 3 p.tag = some r → s.Does (.ucReadData p) (fun t =>
      t.hl.resps = erased 3 ∧ t.out.up = s.out.up ++ [.uc r])) ∧
    (∀ r, s.respOf 0xB p.tag = some r → s.Does (.ucCfgData p) (fun t =>
      t.hl.resps = erased 0xB ∧ t.out.up = s.out.up ++ [.uc r])) ∧
    (∀ r q, s.respOf 8 p.tag = some r → 0x280 ≤ r.src → r.src ≤ 0x287 → r.nack = 1 → s.parts.look r.part = some q →
      s.Does (.ucNack p) (fun t => t.hl.resps = erased 8 ∧ t.parts.look r.part = some { q with nackDark := sat 16 (q.nackDark + 1) } ∧ t.jobs = s.jobs)) ∧
    (∀ r b, s.respOf 8 p.tag = some r → r.src ≤ 0x200 → r.nack ≠ 2 → s.jobs.look r.job = some b → b.state ≠ 4 →
      s.Does (.ucNack p) (fun t => t.Killed r.job stJobLost 2)) ∧
    (s.hl.state = 2 → s.mayReset = true → s.Does .halfLinkDown (fun t => t.hl.state = 0 ∧ s.Hung 3 0 t))

/-! ## Fabric ports, slots and frames -/

/-- A slot of an Up port goes out once: IDLE without an owner or a frame, with the frame that waits where a credit is there and the tokens of its partition's regulator,
IDLE where those tokens are not there, SILENT for an owner that cannot supply it, planned with the bytes
of its entry; a received slot's codeword counts are kept, and a planned one that its entry expects is noted for its job.
(The model's own readings and choices in it: log 32, 86, 91.) -/
def Obligations.FabricSlots : Prop :=
  ∀ (s : State) (port : Nat), (s.port port).isUp = true → s.ident.variant.hasPort port = true →
    let x := s.port port
    let n := s.clk.phase / 60
    let went (t : State) (f : FabSlot) : Prop :=
      t.out.up = s.out.up ++ [.slot port f] ∧ f.slot = n ∧ f.month = s.alm.month % 256 ∧ f.credits = min 125 x.owed ∧
      (t.port port).slot = n + 1 ∧ (t.port port).owed = x.owed - min 125 x.owed
    (s.clk.monthsOn = true → n < 1024 → x.slot ≤ n →
      (x.state = portUp ∨ s.sendEntry port n = none →
        (∀ b, x.queue = [] → s.Does (.slotSend port b) (fun t => ∃ f, went t f ∧ f.kind = 3)) ∧
        (∀ b c fr, x.queue = [(c, fr)] → s.mayCarry x fr = true → 0 < x.credits → 8 ≤ c ∨ (takeTokens c 3 32 s).isSome = true →
          s.Does (.slotSend port b) (fun t => ∃ f, went t f ∧ f.kind = 1 ∧ f.frames = [fr] ∧ (t.port port).queue = [] ∧
            (t.port port).credits = x.credits - 1 ∧ (t.port port).sentUncred = x.sentUncred + 1)) ∧
        (∀ b c fr, x.queue = [(c, fr)] → c < 8 → takeTokens c 3 32 s = none →
          s.Does (.slotSend port b) (fun t => ∃ f, went t f ∧ f.kind = 3 ∧ (t.port port).queue = x.queue ∧ t.parts = s.parts))) ∧
      (∀ part o, x.state = portMember → s.sendEntry port n = some (part, o) →
        (∀ b, s.supplies part = false → s.Does (.slotSend port b) (fun t => ∃ f, went t f ∧ f.kind = 2)) ∧
        (∀ q d bad, s.supplies part = true → s.parts.look part = some q →
          s.readVa q (o.dva + 4000 * (n - o.first)) (o.slotBytes (n - o.first)) = .ok (d, bad) →
          s.Does (.slotSend port true) (fun t => ∃ f, went t f ∧ f.kind = 0 ∧ f.flow = o.flow ∧ f.payload = d)))) ∧
    (∀ f : FabSlot,
      let taken (t : State) : Prop := (t.port port).ce = sat 16 (x.ce + f.ce) ∧ (t.port port).ue = sat 16 (x.ue + f.ue) ∧ (t.port port).ueMonth = x.ueMonth + f.ue ∧
        (t.port port).credits = x.credits + min (if f.checkOk then f.credits else 0) x.sentUncred
      (2 ≤ f.kind → s.Does (.slotReceive port f) taken) ∧
      (∀ part j o b, f.kind = 0 → x.state = portMember → s.recvEntry port f.slot f.month = some (part, j, o) → o.flow = f.flow → s.jobs.look j = some b →
        s.Does (.slotReceive port f) (fun t => taken t ∧ ∃ b', t.jobs.look j = some b' ∧ b'.slotsIn = b.slotsIn ++ [(port, f.slot)] ∧ b'.state = b.state)))

/-- Frames: a granted SIGNAL adds its value to the device semaphore, one without a grant is a violation and adds nothing, and both are acknowledged; a SIGNAL_ACK settles its signal; a
SEM_READ is answered with the value; a SEM_DATA answers nothing; an advertisement names its sender's domain; the root gives a joining member a number; a delay request is answered, and a delay answer
measures the channel.
(The model's own readings and choices in it: log 23, 33.) -/
def Obligations.FabricFrames : Prop :=
  ∀ (s : State) (port : Nat) (fr : Frame), (s.port port).isUp = true → s.mayCarry (s.port port) fr = true →
    let sem := 2048 * fr.half + fr.sem
    let back := (s.routeTo fr.src).getD port
    let queued (t : State) (q : Nat) (f : Frame) : Prop := (t.port q).queue = (s.port q).queue ++ [(8, f)]
    (fr.typ = 1 → fr.dst = s.alm.device →
      let ack (st : Nat) : Frame := { typ := 2, src := s.alm.device, dst := fr.src, half := fr.half, sem := fr.sem, seq := fr.seq, status := st }
      (s.granted fr false = true → (∀ e, e ∈ s.qps → e.2.hold = none) → s.Does (.signalFrame port fr) (fun t =>
        t.alm.sems.val sem 0 = s.alm.sems.val sem 0 + fr.value ∧ queued t back (ack 0))) ∧
      (s.granted fr false = false → s.Does (.signalFrame port fr) (fun t =>
        t.alm.sems = s.alm.sems ∧ queued t back (ack 1) ∧ t.sec.violations = sat 16 (s.sec.violations + 1) ∧ t.sec.vMaster = 0x2A2 ∧ t.sec.vTarget = 6))) ∧
    (∀ g, fr.typ = 2 → s.alm.heldSigs = [] → fr.dst = s.alm.device → s.alm.sigs.look fr.seq = some g → g.gen = (s.fn g.fn).gen → fr.status = 0 →
      s.Does (.signalAck port fr) (fun t => t.alm.sigs.look fr.seq = none ∧
        (t.fn g.fn).targets.look g.target = ((s.fn g.fn).targets.look g.target).map (fun x => { x with acked := x.acked + 1 }))) ∧
    (fr.typ = 3 → fr.dst = s.alm.device → s.Does (.semRead port fr) (fun t => t.alm = s.alm ∧ queued t back
      { typ := 4, src := s.alm.device, dst := fr.src, half := fr.half, sem := fr.sem, seq := fr.seq, status := b2n (!s.granted fr true),
        value := if s.granted fr true then s.alm.sems.val sem 0 else 0 })) ∧
    (fr.typ = 4 → fr.dst = s.alm.device →
      exec (.semData port fr) s = .next (s.setPort port { s.port port with owed := (s.port port).owed + 1 })) ∧
    (fr.typ = 5 → bits fr.value.toNat 7 0 = 4 → s.Does (.almCtrl port fr) (fun t =>
      (t.port port).peerDomain = some (bits fr.value.toNat 39 8) ∧ (t.port port).peer = bits fr.aux.toNat 11 0 ∧ (t.port port).hops = bits fr.aux.toNat 15 12)) ∧
    (∀ i, fr.typ = 5 → bits fr.value.toNat 7 0 = 1 → s.alm.belongs = true → s.alm.root = true → bits fr.value.toNat 39 8 = s.alm.domain → bit fr.aux.toNat 16 = false →
      firstFree 4096 (fun i => !s.alm.members.contains i) = some i →
      s.Does (.almCtrl port fr) (fun t => t.alm = { s.alm with members := i :: s.alm.members } ∧
        queued t port (almFrame 2 s.alm.domain i (fr.hops + 1) false s.alm.device i))) ∧
    (fr.typ = 6 → s.Does (.delayReq port fr) (fun t => queued t port { typ := 7, src := s.alm.device, dst := fr.src, seq := fr.seq, aux := fr.aux })) ∧
    (∀ u, fr.typ = 7 → (s.port port).chanDelay = some u → s.Does (.delayRsp port fr) (fun t =>
      (t.port port).chanDelay = none ∧ (t.port port).delay = (s.clk.cycle - u - fr.aux.toNat) * 10 / 3 % 2 ^ 20))

/-- The Almanac and the Months: an Equinox in step keeps the last skew; a skew above 20 ns takes the device Out, and one of at most 10 ns brings it back; the first Equinox of a locked member that joins aligns its Month and ends the join; a lost
upstream port is replaced by the best of the others; four periods without an Equinox leave the device Adrift; a join's clock locks; a Month's end counts the Month and its audit.
(The model's own readings and choices in it: log 52, 91.) -/
def Obligations.AlmanacAndMonths : Prop :=
  ∀ s : State,
    (∀ (e : Int) dm, s.alm.root = false → s.alm.upstream < 12 → (s.port s.alm.upstream).isUp = true →
      let heard : Alm := { s.alm with skewLast := e, skewMax := max s.alm.skewMax (sat 16 e.natAbs), lastEq := s.clk.months, slew := e }
      (s.alm.state = almInStep → e.natAbs ≤ 200 → exec (.equinox e dm) s = .next { s with alm := heard }) ∧
      (s.alm.state = almInStep → 200 < e.natAbs → s.Does (.equinox e dm) (fun t => t.alm.state = almOut ∧ t.alm.skewLast = e ∧ t.alm.lastEq = s.clk.months ∧
        ∀ j b q se, s.jobs.look j = some b → b.state ≠ 4 → s.parts.look b.part = some q → q.season = some se → se.ownsSlots = true → t.Killed j stJobLost 2)) ∧
      (s.alm.state = almOut → e.natAbs ≤ 100 → s.alm.joinOp = none → s.Does (.equinox e dm) (fun t => t.alm = { heard with state := almInStep })) ∧
      (∀ op u, s.alm.state = almJoining → s.alm.numbered = true → s.alm.locked = true → s.alm.joinOp = some (op, u) → s.opOpen op = true →
        s.Does (.equinox e dm) (fun t => t.OpDone op 0 0 ∧ t.clk.months = s.clk.months ∧
          t.alm = { s.alm with state := almInStep, joinOp := none, skewLast := 0, lastEq := s.clk.months, aligned := true, month := dm, slew := 0 }))) ∧
    (∀ p, s.alm.root = false → s.alm.state = almInStep → s.alm.lastEq + 512 ≤ s.clk.months → s.bestUpstream (some s.alm.upstream) = some p →
      s.Does .equinoxMissed (fun t => t.alm = { s.alm with upstream := p, hops := (s.port p).hops + 1 })) ∧
    (s.alm.root = false → s.alm.state = almInStep ∨ s.alm.state = almOut → s.alm.lastEq + 1024 ≤ s.clk.months →
      s.Does .adrift (fun t => t.alm.state = almAdrift ∧ t.alm.locked = false ∧ t.alm.aligned = false ∧
        ∀ j b q se, s.jobs.look j = some b → b.state ≠ 4 → s.parts.look b.part = some q → q.season = some se → se.ownsSlots = true → t.Killed j stJobLost 2)) ∧
    (s.alm.root = false → s.alm.state = almJoining → s.alm.numbered = true → s.alm.upstream < 12 →
      exec .frequencyLock s = .next { s with alm := { s.alm with locked := true } }) ∧
    (s.clk.monthsOn = true → 61440 ≤ s.clk.phase → s.ladder.flush = none →
      s.Does .monthBoundary (fun t => t.clk = { s.clk with months := s.clk.months + 1, phase := s.clk.phase - 61440 } ∧
        t.pwr.auditMonths = (s.pwr.auditMonths + 1) % 2 ^ 32))

/-- The ports' own events: a call in an answer window begins training; training that takes 500 ms ends; a completed one leaves the port Up with full credits; a lost one Down. -/
def Obligations.PortsComeUpAndGoDown : Prop :=
  ∀ (s : State) (port : Nat),
    let x := s.port port
    (s.ident.variant.hasPort port = true → x.disabled = false → x.state = portListen ∨ x.state = portDown → s.start.listening = true → s.windowOpen port = true →
      exec (.partnerCall port) s = .next (s.setPort port { x with state := portTraining, trainAt := s.clk.tick, call := false }) ∧
      (x.call = true → exec (.answerWindow port) s = .next (s.setPort port { x with state := portTraining, trainAt := s.clk.tick, call := false }))) ∧
    (s.windowOpen port = false → exec (.partnerCall port) s = .next (s.setPort port { x with call := true })) ∧
    (x.state = portTraining → x.trainAt + 500000 ≤ s.clk.tick → exec (.trainingTimeout port) s = .next (s.setPort port { x with state := portListen })) ∧
    (∀ delay foreign, x.state = portTraining → s.ident.variant.hasPort port = true → s.Does (.portUp port delay foreign) (fun t =>
      (t.port port).state = portUp ∧ (t.port port).foreign = foreign ∧ (t.port port).delay = delay % 2 ^ 20 ∧ (t.port port).credits = 512 ∧
      (t.port port).sentUncred = 0 ∧ (t.port port).ueSinceUp = 0 ∧ ∀ k, k ≠ port → t.port k = s.port k)) ∧
    (x.isUp = true ∨ x.state = portTraining → s.Does (.portDown port) (fun t =>
      (t.port port).state = portDown ∧ (t.port port).foreign = false ∧ (t.port port).peerDomain = none ∧ ∀ k, k ≠ port → t.port k = s.port k))

/-! ## The constraint solvers -/

/-- The solvers: a tile's request that names a skeleton of its partition joins the skeleton's queue; a free context takes the queued problem that may start first, and one that shall not run ends with its status; a
unit that ends counts an iterate, the last one ends the problem OK, and an error of the store ends it POISONED; a deadline after iteration 0 ends it PARTIAL with DETAIL 0x01;
a unit that overruns by 65,536 cycles is a hang.
(The model's own readings and choices in it: log 20, 28, 30.) -/
def Obligations.SolversRunProblems : Prop :=
  ∀ (s : State) (h : Nat),
    let z := s.solver h
    (∀ (p : UcPacket) r, tileSrc p.src = true → p.ueHead = false → p.ueData = 0 → s.hl.reqs.look p.tag = some r → r.pkt.typ = 5 → r.pkt.flags = 0 → r.pkt.nack = 0 →
      r.tile < 816 → s.hl.waiting = [] → s.msgFirst p = true → s.destOf r.pkt.dest = .client h 0x41 → s.solverPart h r.pkt.part = true → r.pkt.poison = [] →
      let hd := r.pkt.data.take 64
      let handle := fld hd 0 4
      let delta := (r.pkt.data.drop 64).take (fld hd 0x0E 2)
      let k := z.skels.val (handle % 4096) {}
      requestBad hd = false → k.used = true → handle / 4096 % 4 = h → k.reuse = handle / 16384 → k.part = r.pkt.part → k.gen = (s.fn k.fn).gen → k.dropping = none →
      deltaSizeBad (skelEntries k.image) delta = false → deltaBad (skelEntries k.image) delta = false → (s.solverJob k.sid).isSome = true → k.queue.length < 8 →
      s.Does (.tileSolverRequest p) (fun t => ∃ b : Problem, (t.solver h).skels.look (handle % 4096) = some { k with queue := k.queue ++ [b] } ∧
        b.pkt = none ∧ b.lc = true ∧ b.method = fld hd 4 1 ∧ b.delta = delta ∧ b.job = r.pkt.job ∧ b.accepted = s.clk.cycle)) ∧
    (∀ n i b, (List.range 256).find? (fun n => (z.ctxs.look ((s.free % 256 + n) % 256)).isNone) = some n →
      z.cands.find? (fun e => (s.deadProblem (z.skels.val e.1 {}) e.2).isSome || s.mayStart h (z.skels.val e.1 {}) e.2) = some (i, b) →
      (s.deadProblem (z.skels.val i {}) b = none → s.Does (.problemStart h) (fun t =>
        (∃ b', (t.solver h).ctxs.look ((s.free % 256 + n) % 256) = some b' ∧ b'.pkt = b.pkt ∧ b'.delta = b.delta ∧ b'.startAt = s.clk.cycle ∧ b'.unit = 0 ∧
          b'.delivered = false ∧ b'.engine < 16) ∧
        ((t.solver h).skels.val i {}).queue = (z.skels.val i {}).queue.drop 1)) ∧
      (∀ r pid, s.deadProblem (z.skels.val i {}) b = some (some r) → b.pkt = some pid → s.Does (.problemStart h) (fun t => t.Ended pid r.1 r.2))) ∧
    (∀ ctx b, z.ctxs.look ctx = some b →
      let k := z.skels.val b.skel {}
      let live (pid : Nat) : Prop := ∃ p, s.pkts.look pid = some p ∧ p.final = false ∧ s.live p = true ∧ p.cplMode ≠ 2
      (z.busy.look b.engine = some ctx → b.unitAt + b.cycles k.image ≤ s.clk.cycle →
        (b.delivered = false → s.Does (.solverUnit h ctx none) (fun t => t.outbox = s.outbox ∧
          ∃ b', (t.solver h).ctxs.look ctx = some b' ∧ b'.delivered = true ∧ b'.unit = b.unit)) ∧
        (b.delivered = true → k.poisonFor b = false → b.deadline = none → exactMethod b.method = false → b.unit < b.iters →
          s.Does (.solverUnit h ctx none) (fun t => t.outbox = s.outbox ∧ ∃ b', (t.solver h).ctxs.look ctx = some b' ∧ b'.unit = b.unit + 1)) ∧
        (∀ pid, b.delivered = true → k.poisonFor b = false → b.deadline = none → exactMethod b.method = true ∨ b.iters ≤ b.unit → b.pkt = some pid → live pid →
          s.Does (.solverUnit h ctx none) (fun t => (t.solver h).ctxs.look ctx = none ∧ t.Ended pid stOk 0)) ∧
        (∀ pid g, b.delivered = false → b.pkt = some pid → live pid →
          s.Does (.solverUnit h ctx (some g)) (fun t => (t.solver h).ctxs.look ctx = none ∧ t.Ended pid stPoisoned 1)) ∧
        (b.unitAt + b.cycles k.image + 65536 ≤ s.clk.cycle → s.mayReset = true → s.Does (.solverHang h ctx) (s.Hung 7 h))) ∧
      (∀ pid d, b.deadline = some d → d ≤ s.clk.cycle → b.unit ≠ 0 → b.pkt = some pid → live pid →
        s.Does (.solverDeadline h ctx) (fun t => (t.solver h).ctxs.look ctx = none ∧ t.Ended pid stPartial 1)))

/-! ## Interrupt controllers -/

/-- The interrupt controllers: a rising edge of an enabled edge source pends it, or while it is in service is counted lost; a level is kept as the input; a claim takes the lowest-numbered eligible source into service, or
answers 1,023 and is counted; a complete of the source in service ends the service, any other is recorded as bad; the counts of lost events and spurious claims clear as they are read; a source's register takes its configuration; a hold-off's last tick clears it; an armed wake source wakes the
device from Winter; a parity error restarts both control processors of the half. -/
def Obligations.InterruptControllers : Prop :=
  ∀ (s : State) (h t : Nat),
    let c := s.intc h
    (∀ n, s.srcOk h t n = true → s.pwr.cpClock = true →
      let k := srcKey t n
      let x := c.srcs.val k {}
      (x.enable = true → x.edge = true → x.edgeAt = none →
        (c.inService k = false → exec (.sourceEdge h t n) s =
          .next (s.setIntc h { c with srcs := c.srcs.put k { x with edgeAt := some s.clk.cycle, pend := true } })) ∧
        (c.inService k = true → exec (.sourceEdge h t n) s =
          .next (s.setIntc h { c with srcs := c.srcs.put k { x with edgeAt := some s.clk.cycle, lost := true }, lostCount := sat 16 (c.lostCount + 1) }))) ∧
      (x.edge = false → exec (.levelInputChange h t n true) s = .next (s.setIntc h { c with srcs := c.srcs.put k { x with input := true } })) ∧
      (x.edge = false → c.inService k = false → exec (.levelInputChange h t n false) s =
        .next (s.setIntc h { c with srcs := c.srcs.put k { x with input := false, reclaims := 0 } })) ∧
      (∀ w : BitVec 32, s.Does (.intcSrc h t n w) (fun u =>
        let y := (u.intc h).srcs.val k {}
        y.enable = w.getLsbD 0 ∧ y.edge = w.getLsbD 1 ∧ y.wake = (decide (64 ≤ n ∧ n < 128) && w.getLsbD 2) ∧ y.group = bits w.toNat 8 4 ∧
        y.pend = (x.pend && (w.getLsbD 0 || !x.enable)) ∧ y.lost = (x.lost && !w.getLsbD 14) ∧ y.masked = (x.masked && !w.getLsbD 15) ∧
        ∀ j, j ≠ h → u.intc j = s.intc j))) ∧
    (h < 2 → t < 2 → s.pwr.cpClock = true →
      (∀ n, c.service.look t = none → c.best t = some n → s.Does (.intcClaim h t) (fun u =>
        u.out.read = BitVec.ofNat 64 n ∧ (u.intc h).service.look t = some n ∧ ((u.intc h).srcs.val (srcKey t n) {}).pend = false)) ∧
      (c.service.look t = none → c.best t = none → s.Does (.intcClaim h t) (fun u =>
        u.out.read = 1023#64 ∧ (u.intc h).spurious.val t 0 = sat 16 (c.spurious.val t 0 + 1) ∧ (u.intc h).service = c.service)) ∧
      (∀ n, c.service.look t = some n → s.Does (.intcClaim h t) (fun u => u.out.read = 1023#64 ∧ u.intc h = c)) ∧
      (∀ n, c.service.look t = some n → (c.srcs.val (srcKey t n) {}).edge = true →
        exec (.intcComplete h t n) s = .next (s.setIntc h { c with service := c.service.del t })) ∧
      (∀ n, c.service.look t ≠ some n → s.Does (.intcComplete h t n) (fun u => t ∈ (u.intc h).bad ∧ (u.intc h).service = c.service)) ∧
      exec (.intcLostCountRead h) s = .next ((s.setIntc h { c with lostCount := 0 }).answer c.lostCount) ∧
      s.Does (.intcSpuriousRead h t) (fun u => u.out.read = BitVec.ofNat 64 (c.spurious.val t 0) ∧ (u.intc h).spurious.val t 0 = 0)) ∧
    (∀ g, c.remain.val g 0 = 1 → exec (.holdoffEnd h g) s = .next (s.setIntc h { c with remain := c.remain.del g })) ∧
    (∀ n, s.pwr.cpClock = false → 64 ≤ n → n < 128 → (c.srcs.val (srcKey 0 n) {}).enable = true → (c.srcs.val (srcKey 0 n) {}).wake = true → s.pwr.state = 0 →
      s.Does (.wakeLatch h n) (fun u => u.pwr.state = 1 ∧ u.pwr.wakeSource = n ∧ u.pwr.cpClock = true ∧ (u.intc h).latch = [] ∧ u.start.running = true)) ∧
    (h < 2 → s.pwr.stallTicks = [] → s.ladder.flush = none → s.ladder.cpRestart = [] →
      s.Does (.intcParityError h) (fun u => u.ladder.cpRestart.look (2 * h) = some s.clk.tick ∧ u.ladder.cpRestart.look (2 * h + 1) = some s.clk.tick ∧
        u.pwr.stallTicks = [s.clk.tick, s.clk.tick] ∧ u.ladder.flush = none))


/-! ## Integrity checking -/

/-- Shadow comparison, probe rounds and observation: a layer's pairs that agree are counted; one that does not kills the job JOB_LOST, DETAIL 0x03, and makes both tiles of the pair
suspect with cause 0x05. A round begins on a tile in a probe window; of its three digests the one that differs makes its tile suspect with cause 0x06, and three different
ones all three with 0x07; a round that does not finish fails; a PROBE ends at its limit with what it has not reached counted. A third failed test quarantines the tile, and a period that ends before
makes it Normal again.
(The model's own readings and choices in it: log 8, 40, 93.) -/
def Obligations.ShadowsProbesAndObservation : Prop :=
  ∀ s : State,
    (∀ job b q se n, s.jobs.look job = some b → s.parts.look b.part = some q → q.season = some se → q.fraction ≠ 0 → b.compared = false → b.state ≠ 4 →
      let last := if b.layer = 0 then se.layerEnds.length - 1 else b.layer - 1
      let k := if b.layer = 0 then b.step - 1 else b.step
      let tileOf (name : Nat) : Nat := (s.physOfName name).getD 0
      let differs (e : Nat × Nat) : Prop := (s.tile (tileOf e.2)).digest.val (16 + b.entry) 0 ≠ (s.tile (tileOf e.1)).digest.val (32 + b.entry) 0
      se.shadow.findIdx? (· == last) = some n → (n + k) % 2 ^ (se.fracMax - q.fraction) = 0 →
        ((∀ e, e ∈ se.pairs → ¬ differs e) → exec (.shadowCompare job) s =
          .next ((s.modPart b.part (fun q => { q with compares := sat 32 (q.compares + se.pairs.length) })).modJob job (fun j => { j with compared := true }))) ∧
        ((∃ e, e ∈ se.pairs ∧ differs e) → s.Does (.shadowCompare job) (fun t => t.Killed job stJobLost 3 ∧
          (∃ q', t.parts.look b.part = some q' ∧ q'.mismatches = sat 16 (q.mismatches + 1) ∧ q'.lastLayer = last) ∧
          ∀ e, e ∈ se.pairs → differs e → (t.healthOf (tileOf e.1)).cause = 5 ∧ (t.healthOf (tileOf e.2)).cause = 5))) ∧
    (∀ p pkg n fl, s.package pkg = some (n, fl) → (s.tile p).probe = none → s.probeWindow p n = true →
      ((s.healthOf p).state = 1 ∧ (s.healthOf p).nextTest ≤ s.clk.tick) ∨ ((s.healthOf p).state = 3 ∧ s.probes = []) →
      exec (.probeRoundStart p pkg) s = .next (s.setTile p { s.tile p with
        probe := some { pkg := pkg, seed := s.clk.tick % 2 ^ 32, cycles := n, pflags := fl, start := s.clk.cycle, c1 := (s.checkers p).1, c2 := (s.checkers p).2 } })) ∧
    (∀ p pkg n fl o, s.package pkg = some (n, fl) → (s.tile p).probe = none → s.probeWindow p n = true →
      (s.healthOf p).state ≠ 1 ∨ s.clk.tick < (s.healthOf p).nextTest →
      s.probes = [o] → o.pkg = pkg → 0 < o.tiles.val p 0 →
      exec (.probeRoundStart p pkg) s = .next (s.setTile p { s.tile p with
        probe := some { pkg := pkg, seed := o.seed, round := o.tiles.val p 0, cycles := n, pflags := fl, start := s.clk.cycle, op := some o.op,
                        c1 := (s.checkers p).1, c2 := (s.checkers p).2 } })) ∧
    (∀ p r (d e f : BitVec 64), (s.tile p).probe = some r → r.op = none → r.c1 ≠ p → r.c2 ≠ p → r.c1 ≠ r.c2 → r.start + r.cycles ≤ s.clk.cycle →
      let x := s.healthOf p
      let counted (t : State) (k bad : Nat) : Prop := (t.healthOf k).rounds = sat 32 ((s.healthOf k).rounds + 1) ∧
        (t.healthOf k).roundFails = sat 32 ((s.healthOf k).roundFails + bad)
      ((s.setTile p { s.tile p with probe := none }).probeWindow p 0 = true → d ≠ e →
        s.Does (.probeRoundEnd p d d d) (fun t => (t.tile p).probe = none ∧ counted t p 0 ∧ counted t r.c1 0 ∧ counted t r.c2 0 ∧ (t.healthOf p).state = x.state) ∧
        s.Does (.probeRoundEnd p e d d) (fun t => (t.tile p).probe = none ∧ counted t p 1 ∧ counted t r.c1 0 ∧ counted t r.c2 0) ∧
        s.Does (.probeRoundEnd p d e d) (fun t => counted t p 0 ∧ counted t r.c1 1 ∧ (t.healthOf r.c1).cause = 6) ∧
        s.Does (.probeRoundEnd p d d e) (fun t => counted t p 0 ∧ counted t r.c2 1 ∧ (t.healthOf r.c2).cause = 6) ∧
        (f ≠ d → f ≠ e → s.Does (.probeRoundEnd p d e f) (fun t => (t.healthOf p).cause = 7 ∧ (t.healthOf r.c1).cause = 7 ∧ (t.healthOf r.c2).cause = 7)))) ∧
    (∀ p r, (s.tile p).probe = some r → r.start + 2 * r.cycles < s.clk.cycle → (s.setTile p { s.tile p with probe := none }).probeWindow p 0 = true →
      s.Does (.probeRoundTimeout p) (fun t =>
      (t.tile p).probe = none ∧ (t.healthOf p).cause = (if r.op.isSome then 6 else (s.healthOf p).cause) ∧ (t.healthOf p).rounds = sat 32 ((s.healthOf p).rounds + 1) ∧
      (t.healthOf p).roundFails = sat 32 ((s.healthOf p).roundFails + 1))) ∧
    (∀ o, s.probes = [o] → o.tiles.keys.Nodup → o.tick + 10000000 ≤ s.clk.tick → s.opOpen o.op = true → s.Does (.probeTimeout o.op) (fun t =>
      t.probes = [] ∧ t.OpDone o.op 0 0 ∧ ∀ k, k ∈ o.tiles.keys → (t.healthOf k).notReached = sat 16 ((s.healthOf k).notReached + 1))) ∧
    (∀ p, (s.healthOf p).state = 1 →
      let h := s.healthOf p
      (h.nextTest ≤ s.clk.tick →
        let next := { h with nextTest := h.nextTest + h.interval * 1000000 }
        exec (.observationTest p true false) s = .next (s.setHealth p { next with tests := sat 16 (h.tests + 1) }) ∧
        (∀ b, exec (.observationTest p false b) s = .next (s.setHealth p { next with missed := sat 16 (h.missed + 1) })) ∧
        (h.fails < 2 → s.Does (.observationTest p true true) (fun t => t.healthOf p = { next with tests := sat 16 (h.tests + 1), fails := h.fails + 1 } ∧
          s.Posts t 9 (le 2 (physName p) ++ le 1 3))) ∧
        (2 ≤ h.fails → s.Does (.observationTest p true true) (fun t => (t.healthOf p).state = 2 ∧ (t.healthOf p).fails = h.fails + 1 ∧
          t.spare (colOf p) = (s.spare (colOf p)).quarantined (p % 17)))) ∧
      (h.periodEnd ≤ s.clk.tick → h.fails < 3 → s.Does (.observationPeriodEnd p) (fun t =>
        t.healthOf p = { h with state := 0, fails := 0, eventS := s.eventS } ∧ s.Posts t 9 (le 2 (physName p) ++ le 1 4))))

/-! ## Heartbeats, kills and resets -/

/-- Heartbeats and restarts of control processors: a heartbeat counts; a check counts the misses of a CP that has not moved and restarts it at the fourth; with two stalls
before it within the ten seconds the device is reset; the first heartbeat of the restarted CP ends the restart and its mailboxes go on; one that takes too long, and a watchdog that is not answered, reset the device;
a DEVICE_RESET that is due resets it. A management command that has waited its limit becomes an operation.
(The model's own readings and choices in it: log 61.) -/
def Obligations.HeartbeatsAndDeviceResets : Prop :=
  ∀ s : State,
    (∀ cp, cp < 4 → s.pwr.cpClock = true → 2 ≤ s.start.stage → s.ladder.cpRestart.look cp = none →
      exec (.heartbeat cp) s = .next (s.setPwr (fun p => { p with beats := p.beats.put cp ((p.beats.val cp 0 + 1) % 65536) }))) ∧
    (s.pwr.checkTick + 16000 ≤ s.clk.tick → s.pwr.cpClock = true → 2 ≤ s.start.stage → s.ladder.cpRestart = [] →
      let moved (c : Nat) : Prop := s.pwr.beats.val c 0 ≠ s.pwr.beatSeen.val c 0
      (∀ c, c < 4 → s.Does .heartbeatCheck (fun t => (moved c → t.pwr.missed.val c 0 = 0) ∧ (¬ moved c → t.pwr.missed.val c 0 = min 4 (s.pwr.missed.val c 0 + 1)) ∧
        t.pwr.beatSeen.val c 0 = s.pwr.beats.val c 0)) ∧
      (∀ c, c < 4 → (∀ d, d < 4 → d ≠ c → moved d) → ¬ moved c → s.pwr.missed.val c 0 = 3 → s.ladder.flush = none → s.pins.perst = false →
        (s.pwr.stallTicks = [] → s.Does .heartbeatCheck (fun t => t.ladder.cpRestart = [(c, s.clk.tick)] ∧ t.pwr.stallTicks = [s.clk.tick] ∧
          t.pwr.cpRestarts = sat 16 (s.pwr.cpRestarts + 1))) ∧
        (∀ a b, s.pwr.stallTicks = [a, b] → s.clk.tick < a + 10000000 → s.clk.tick < b + 10000000 →
          s.Does .heartbeatCheck (s.WarmReset 2 0x0A c)))) ∧
    (∀ cp u, s.ladder.cpRestart = [(cp, u)] →
      s.Does (.cpRestartEnd cp) (fun t => t.ladder.cpRestart = [] ∧ t.ladder.cpOp = none ∧ t.pwr.missed.val cp 0 = 0 ∧
        ∀ k, k < 4 → (s.box (.pf k)).state = 1 → (s.box (.pf k)).taken = none → (t.box (.pf k)).state = 2 ∧ (t.box (.pf k)).rsp = fit 512 (s.box (.pf k)).rsp) ∧
      (u + 200000 ≤ s.clk.tick → s.mayReset = true → s.Does (.cpRestartTimeout cp) (s.WarmReset 3 0x0A cp))) ∧
    (s.mayReset = true → s.Does .spWatchdog (s.Hung 0x0F 0)) ∧
    (∀ u i j, s.ladder.resetDue = some u → u ≤ s.clk.tick → s.mayReset = true → s.Does (.warmDeviceReset 1 i j) (s.WarmReset 1 0 0)) ∧
    (∀ o u r, s.mail.mgmtWait = some (o, u) → (s.box .mgmt).taken = some r → (s.box .mgmt).discard = false → u + 10000 ≤ s.clk.tick →
      let n := (openOp .mgmt o [] s).1
      s.Does (.mgmtQueueTimeout o) (fun t => t.mail.mgmtWait = none ∧ t.mail.late = s.mail.late ++ [(n, r)] ∧ (t.box .mgmt).state = 0 ∧ (t.box .mgmt).taken = none ∧
        t.opOpen n = true ∧ t.out.up = s.out.up ++ [.response .mgmt (respBytes r rcStarted 0 n [])]))

/-- Kills, partition resets, drains, captures, installs and turnovers come to their ends: a kill that is complete takes the job away with its JOB_ENDED notice, one that takes too long resets the partition; a partition reset leaves its tiles
at their reset values and no job, and one that takes too long resets the device; a drain's grace ends every job that does not run; a withdrawn service's grace ends what it still holds; a capture writes the dump; a complete load that verifies is
installed, one that does not is refused and gone; a turnover leaves no partition, packet, store, dump or session and moves the epoch.
(The model's own readings and choices in it: log 8, 56, 60, 72.) -/
def Obligations.KillsResetsInstallsAndTurnovers : Prop :=
  ∀ s : State,
    (∀ job b q, s.jobs.look job = some b → s.parts.look b.part = some q → b.state = 4 → q.resetting = false →
      (s.killDone job = true → q.destroying = false → q.unloading = none → s.Does (.jobKillComplete job) (fun t =>
        t.jobs.look job = none ∧ (∀ j, j ≠ job → t.jobs.look j = s.jobs.look j) ∧
        (∀ k, q.cols.contains (colOf k) = true → (t.tile k).job ≠ some job ∧ (t.tile k).ctx.look b.entry = none) ∧
        (∀ o, b.killOp = some o → s.opOpen o = true → t.OpDone o 0 0) ∧
        s.Posts t 7 (le 1 job ++ le 1 b.killDetail ++ le 2 b.killStatus))) ∧
      (b.killAt + 50000 ≤ s.clk.tick → s.colsMove q = false → q.resetDue = none → s.Does (.killEscalation job) (fun t =>
        (∃ q', t.parts.look b.part = some q' ∧ q'.resetting = true ∧ q'.resetAt = s.clk.tick ∧ q'.remap = true) ∧
        t.pwr.killEscalations = sat 16 (s.pwr.killEscalations + 1) ∧ t.pwr.partResets = sat 16 (s.pwr.partResets + 1)))) ∧
    (∀ part q, s.parts.look part = some q → q.resetting = true →
      (q.destroying = false → q.unloading = none → q.remap = false → q.staged = none → s.Does (.partitionResetEnd part) (fun t =>
        (∃ q', t.parts.look part = some q' ∧ q'.resetting = false ∧ q'.season = none ∧ q'.tables = [] ∧ q'.cols = q.cols) ∧
        (∀ j b, s.jobs.look j = some b → b.part = part → t.jobs.look j = none) ∧
        (∀ k x, s.tiles.look k = some x → q.cols.contains (colOf k) = true → t.tiles.look k = some (x.reset (decide (s.pwr.cols.val (colOf k) 0 = 2)))) ∧
        ∀ k x, s.tiles.look k = some x → q.cols.contains (colOf k) = false → t.tiles.look k = some x)) ∧
      (q.resetDone = false → s.ladder.cpRestart = [] → q.resetAt + 50000 ≤ s.clk.tick → s.mayReset = true →
        s.Does (.partitionResetTimeout part) (s.WarmReset 5 0 part))) ∧
    (∀ part q u o, s.parts.look part = some q → q.drain = some (u, o) → u ≤ s.clk.tick → q.runJob = none → q.switch = none →
      s.Does (.drainGraceExpiry part) (fun t => (∃ q', t.parts.look part = some q' ∧ q'.drain = none ∧ q'.draining = false) ∧
        ∀ j b, s.jobs.look j = some b → b.part = part → t.jobs.look j = none)) ∧
    (∀ svc p e u op, s.parts.findSome? (fun e => (e.2.svcs.find? (fun x => decide (x.2.sid = svc) && x.2.withdrawn && x.2.grace.isSome)).map
        (fun x => (e.1, x.1, x.2.grace))) = some (p, e, some (u, op)) → u ≤ s.clk.tick → s.opOpen op = true → s.seqs = [] → s.solvers = [] →
      s.Does (.serviceWithdrawGrace svc) (fun t => t.OpDone op 0 0 ∧
        ∀ pid x, s.pkts.look pid = some x → x.sid = svc → x.taken = false → x.final = false → x.opcode = opStep → x.chainOf = none → s.live x = true → x.cplMode ≠ 2 →
          (∀ y, y ∈ s.pkts → y.1 ≠ pid → pid ∉ y.2.chainPkts) → t.Ended pid stCancelled 4)) ∧
    (∀ c, s.ladder.capture = some c → s.Does .dumpCaptureEnd (fun t => t.ladder.capture = none ∧
      (∃ d, t.ladder.dump = some d ∧ d.trigger = c.trigger ∧ d.mask = c.mask ∧ d.tick = s.clk.tick ∧ d.bytes = dumpBytes c.mask ∧ d.errSeq = s.ladder.logSeq) ∧
      ∀ o, c.op = some o → s.opOpen o = true → t.OpDone o 0 0)) ∧
    (∀ load l q (f : InstallFacts), s.loads.look load = some l → s.parts.look l.part = some q → l.complete = true → l.dark = false → s.opOpen l.op = true →
      let x := seasonOf l.img f.ext f.plain
      (∀ d, s.seasonRefusal q l.img x (svcsOf l.img) f.sigOk = some d →
        s.Does (.seasonInstall load f) (fun t => t.loads.look load = none ∧ t.OpDone l.op rcRefused d)) ∧
      (s.seasonRefusal q l.img x (svcsOf l.img) f.sigOk = none → l.key = true →
        (f.tagsOk = false → s.Does (.seasonInstall load f) (fun t => t.loads.look load = none ∧ t.OpDone l.op rcSignature 0)) ∧
        (f.tagsOk = true → packOk l.img l.bytes = true → l.setDigest = x.packDigest → l.verifyOnly = false → s.Does (.seasonInstall load f) (fun t =>
          t.loads.look load = none ∧ t.OpDone l.op 0 0 ∧
          ∃ q', t.parts.look l.part = some q' ∧ q'.season = some x ∧ q'.svcs = svcsOf l.img ∧ q'.loading = none ∧ q'.contentKey = true ∧
            q'.staged = if q.roomFor l then some l.img else none)))) ∧
    (∀ op, s.sec.turnover = some op → s.jobs = [] → (∀ e, e ∈ s.parts → e.2.resetting = false) → s.ladder.cpRestart = [] →
      s.Does (.turnoverComplete true []) (fun t => t.sec.turnover = none ∧ t.sec.epoch = nextEpoch s.sec.epoch ∧ t.parts = [] ∧ t.pkts = [] ∧ t.seqs = [] ∧ t.loads = [] ∧
        t.outbox = [] ∧ t.mem.stack = [] ∧ t.ladder.dump = none ∧ t.dbg.ring = [] ∧ t.sec.sessions = [] ∧ t.sec.unlocked = false ∧
        ∀ k, (t.tile k).store = [] ∧ (t.fn k).tdi = 0))

/-! ## The commands of the command set -/

/-- The device, VF and queue commands, each once its request is served and its fields, objects and resources are in order: what each answers and what it does. An absent VF is
answered NO_OBJECT with DETAIL 0x01, an absent queue pair with 0x02.
(The model's own readings and choices in it: log 12, 20, 45, 51, 70.) -/
def Obligations.DeviceVfAndQueueCommands : Prop :=
  ∀ (s : State) (m : Mbox) (r : Bytes),
    (s.Serves m 0x0101 r → s.Runs .identify m r (match m with
        | .vf v => pack [(4, 0x00020201), (2, v), (2, (s.fn v).gen.toNat)]
        | _ => pack [(8, s.likeness), (8, s.ident.serial.toNat), (4, s.ident.fwVersion.toNat), (4, s.ident.romVersion.toNat)]) s.Apart) ∧
    (s.Serves m 0x0102 r → s.Runs .status m r
      (pack [(1, if s.start.stage = 7 then 2 else b2n s.pwr.ready), (1, s.pwr.state), (1, s.parts.length), (1, s.jobs.length), (4, s.clk.months)]) s.Apart) ∧
    (s.Serves m 0x0103 r → (flagBad r 0x10 1).2 = false → s.ladder.resetDue = none → s.Runs .deviceReset m r [] (State.Apart
      (s.setRec (fun x => { x with resetDue := some (s.clk.tick + 1000), flushDump := !flagOf r 0x10 0 })))) ∧
    (s.Serves m 0x0104 r → s.pwr.state = 2 → 1 ≤ drainMs r → drainMs r ≤ 60000 → (expert r = true → fld r 0x11 3 = 0) →
      (fld r 0x10 1 = 2 → s.Runs .powerStateSummer m r [] s.Apart) ∧
      (fld r 0x10 1 = 0 → (∀ e, e ∈ s.parts → e.2.stop.state = 0) → s.Starts .powerStateWinter m r [] (fun n t =>
        t.pwr.state = 3 ∧ t.pwr.ready = false ∧ t.pwr.winterOp = some (n, m) ∧ t.loads = [] ∧
        ∀ p q, s.parts.look p = some q → q.drain = none → ∃ q', t.parts.look p = some q' ∧ q'.draining = true))) ∧
    (s.Serves m 0x0105 r →
      (s.opRec (fld r 0x10 2) = none → s.Runs .operationStatus m r (pack [(2, 0), (2, 0), (2, 0)]) s.Apart) ∧
      (∀ o, s.opRec (fld r 0x10 2) = some o →
        (o.done = false → s.Runs .operationStatus m r (pack [(2, 1), (2, 0), (2, 0)]) s.Apart) ∧
        (o.done = true → s.Runs .operationStatus m r (pack [(2, 2), (2, o.rc), (2, o.detail)]) s.Apart))) ∧
    (s.Serves m 0x0106 r → fld r 0x10 4 % 2 = 0 → fld r 0x10 4 ≤ 8191 → s.Runs .noticeMask m r (le 4 (s.box m).mask.toNat) (fun t =>
      s.Apart t ∧ (t.box m).mask = BitVec.ofNat 32 (fld r 0x10 4))) ∧
    (s.Serves m 0x0107 r → s.Runs .timeRead m r (pack [(8, s.clk.months), (8, s.clk.tick - s.clk.readyTick)]) s.Apart) ∧
    (s.Serves m 0x0201 r → funcBad (fld r 0x10 2) = false →
      let f := funcOf m (fld r 0x10 2)
      (s.noFn f = false → s.Runs .sliceRead m r (s.quotaRecord f ++ le 1 (s.fn f).state) s.Apart) ∧
      (s.noFn f = true → s.Refuses .sliceRead m r rcNoObject 1)) ∧
    (s.Serves m 0x0202 r → fld r 0x10 2 < 512 → (expert r = false → fld r 0x12 2 = 1) → (expert r = true → fld r 0x12 2 = 0) →
      let v := fld r 0x10 2
      let q := if expert r then expertQuotas r (s.fn v).coming else s.basicQuotas [v]
      (expert r = true → ∀ b, b ∈ quotaBounds → fld r b.1 4 = 0xFFFFFFFF ∨ (b.2.1 ≤ fld r b.1 4 ∧ fld r b.1 4 ≤ b.2.2)) →
      ((s.fn v).state = 0 → s.Refuses .vfQuota m r rcNoObject 1) ∧
      ((s.fn v).state ≠ 0 → q.qp ≤ s.unnamed 4080 [v] Quotas.qp → q.vec ≤ s.unnamed 8128 [v] Quotas.vec →
        ((s.fn v).state ≠ 3 → s.vecUse v ≤ q.vec → s.Runs .vfQuota m r (le 4 0) (fun t => s.Apart t ∧ (t.fn v).quotas = q ∧
          (t.fn v).state = if (s.fn v).state = 1 ∧ q.qp ≠ 0 then 2 else (s.fn v).state)) ∧
        ((s.fn v).state = 3 → s.Runs .vfQuota m r (le 4 0) (fun t => (t.fn v).deferred = some q ∧ (t.fn v).quotas = (s.fn v).quotas)))) ∧
    (s.Serves m 0x0203 r → fld r 0x10 2 < 512 → (flagBad r 0x12 1).2 = false →
      let v := fld r 0x10 2
      ((s.fn v).state = 0 → s.Refuses .vfReset m r rcNoObject 1) ∧
      ((s.fn v).state ≠ 0 → s.Starts .vfReset m r [] (fun n t => (t.fn v).state = 3 ∧ (t.fn v).gen = (s.fn v).gen + 1 ∧ (t.fn v).resetOp = some n))) ∧
    (s.Serves m 0x0501 r →
      let f := issuer m
      let kind := if expert r then fld r 0x12 2 else 0
      let l := (s.svcList f).filter (fun e => decide (kind = 0 ∨ e.1.kind = kind))
      let out := (l.drop (fld r 0x10 2)).take 7
      kind ≤ 3 ∨ 0x8000 ≤ kind → s.Runs .serviceList m r (fit 8 (pack [(2, l.length), (2, (s.fn f).capEpoch.toNat), (1, out.length)]) ++
        out.flatMap (fun e => e.1.record e.2 (s.quotasOf f).skel)) s.Apart) ∧
    (s.Serves m 0x0502 r →
      let f := funcOf m (fld r 0x10 2)
      let k := qpKey f (fld r 0x12 1)
      let opt := fld r 0x14 1
      let vec := fld r 0x15 1
      let x := expert r
      let ms := if x then fld r 0x30 4 else 1000
      funcBad (fld r 0x10 2) = false → s.noFn f = false → s.unsized m = false → fld r 0x12 1 ≤ 15 → fld r 0x13 1 ≤ 1 → opt ≤ 3 →
      1 ≤ vec → vec ≤ 31 → vec < (if f = 512 then 32 else (s.fn f).quotas.vec) → 6 ≤ fld r 0x16 1 → fld r 0x16 1 ≤ 16 → 6 ≤ fld r 0x17 1 → fld r 0x17 1 ≤ 16 →
      fld r 0x18 8 % 4096 = 0 → fld r 0x20 8 % 4096 = 0 → fld r 0x28 4 ≤ 0xFFFFF → (bit opt 0 = false → fld r 0x28 4 = 0) →
      (x = true → fld r 0x2C 1 ≤ 15 ∧ fld r 0x2E 2 = 0) → 1 ≤ ms → ms ≤ 60000 →
      (s.fn f).state ≠ 3 → s.qps.look k = none →
      (s.qpsOf f).length < (if f = 512 then 16 else (s.fn f).quotas.qp) → (s.qps.filter (fun e => !e.2.vacant)).length < 4096 →
      (bit opt 1 = true → ((s.qpsOf f).filter (fun e => e.2.bulk)).length < 4) →
      s.Runs .queueCreate m r [] (fun t => ∃ q, t.qps.look k = some q ∧ q.state = 1 ∧ q.vector = vec ∧ q.sqBase = fld r 0x18 8 ∧ q.cqBase = fld r 0x20 8 ∧
        q.sqLog = fld r 0x16 1 ∧ q.cqLog = fld r 0x17 1 ∧ q.bulk = bit opt 1 ∧ q.lc = (fld r 0x13 1 == 1 && !bit opt 1) ∧
        q.pasid = (if bit opt 0 then some (fld r 0x28 4) else none) ∧ q.timeoutMs = ms ∧ q.vacant = false ∧ ∀ j, j ≠ k → t.qps.look j = s.qps.look j)) ∧
    (let f := funcOf m (fld r 0x10 2)
     let k := qpKey f (fld r 0x12 1)
     funcBad (fld r 0x10 2) = false → s.noFn f = false → s.unsized m = false → fld r 0x12 1 ≤ 15 →
      (∀ q, s.qps.look k = some q →
        (s.Serves m 0x0503 r → fld r 0x13 1 = 0 → 1 ≤ fld r 0x14 4 → fld r 0x14 4 ≤ 60000 → s.Runs .queueModify m r [] (fun t =>
          t.qps.look k = some { q with timeoutMs := fld r 0x14 4, deferLimit := if expert r then fld r 0x18 1 else q.deferLimit })) ∧
        (s.Serves m 0x0504 r → (flagBad r 0x13 1).2 = false → s.Runs .queueReset m r [] (fun t => ∃ q', t.qps.look k = some q' ∧ q'.state = 3 ∧
          q'.epoch = q.epoch + 1 ∧ q'.acct = {} ∧ q'.parked = none ∧ q'.leaveDisabled = flagOf r 0x13 0)) ∧
        (s.Serves m 0x0505 r → s.Runs .queueDelete m r [] (fun t => ∃ q', t.qps.look k = some q' ∧ q'.state = 3 ∧ q'.epoch = q.epoch + 1 ∧ q'.deleting = true))) ∧
      (s.qps.look k = none → s.Serves m 0x0505 r → s.Refuses .queueDelete m r rcNoObject 2)) ∧
    (s.Serves m 0x0506 r →
      let f := funcOf m (fld r 0x10 2)
      let i := fld r 0x12 1
      let n := if expert r then fld r 0x13 1 else 1
      let entry (j : Nat) : Bytes := fit 16 (r.drop (0x18 + 16 * j))
      funcBad (fld r 0x10 2) = false → s.noFn f = false → i ≤ 63 → (expert r = false → fld r 0x13 1 = 0) → 1 ≤ n → n ≤ 16 → i + n ≤ 64 → fld r 0x14 4 = 0 →
      (∀ j, j < n → targetBad (entry j) = none) → (s.fn f).tdi = 0 →
      s.Runs .signalTarget m r [] (fun t => s.Apart t ∧ ∀ j, j < n → (t.fn f).targets.val (i + j) {} = { (s.fn f).targets.val (i + j) {} with
        kind := fld (entry j) 0 1, half := fld (entry j) 1 1, sem := fld (entry j) 2 2, device := fld (entry j) 4 2, addr := fld (entry j) 8 8 })) ∧
    (s.Serves m 0x0507 r → 10 ≤ fld r 0x10 4 → fld r 0x10 4 ≤ 60000 → (flagBad r 0x14 1).2 = false →
      (flagOf r 0x14 0 = true → s.Runs .stepLimit m r (le 4 s.minLimit) s.Apart) ∧
      (flagOf r 0x14 0 = false → s.minLimit ≤ fld r 0x10 4 → s.Runs .stepLimit m r (le 4 s.minLimit) (State.Apart { s with stepLimit := fld r 0x10 4 })) ∧
      (flagOf r 0x14 0 = false → fld r 0x10 4 < s.minLimit → s.Refuses .stepLimit m r rcState 0)) ∧
    (s.Serves m 0x0508 r →
      let off := if expert r then 0x12 else 0x10
      fld r off 1 ≤ 128 → s.Runs .fetchReserve m r [] (fun t => ∀ q, q < 16 →
        (t.qfes.val q {}).reserve = if expert r = false ∨ bit (fld r 0x10 2) q = true then fld r off 1 else (s.qfes.val q {}).reserve))

/-- The partition, Season, job and service commands, each once its request is served and its fields, objects and resources are in order. An absent partition is answered NO_OBJECT with DETAIL
0x03, an absent job with 0x04, an absent service with 0x05.
(The model's own readings and choices in it: log 12, 20, 51, 57, 60, 77.) -/
def Obligations.PartitionSeasonJobAndServiceCommands : Prop :=
  ∀ (s : State) (m : Mbox) (r : Bytes),
    let p := fld r 0x10 1
    (s.Serves m 0x0301 r → (∀ e, e ∈ createBad r → e.2 = false) → s.pwr.state ≠ 3 → s.parts.length < 8 →
      let a := s.partAsk r
      ∀ cols chans base k, a.cols = some cols → a.chans = some chans → s.sliceAt a.half a.entries = some base →
        firstFree 8 (fun p => (s.parts.look p).isNone) = some k →
        (expert r = true → ∀ c, c ∈ chans → s.stackList.contains (c / 16) = true) → (chans ≠ [] ∨ (expert r = false ∧ fld r 0x12 1 = 0) ∨ (expert r = true ∧ fld r 0x20 8 = 0 ∧ fld r 0x28 8 = 0)) →
        cols.all s.colFree = true → chans.all s.chanFree = true → (∀ c, c ∈ cols → (s.spare c).due = false) →
        (a.spanning = true → (s.lanesFor a.hlShare).isSome = true ∧ s.parts.foldl (fun n e => n + if e.2.spanning then e.2.hlShare else 0) a.hlShare ≤ 240) →
        s.Runs .partCreate m r (le 1 k) (fun t => ∃ q, t.parts.look k = some q ∧ q.cols = cols ∧ q.chans = chans ∧ q.seqBase = base ∧ q.seqLen = a.entries ∧
          q.spanning = a.spanning ∧ q.season = none ∧ q.lanes = (if a.spanning then (s.lanesFor a.hlShare).getD [] else []) ∧ ∀ j, j ≠ k → t.parts.look j = s.parts.look j)) ∧
    (∀ q, s.parts.look p = some q → p ≤ 7 →
      (s.Serves m 0x0302 r → (flagBad r 0x11 1).2 = false → q.resetting = false →
        (s.jobsOf p = [] → s.Starts .partDestroy m r [] (fun n t => t.parts.look p = none ∧ t.OpDone n 0 0)) ∧
        (s.jobsOf p ≠ [] → flagOf r 0x11 0 = false → s.Refuses .partDestroy m r rcState 0) ∧
        (s.jobsOf p ≠ [] → flagOf r 0x11 0 = true → s.Starts .partDestroy m r [] (fun n t =>
          (∃ q', t.parts.look p = some q' ∧ q'.destroying = true ∧ q'.resetOp = some n) ∧
          ∀ j b, s.jobs.look j = some b → b.part = p → b.state ≠ 4 → t.Killed j stJobLost 1))) ∧
      (s.Serves m 0x0303 r → (flagBad r 0x11 1).2 = false → q.resetting = false → s.colsMove q = false →
        let n := if flagOf r 0x11 0 then 0 else (q.cols.filter (fun c => (s.spare c).due)).length
        s.Starts .partReset m r (le 1 n) (fun n t => ∃ q', t.parts.look p = some q' ∧ q'.resetting = true ∧ q'.resetAt = s.clk.tick ∧ q'.resetOp = some n ∧
          q'.remap = !flagOf r 0x11 0 ∧ q'.runJob = none)) ∧
      (s.Serves m 0x0304 r →
        let ms := if expert r then fld r 0x14 4 else s.stepLimit
        (expert r = true → fld r 0x11 3 = 0 ∧ ms ≤ 60000) → q.season.isSome = true → q.loading = none → q.resetting = false → q.destroying = false → q.draining = false → q.drain = none →
        s.Starts .partDrain m r [] (fun n t => ∃ q', t.parts.look p = some q' ∧ q'.draining = true ∧
          q'.drain = some (if ms = 0 then 0 else s.clk.tick + 1000 * ms, n + 1))) ∧
      (s.Serves m 0x0305 r → s.Runs .partStatus m r
        (pack [(1, s.partState p), (1, (s.jobsOf p).length), (2, q.index), (4, q.seqLen), (8, setBits q.cols), (8, q.chanLo), (8, q.chanHi), (8, q.seasonId)]) s.Apart) ∧
      (s.Serves m 0x0306 r →
        let set (t : State) (k rate burst : Nat) : Prop := ∃ q', t.parts.look p = some q' ∧ (q'.regs.val k {}).rate = rate ∧ (q'.regs.val k {}).burst = burst ∧
          (q'.regs.val k {}).bucket = min (q.regs.val k {}).bucket (1024 * burst)
        (expert r = true → fld r 0x11 1 ≤ 3 → fld r 0x12 2 = 0 → fld r 0x14 4 ≤ s.refRate (fld r 0x11 1) → 1 ≤ fld r 0x18 4 → fld r 0x18 4 ≤ 65535 →
          s.Runs .partRegulate m r [] (fun t => set t (fld r 0x11 1) (fld r 0x14 4) (fld r 0x18 4))) ∧
        (expert r = false → 1 ≤ fld r 0x11 1 → fld r 0x11 1 ≤ 100 →
          s.Runs .partRegulate m r [] (fun t => ∀ k, k < 4 → set t k (s.refRate k * fld r 0x11 1 / 100) 1024))) ∧
      (s.Serves m 0x0401 r → fld r 0x11 1 = 0 → (flagBad r 0x12 1).2 = false → (expert r = true → fld r 0x13 1 = 0) → (expert r = false → fld r 0x12 6 = 0) →
        s.partState p = 1 → s.pwr.state ≠ 3 →
        let id := if expert r then fld r 0x14 4 else 0
        s.loads.look id = none →
        let k := if id = 0 then s.freeLoadId else id
        s.Starts .seasonLoad m r (le 4 k) (fun n t =>
          t.loads.look k = some { part := p, source := 0, verifyOnly := flagOf r 0x12 0, bytes := fld r 0x18 8, op := n } ∧
          ∃ q', t.parts.look p = some q' ∧ q'.loading = some k)) ∧
      (s.Serves m 0x0402 r → (flagBad r 0x11 1).2 = false →
        (s.partState p = 3 → s.Runs .seasonUnload m r [] (fun t => ∃ q', t.parts.look p = some q' ∧ q'.season = none ∧ q'.svcs = [] ∧ q'.contentKey = false ∧ q'.staged = none)) ∧
        (s.partState p = 4 → flagOf r 0x11 0 = false → s.Refuses .seasonUnload m r rcState 0) ∧
        (s.partState p = 4 → flagOf r 0x11 0 = true → s.Does (.seasonUnload m) (fun t => (t.box m).taken = some r ∧
          (∃ q', t.parts.look p = some q' ∧ q'.unloading = some m) ∧ ∀ j b, s.jobs.look j = some b → b.part = p → b.state ≠ 4 → t.Killed j stJobLost 1))) ∧
      (s.Serves m 0x0403 r → (expert r = true → fld r 0x11 1 ≤ 7 ∧ 1 ≤ fld r 0x12 1) → s.noStart p = false →
        ∀ e j, s.freeJobEntry p = some e → firstFree 64 (fun j => (s.jobs.look j).isNone) = some j →
        s.Runs .jobStart m r (le 1 j) (fun t => ∃ b, t.jobs.look j = some b ∧ b.part = p ∧ b.entry = e ∧ b.prio = (if expert r then fld r 0x11 1 else 4) ∧
          b.silentMonths = (if expert r then fld r 0x12 1 else 3) ∧ b.state = (if (q.svcs.val e {}).kind = 3 then 2 else 1) ∧ b.occupied = [] ∧ b.step = 0 ∧
          ∀ k, k ≠ j → t.jobs.look k = s.jobs.look k))) ∧
    (s.parts.look p = none → p ≤ 7 →
      (s.Serves m 0x0302 r → (flagBad r 0x11 1).2 = false → s.Refuses .partDestroy m r rcNoObject 3) ∧
      (s.Serves m 0x0303 r → (flagBad r 0x11 1).2 = false → s.Refuses .partReset m r rcNoObject 3) ∧
      (s.Serves m 0x0305 r → s.Refuses .partStatus m r rcNoObject 3)) ∧
    (∀ b, s.jobs.look p = some b → p ≤ 63 →
      (s.Serves m 0x0404 r → (flagBad r 0x11 1).2 = false → b.state ≠ 4 → s.Starts .jobKill m r [] (fun n t => t.Killed p stJobLost 1 ∧
        ∃ b', t.jobs.look p = some b' ∧ b'.killOp = some n)) ∧
      (s.Serves m 0x0405 r → fld r 0x11 1 ≤ 7 → (expert r = true → 1 ≤ fld r 0x12 1) →
        (b.state ≠ 4 → s.Runs .jobModify m r [] (State.Apart (s.modJob p (fun b => { b with
          prio := fld r 0x11 1, silentMonths := if expert r then fld r 0x12 1 else b.silentMonths })))) ∧
        (b.state = 4 → s.Refuses .jobModify m r rcState 0)) ∧
      (s.Serves m 0x0406 r → s.Runs .jobStatus m r
        (pack [(1, b.state), (1, b.part), (1, b.prio), (1, b.silentMonths), (4, b.overruns), (8, b.steps), (8, b.preempts)]) s.Apart)) ∧
    (s.jobs.look p = none → p ≤ 63 → s.Serves m 0x0406 r → s.Refuses .jobStatus m r rcNoObject 4) ∧
    (s.Serves m 0x0407 r →
      let x := expert r
      let sid := fld r (if x then 0x10 else 0x14) 4
      let on := fld r (if x then 0x14 else 0x18) 1
      sid ≠ 0 → on ≤ 1 → (x = false → fld r 0x10 2 < 512 ∧ fld r 0x12 2 = 0) → (x = true → fld r 0x15 3 = 0) →
      (∀ v, v ∈ namedVfs r → (s.fn v).state ≠ 0 ∧ (s.fn v).tdi = 0) →
      ((s.svcOf sid).isSome = true → s.Runs .serviceVisibility m r [] (fun t => ∀ v, v ∈ namedVfs r → t.svcGrants.contains (v, sid) = (on == 1) ∧
        (t.fn v).capEpoch = if s.svcGrants.contains (v, sid) = (on == 1) then (s.fn v).capEpoch else (s.fn v).capEpoch + 1)) ∧
      (s.svcOf sid = none → s.Refuses .serviceVisibility m r rcNoObject 5)) ∧
    (s.Serves m 0x0408 r → ∀ k e v, s.svcOf (fld r 0x10 4) = some (k, e, v) →
      let res := fld r 0x14 2
      let lim := if expert r then fld r 0x16 2 else v.positions
      let be := if expert r then fld r 0x18 2 else v.positions - res
      res ≤ lim → res ≤ v.positions → lim ≤ v.positions → be ≤ v.positions - res →
      s.Runs .servicePositions m r (pack [(2, v.lcReserve), (2, v.lcLimit), (2, v.beLimit)])
        (State.Apart (s.modPart k (fun q => { q with svcs := q.svcs.upd e (fun v => { v with lcReserve := res, lcLimit := lim, beLimit := be }) })))) ∧
    (s.Serves m 0x0409 r → ∀ k e q v, s.parts = [(k, q)] → q.svcs = [(e, v)] → v.sid = fld r 0x10 4 → v.withdrawn = false →
      let ms := if expert r then fld r 0x14 4 else 0
      (ms = 0 → s.Starts .serviceWithdraw m r [] (fun n t => t.OpDone n 0 0 ∧ t.svcOf v.sid = none)) ∧
      (ms ≠ 0 → s.Starts .serviceWithdraw m r [] (fun n t => t.opOpen n = true ∧ t.svcOf v.sid = none ∧
        ∃ q', t.parts.look k = some q' ∧ (q'.svcs.val e {}).grace = some (s.clk.tick + 1000 * ms, n))))

/-- The health, recovery, fabric and Almanac commands, each once its request is served and its fields, objects and resources are in order.
(The model's own readings and choices in it: log 12, 40, 52, 53, 54.) -/
def Obligations.HealthRecoveryAndFabricCommands : Prop :=
  ∀ (s : State) (m : Mbox) (r : Bytes),
    (s.Serves m 0x0601 r →
      let out := ((List.range 816).drop (fld r 0x10 2)).take 15
      s.Runs .healthRead m r (fit 8 (pack [(2, 816), (1, out.length)]) ++ out.flatMap (fun p => s.healthRecord p)) s.Apart) ∧
    (∀ q, s.parts.look (fld r 0x10 1) = some q → fld r 0x10 1 ≤ 7 →
      let p := fld r 0x10 1
      (s.Serves m 0x0602 r → ∀ x, q.season = some x → fld r 0x11 1 ≤ 4 → fld r 0x11 1 ≤ x.fracMax →
        (q.tableValid = true → (∀ e, e ∈ s.jobs → e.2.part = p → e.2.state ≠ 2 ∧ e.2.state ≠ 3) → s.Runs .shadowSet m r (le 1 q.fraction) (fun t =>
          ∃ q', t.parts.look p = some q' ∧ q'.fraction = fld r 0x11 1)) ∧
        (q.tableValid = false → s.Refuses .shadowSet m r rcState 0)) ∧
      (s.Serves m 0x0603 r → fld r 0x11 1 = 0 →
        let name := fld r 0x12 2
        let id := if expert r then fld r 0x14 4 else 0
        let rounds := if expert r then fld r 0x1C 2 else 16
        let seed := if expert r then fld r 0x18 4 else s.clk.tick % 2 ^ 32
        let go := (s.probeTiles q name).filter (fun t => !decide ((s.healthOf t).state = 2))
        name = 0xFFFF ∨ (s.physOfName name).isSome = true → s.probeTiles q name ≠ [] → 1 ≤ rounds → rounds ≤ 1024 →
        ∀ n fl, s.package id = some (n, fl) → bit fl 0 = false ∨ s.partState p = 1 →
          (go ≠ [] → s.Starts .probe m r [] (fun n t => State.Apart { s with
            probes := s.probes ++ [{ op := n, part := p, tiles := go.map (fun t => (t, rounds)), pkg := id, seed := seed, tick := s.clk.tick }] } t)) ∧
          (go = [] → s.Starts .probe m r [] (fun n t => t.OpDone n 0 0 ∧ t.probes = s.probes)))) ∧
    (s.Serves m 0x0604 r → ∀ p, s.physOfName (fld r 0x10 2) = some p → (expert r = true → fld r 0x13 1 = 0) →
      let interval := if expert r then fld r 0x14 2 else 10
      let hours := if expert r then fld r 0x16 2 else 24
      1 ≤ interval → interval ≤ 3600 → 1 ≤ hours → hours ≤ 168 →
      (fld r 0x12 1 = 1 → (s.healthOf p).state ≤ 1 → s.Runs .observeAdd m r [] (fun t => (t.healthOf p).state = 1 ∧ (t.healthOf p).interval = interval ∧
        (t.healthOf p).periodEnd = s.clk.tick + hours * hourTicks ∧ ((s.healthOf p).state = 0 → (t.healthOf p).cause = 8 ∧ (t.healthOf p).fails = 0))) ∧
      (fld r 0x12 1 = 0 → (s.healthOf p).state = 1 → s.Runs .observeRemove m r [] (fun t => (t.healthOf p).state = 0 ∧ (t.healthOf p).fails = 0)) ∧
      (fld r 0x12 1 = 1 → 2 ≤ (s.healthOf p).state → s.Refuses .observeAdd m r rcState 0)) ∧
    (s.Serves m 0x0605 r → 64 ≤ fld r 0x10 4 → fld r 0x10 4 ≤ 524288 → (expert r = true → fld r 0x14 1 ≤ 7) →
      (s.uploading 0x0605 = false → s.Starts .patternInstall m r [] (fun n t => State.Apart (s.setSec (fun c => { c with
        uploads := c.uploads ++ [{ op := n, kind := 0x0605, bytes := fld r 0x10 4, arg := if expert r then 1 + fld r 0x14 1 else 0 }] })) t)) ∧
      (s.uploading 0x0605 = true → s.Refuses .patternInstall m r rcBusy 1)) ∧
    (s.Serves m 0x0606 r → s.Runs .patternList m r (fit 8 (le 1 8) ++ (List.range 8).flatMap (fun k =>
      let p := s.sec.packages.val k {}
      let st := if s.sec.uploads.any (fun u => decide (u.kind = 0x0605 ∧ u.arg = k + 1)) then 2 else p.state
      fit 32 (le 1 k ++ le 1 st ++ le 2 p.flags ++ le 4 p.id ++ le 4 p.version ++ le 4 p.roundCycles ++ le 4 p.bytes))) s.Apart) ∧
    (s.Serves m 0x0701 r →
      let mask := if expert r then fld r 0x10 4 else 0xFFF
      mask ≤ 0xFFF →
      (s.ladder.dump = none → s.ladder.capture = none → s.Starts .dumpCapture m r (le 4 (dumpBytes mask)) (fun n t =>
        State.Apart (s.setRec (fun x => { x with capture := some { mask := mask, trigger := 1, op := some n } })) t)) ∧
      (∀ d, s.ladder.dump = some d → s.Refuses .dumpCapture m r rcState 0)) ∧
    (s.Serves m 0x0702 r → fld r 0x10 4 % 8 = 0 →
      (s.ladder.dump = none → s.Runs .dumpRead m r (zeros 8) s.Apart) ∧
      (∀ d, s.ladder.dump = some d →
        let n := min 480 (d.bytes - fld r 0x10 4)
        s.Runs .dumpRead m r (fit 8 (le 2 n) ++ (List.range n).map (fun i => d.byte d.front (fld r 0x10 4 + i))) s.Apart)) ∧
    (s.Serves m 0x0703 r → s.Runs .dumpClear m r [] (State.Apart (s.setRec (fun x => { x with dump := none })))) ∧
    (s.Serves m 0x0704 r →
      let l := s.logFrom (fld r 0x10 4)
      s.Runs .errlogRead m r (fit 8 (le 2 l.length) ++ l.flatMap LogEntry.bytes) s.Apart) ∧
    (s.Serves m 0x0705 r → fld r 0x10 1 ≤ (if expert r then 3 else 1) → s.Starts .cpRestart m r [] (fun n t => t.ladder.cpOp = some n ∧
      t.ladder.cpRestart = (if expert r then [(fld r 0x10 1, s.clk.tick)] else [(2 * fld r 0x10 1, s.clk.tick), (2 * fld r 0x10 1 + 1, s.clk.tick)]))) ∧
    (s.Serves m 0x0706 r → fld r 0x10 1 ≤ 1 → s.Runs .spareMapRead m r
      ((List.range 24).flatMap (fun x => let y := s.spare (24 * fld r 0x10 1 + x); le 1 (y.row + 32 * y.state))) s.Apart) ∧
    (s.Serves m 0x0901 r →
      let ports := if expert r then [fld r 0x10 1] else s.portList
      (expert r = true → fld r 0x10 1 < 12 ∧ s.ident.variant.hasPort (fld r 0x10 1) = true) → s.Runs .fabStatus m r (ports.flatMap (fun p =>
        let y := s.port p
        le 1 p ++ le 1 y.state ++ le 1 (b2n y.foreign + 2 * b2n (s.alm.upstream == p)) ++ le 1 y.hops ++ le 2 y.peer ++ zeros 2 ++ le 4 y.delay ++ le 4 y.ueSinceUp)) s.Apart) ∧
    (s.Serves m 0x0902 r → fld r 0x10 1 < 12 → fld r 0x11 1 ≤ 1 →
      let k := fld r 0x10 1
      (s.ident.variant.hasPort k = true →
        (fld r 0x11 1 = 0 → s.Starts .fabPort m r [] (fun n t => t.OpDone n 0 0 ∧ (t.port k).state = portOff ∧ (t.port k).disabled = true)) ∧
        (fld r 0x11 1 = 1 → s.start.listening = true → (s.port k).state = portOff → k ∈ s.portList → s.Starts .fabPort m r [] (fun n t =>
          t.OpDone n 0 0 ∧ (t.port k).state = portListen ∧ (t.port k).disabled = false))) ∧
      (s.ident.variant.hasPort k = false → s.Refuses .fabPort m r rcAbsent 0)) ∧
    (s.Serves m 0x0903 r → (expert r = true → fld r 0x14 2 ≤ 4095) → (flagBad r 0x16 1).2 = false → s.pwr.state ≠ 3 →
      (s.alm.state = almNone → (∃ p, p ∈ s.portList ∧ (s.port p).isUp = true) →
        (flagOf r 0x16 0 = false → s.Starts .almanacJoin m r (le 2 (if expert r then fld r 0x14 2 else s.free % 4096)) (fun n t =>
          t.alm.state = almJoining ∧ t.alm.domain = fld r 0x10 4 ∧ t.opOpen n = true)) ∧
        (flagOf r 0x16 0 = true → (∀ p, p ∈ s.portList → (s.port p).isUp = true → (s.port p).peerDomain ≠ some (fld r 0x10 4)) →
          s.Starts .almanacJoin m r (le 2 (fld r 0x14 2)) (fun n t =>
            t.alm.state = almInStep ∧ t.alm.root = true ∧ t.alm.device = fld r 0x14 2 ∧ t.alm.domain = fld r 0x10 4 ∧ t.OpDone n 0 0))) ∧
      (s.alm.state ≠ almNone → s.Refuses .almanacJoin m r rcState 0)) ∧
    (s.Serves m 0x0904 r → (flagBad r 0x10 1).2 = false → s.alm.belongs = true → s.alm.state ≠ almLeaving →
      (s.jobs = [] → flagOf r 0x10 0 = false → s.Starts .almanacLeave m r [] (fun n t => t.OpDone n 0 0 ∧ t.alm.state = almLeaving)) ∧
      (flagOf r 0x10 0 = true → s.Starts .almanacLeave m r [] (fun n t => t.OpDone n 0 0 ∧ t.alm.state = almNone ∧
        ∀ j b q x, s.jobs.look j = some b → s.parts.look b.part = some q → q.season = some x → x.ownsSlots = true → b.state ≠ 4 → t.Killed j stJobLost 1))) ∧
    (s.Serves m 0x0905 r →
      let h := fld r 0x10 1
      let k := 2048 * h + fld r 0x12 2
      let dev := fld r 0x14 2
      let perms := fld r 0x16 1
      let n := if expert r then fld r 0x18 2 else 1
      h ≤ 1 → fld r 0x11 1 = 0 → fld r 0x12 2 ≤ 2047 → dev ≤ 4095 ∨ dev = 0xFFFF → perms ≤ 3 → (expert r = true → fld r 0x17 1 = 0) → 1 ≤ n → fld r 0x12 2 + n ≤ 2048 →
      s.Runs .semaphoreGrant m r [] (fun t => ∀ i,
        (i < n → perms ≠ 0 → t.alm.grants.val (k + i) {} =
          { device := if dev = 0xFFFF then 0 else dev, any := decide (dev = 0xFFFF), signal := bit perms 0, read := bit perms 1 }) ∧
        (i < n → perms = 0 → t.alm.grants.val (k + i) {} = {}) ∧
        (i < k ∨ k + n ≤ i → t.alm.grants.val i {} = s.alm.grants.val i {})))

/-- The security and debug commands, each once its request is served and its fields, objects and resources are in order, and the events of a debug stop: a tile that was asked to halt halts, a locked
sequence that holds it up is reported, a tile that does not halt loses its job, and a breakpoint begins the stop.
(The model's own readings and choices in it: log 8, 12, 47, 54, 55, 56, 95.) -/
def Obligations.SecurityAndDebugCommands : Prop :=
  ∀ (s : State) (m : Mbox) (r : Bytes),
    (s.Serves m 0x0801 r → s.Runs .secStatus m r (pack [(4, s.sec.epoch), (1, b2n (s.mail.lockout != 0)), (1, b2n s.sec.unlocked), (1, s.sec.sessions.length)]) s.Apart) ∧
    (s.Serves m 0x0802 r →
      (expert r = false ∨ fld r 0x10 4 = s.sec.epoch → s.Starts .tenantTurnover m r [] (fun n t => t.sec.turnover = some n ∧
        ∀ j b, s.jobs.look j = some b → b.state ≠ 4 → t.Killed j stJobLost 1)) ∧
      (expert r = true → fld r 0x10 4 ≠ s.sec.epoch → s.Refuses .tenantTurnover m r rcState 0)) ∧
    (s.Serves m 0x0803 r → ∀ l, s.loads.look (fld r 0x10 4) = some l → l.dark = false → l.key = false → fld r 0x14 2 = 244 →
      let blob := fit 244 (r.drop 0x16)
      let digest := (blob.drop 8).take 48
      fld blob 0 2 = 1 → fld blob 0xC9 3 = 0 →
      (fld blob 4 4 = s.sec.epoch → l.headSeen = false ∨ Mem.read l.img (packStart l.img + 0x20) 48 = digest →
        s.Runs (fun m => .weightKeyImport m true) m r [] (fun t =>
          t.loads.look (fld r 0x10 4) = some { l with key := true, setDigest := digest } ∧ { t with loads := [] }.Apart { s with loads := [] } ∧
          ∀ j, j ≠ fld r 0x10 4 → t.loads.look j = s.loads.look j)) ∧
      s.Refuses (fun m => .weightKeyImport m false) m r rcUnbound 0) ∧
    (s.Serves m 0x0804 r →
      let mask := if expert r then fld r 0x12 2 else 0x7FE
      (expert r = true → fld r 0x11 1 = 0) → mask % 2 = 0 → mask ≤ 0x7FE →
      (fld r 0x10 1 = 1 → mask ≠ 0 → s.Runs .hostLockout m r [] (fun t => t.mail.lockout = BitVec.ofNat 16 mask ∧ t.jobs = s.jobs ∧ t.parts = s.parts)) ∧
      (fld r 0x10 1 = 0 → s.Runs .hostLockout m r [] (fun t => t.mail.lockout = 0 ∧ t.jobs = s.jobs ∧ t.parts = s.parts))) ∧
    (s.Serves m 0x0805 r → fld r 0x11 1 = 0 →
      (fld r 0x10 1 = 0 → fld r 0x12 2 = 0 →
        (s.sec.ownerKey.isSome = true → s.Does (.debugUnlockChallenge m) (fun t => ∃ nonce,
          t.Replied m r rcOk 0 0 (s.challengeBlob nonce) ∧ t.sec.challenge = some (nonce, s.clk.tick) ∧ t.sec.unlocked = s.sec.unlocked)) ∧
        (s.sec.ownerKey = none → s.Refuses .debugUnlockChallenge m r rcState 0)) ∧
      (fld r 0x10 1 = 1 → fld r 0x12 2 = 160 → ∀ nonce u, s.sec.challenge = some (nonce, u) → s.clk.tick ≤ u + 60000000 →
        ((r.drop 0x14).take 64 = s.challengeBlob nonce → s.Runs (fun m => .debugUnlockResponse m true) m r [] (fun t =>
          t.sec.unlocked = true ∧ t.sec.since = true ∧ t.sec.challenge = none ∧ t.sec.sessions = [] ∧ ∀ f, (t.fn f).tdi ≠ 1 ∧ (t.fn f).tdi ≠ 2)) ∧
        s.Does (.debugUnlockResponse m false) (fun t => t.Replied m r rcSignature 0 0 [] ∧ t.sec = { s.sec with challenge := none })) ∧
      (fld r 0x10 1 = 2 → fld r 0x12 2 = 0 → s.sec.unlocked = true → s.Runs .debugRelock m r [] (fun t => t.sec.unlocked = false ∧ t.dbg.faultStop = false ∧
        (∀ n, (t.dbg.bps.val n {}).enable = false) ∧ ∀ k, (t.tile k).trace = none))) ∧
    (s.Serves m 0x0806 r → (expert r = true → fld r 0x14 1 ≤ 1) →
      (s.uploading 0x0806 = false → s.Starts .fwUpdate m r [] (fun n t => State.Apart (s.setSec (fun c => { c with
        uploads := c.uploads ++ [{ op := n, kind := 0x0806, bytes := fld r 0x10 4, arg := if expert r then fld r 0x14 1 else 0 }] })) t)) ∧
      (s.uploading 0x0806 = true → s.Refuses .fwUpdate m r rcBusy 1)) ∧
    (s.Serves m 0x0807 r → s.Runs .ownershipRead m r (fit 4 (le 2 cmdTable.length) ++ cmdTable.flatMap (fun c => le 2 c.1 ++ le 1 c.2.1 ++ le 1 0)) s.Apart) ∧
    (s.Serves m 0x0A01 r → ∀ i p q j b, logOfName (fld r 0x10 2) = some i → s.partOfCol (i / 16) = some p → s.colRetired (i / 16) = false → s.parts.look p = some q →
      q.runJob = some j → s.jobs.look j = some b → b.state = 2 → (expert r = true → fld r 0x12 1 ≤ 1) →
      (q.stop.state = 0 → q.stop.lockWait = false → s.Runs .dbgHalt m r [] (fun t => (∃ q', t.parts.look p = some q' ∧ (q'.stop.state = 1 ∨ q'.stop.state = 2) ∧ q'.stop.cause = 1 ∧
          q'.stop.tile = fld r 0x10 2) ∧
        ∀ k x, s.tiles.look k = some x → q.cols.contains (colOf k) = true → x.job.isSome = true → x.run < 2 → (t.tile k).haltReq = some s.clk.cycle)) ∧
      (∀ k l, expert r = true → fld r 0x12 1 = 1 → q.stop.lockWait = true → q.cols.contains (colOf k) = true → s.lockLate k = true → (s.tile k).lock = some l → (s.tile k).run ≠ 3 →
        s.Runs .dbgHalt m r [] (fun t => (t.tile k).run = 2 ∧ (t.tile k).pc = l.pc ∧ (t.tile k).regs = l.saved ∧ (t.tile k).lock = none ∧ (t.tile k).lockAborted = true))) ∧
    (∀ k c, (s.tile k).haltReq = some c →
      ((s.tile k).inBlk = false → (s.tile k).lock = none → (s.tile k).inTrap = false → (s.tile k).run ≠ 3 → s.Does (.tileHalt k) (fun t =>
        (t.tile k).run = 2 ∧ (t.tile k).haltReq = none ∧ (t.tile k).pc = (s.tile k).pc ∧ (t.tile k).regs = (s.tile k).regs ∧ ∀ j, j ≠ k → t.tile j = s.tile j)) ∧
      (∀ p, s.partOfTile k = some p → (s.tile k).lock.isSome = true → c + 256 ≤ s.clk.cycle →
        exec (.lockWait k) s = .next (s.modPart p (fun q => { q with stop := { q.stop with lockWait := true } }))) ∧
      (∀ p j b, s.partOfTile k = some p → (s.tile k).job = some j → s.jobs.look j = some b → b.state ≠ 4 → c + 8192 ≤ s.clk.cycle → (s.tile k).lock = none →
        s.Does (.haltTimeout k) (fun t => t.Killed j stJobLost 3))) ∧
    (∀ k p q n, s.partOfTile k = some p → s.parts.look p = some q → q.stop.state = 0 → (s.issuer k (s.tile k).run).isSome = true → s.breakAt k (s.tile k).pc = some n →
      (s.tile k).run ≤ 1 → (s.tile k).lock = none → (s.tile k).bpPassed = false →
      s.Does (.breakpointHit k) (fun t => (t.tile k).run = 2 ∧ (t.tile k).bpPassed = true ∧ (t.tile k).pc = (s.tile k).pc ∧
        ∃ q', t.parts.look p = some q' ∧ (q'.stop.state = 1 ∨ q'.stop.state = 2) ∧ q'.stop.cause = 2 ∧ q'.stop.tile = s.nameOf k ∧ q'.stop.bp = n ∧ q'.stop.pc = (s.tile k).pc)) ∧
    (∀ k p q, s.physOfName (fld r 0x10 2) = some k →
      (s.Serves m 0x0A02 r → s.partOfTile k = some p → s.parts.look p = some q → q.stop.state = 2 → q.stop.killPending = false → (∀ x, q.season = some x → x.ownsSlots = false) →
        let steps := if expert r then fld r 0x12 2 else 0
        (steps = 0 → s.Runs .dbgResume m r [] (fun t => (∃ q', t.parts.look p = some q' ∧ q'.stop.state = 0) ∧ t.jobs = s.jobs ∧
          ∀ k, q.cols.contains (colOf k) = true → (s.tile k).run = 2 → (t.tile k).run = 0)) ∧
        (∀ j b, steps ≠ 0 → steps ≤ 4096 → q.runJob = some j → s.jobs.look j = some b → b.state = 2 → s.Runs .dbgResume m r [] (fun t =>
          ∃ q', t.parts.look p = some q' ∧ q'.stop.state = 3 ∧ q'.stop.stepTile = k ∧ q'.stop.stepsLeft = steps))) ∧
      (s.Serves m 0x0A05 r → fld r 0x12 1 ≤ 1 → (expert r = true → fld r 0x13 1 = 0 ∧ fld r 0x14 4 ≤ 255) →
        (fld r 0x12 1 = 1 → (s.tile k).trace.isSome = true ∨ (s.tiles.filter (fun e => e.2.trace.isSome)).length < 16 → s.Runs .dbgTrace m r [] (fun t =>
          State.Apart (s.setTile k { s.tile k with trace := some (BitVec.ofNat 32 (if expert r then fld r 0x14 4 else 0x8E)) }) t)) ∧
        (fld r 0x12 1 = 0 → s.Runs .dbgTrace m r [] (fun t => State.Apart (s.setTile k { s.tile k with trace := none }) t)))) ∧
    (∀ intc, intc = (intcNamed (fld r 0x10 2)).isSome → (intc = true ∨ (s.physOfName (fld r 0x10 2)).isSome = true) →
      let name := fld r 0x10 2
      let g := fld r 0x12 2
      let n := if expert r then fld r 0x14 2 else 1
      let stopped : Prop := ∃ k p, s.physOfName name = some k ∧ s.partOfTile k = some p ∧ (s.parts.val p {}).stop.state = 2
      (s.Serves m 0x0A03 r → 1 ≤ n → n ≤ 56 → (∀ i, i < n → regKnown intc (i + g) = true) → (intc = true ∨ stopped ∨ ∀ i, i < n → regStopped (i + g) = false) →
        s.Runs .dbgPeek m r (le 8 (setBits ((List.range n).filter (fun i => (s.debugPeek name (g + i)).2))) ++
          (List.range n).flatMap (fun i => le 8 (s.debugPeek name (g + i)).1)) s.Apart) ∧
      (s.Serves m 0x0A04 r → regKnown intc g = true → (intc = true ∨ stopped ∨ regStopped g = false) →
        let v := debugTake name g s
        s.Runs .dbgTake m r (le 8 (b2n (s.debugPeek name g).2) ++ le 8 v.1) (fun t => State.Apart v.2 t)))

/-! ## Mailboxes and registers -/

/-- GO makes an idle or done mailbox Busy with the request and the checks of R236 are made in their order: an unknown opcode, a command of another channel, a group that the host
is locked out of, and a device that is starting are answered at once, and what passes them waits for its command. While the CPs restart the request is kept. In Winter GO can wake the device. ACK takes a Done mailbox to Idle; the notice
head moves between head and tail; DBG_CTRL.CP_REQ reaches its CP and captures a dump.
(The model's own readings and choices in it: log 12, 48, 61.) -/
def Obligations.MailboxProtocol : Prop :=
  ∀ (s : State) (m : Mbox),
    (m ≠ .mgmt → s.hasBox m = true → (s.box m).state ≠ 1 → s.start.cfgReady = true → s.pins.perst = false → s.pins.thermtrip = false →
      let r := trimReq ((s.box m).req.read 0 512)
      let row (who : Nat) : Prop := ∃ c, cmdTable.find? (fun c => decide (c.1 = reqOpcode r)) = some c ∧ c.2.1 &&& boxWho m = who ∧ who ≠ 0
      let free : Prop := reqOpcode r = 0x0101 ∨ reqOpcode r = 0x0102 ∨ reqOpcode r = 0x0105
      ((s.box m).taken = none → (s.box m).discard = false → s.pwr.cpClock = true →
        (s.cpsOut = false →
          (∀ rc d, s.earlyCheck m r = some (rc, d) → s.Does (.go m) (fun t => t.Replied m r rc d 0 [] ∧ t.jobs = s.jobs ∧ t.parts = s.parts)) ∧
          (s.earlyCheck m r = none → s.Does (.go m) (fun t => (t.box m).state = 1 ∧ (t.box m).taken = some r ∧ t.jobs = s.jobs ∧ t.parts = s.parts)) ∧
          ((∀ c, c ∈ cmdTable → c.1 ≠ reqOpcode r) → s.Does (.go m) (fun t => t.Replied m r rcOpcode 0 0 [])) ∧
          ((∃ c, c ∈ cmdTable ∧ c.1 = reqOpcode r) → boxTakes m (reqOpcode r / 256) = false → s.Does (.go m) (fun t => t.Replied m r rcPermit 1 0 [])) ∧
          (∀ k who, m = .pf k → row who → reqOpcode r / 256 ≠ 8 → reqOpcode r / 256 ≠ 10 → ¬ free → reqOpcode r ≠ 0x0502 →
            (s.mail.lockout.getLsbD (reqOpcode r / 256) = true → s.Does (.go m) (fun t => t.Replied m r rcLockedOut 0 0 [])) ∧
            (s.mail.lockout.getLsbD (reqOpcode r / 256) = false → s.start.stage < 6 → s.Does (.go m) (fun t => t.Replied m r rcStarting 0 0 [])))) ∧
        (s.cpsOut = true → m ≠ .sec → s.Does (.go m) (fun t => (t.box m).state = 1 ∧ (t.box m).taken = some r))) ∧
      (∀ q, (s.box m).taken = some q → (s.box m).discard = true → s.Does (.go m) (fun t => (t.box m).queued = some r ∧ (t.box m).taken = some q)) ∧
      (∀ k, m = .pf k → s.pwr.cpClock = false → s.pwr.state = 0 → ((s.intc 0).srcs.val (srcKey 0 (66 + k)) {}).enable = true →
        ((s.intc 0).srcs.val (srcKey 0 (66 + k)) {}).wake = true → s.Does (.go m) (fun t => t.pwr.state = 1 ∧ t.pwr.wakeSource = 66 + k))) ∧
    ((s.box m).state = 2 → exec (.ack m) s = .next (s.setBox m { s.box m with state := 0 })) ∧
    ((s.box m).state ≠ 2 → exec (.ack m) s = .next s) ∧
    (∀ v, m ≠ .mgmt → s.hasBox m = true → v < 16 → (v + 16 - (s.box m).head) % 16 ≤ ((s.box m).tail + 16 - (s.box m).head) % 16 →
      exec (.mbNoticeHead m v) s = .next (s.setBox m { s.box m with head := v })) ∧
    (∀ c, c < 4 → s.sec.unlocked = true → s.pwr.cpClock = true → s.ladder.dump = none → s.ladder.capture = none →
      let x := (s.intc (c / 2)).srcs.val (srcKey (c % 2) 6) {}
      x.enable = true → x.edge = true → x.edgeAt = none → (s.intc (c / 2)).inService (srcKey (c % 2) 6) = false →
      s.Does (.cpReq c) (fun t => t.ladder.capture = some { mask := 3, trigger := 1, op := none } ∧
        ((t.intc (c / 2)).srcs.val (srcKey (c % 2) 6) {}).pend = true)) ∧
    (∀ c, s.sec.unlocked = false → exec (.cpReq c) s = .next s)

/-- The register space: a misaligned access changes no register and is logged; a low half is kept until the high half makes the whole write, and a high half alone is logged and writes nothing; a low
half read keeps the high half for the next read; a whole write acts by its fields' types; an access that the table of its target denies changes nothing and is a violation; a read of a register with
read-to-clear fields returns the value and clears them.
(The model's own readings and choices in it: log 36, 37, 39.) -/
def Obligations.RegisterAccesses : Prop :=
  ∀ s : State,
    (∀ a : RegAccess, s.regSpace a = true →
      let key := latchKey a.fn a.bar (a.off / 8 * 8)
      let base := a.off / 8 * 8
      (regAligned a = false → exec (.misalignedAccess a) s = .next (logEvent { kind := 1, unit := 0xC, data := a.off } (if a.write then s else s.answer 0))) ∧
      (regAligned a = true → regDenied a = none → regWide a.fn a.bar base = true → a.size = 4 →
        (a.write = true → s.isReady = true →
          (a.off % 8 = 0 → s.Does (.lowHalfWrite a) (fun t => t.regs.writeHold.look key = some (BitVec.ofNat 32 a.data.toNat) ∧ { t with regs := s.regs } = s)) ∧
          (a.off % 8 = 4 → s.regs.writeHold.look key = none → s.Does (.highHalfWrite a) (fun t =>
            ∃ u, t = logEvent { kind := 1, unit := 0xC, data := a.off } u ∧ { u with regs := s.regs } = s)) ∧
          (∀ lo, a.off % 8 = 4 → s.regs.writeHold.look key = some lo → s.Does (.highHalfWrite a) (fun t =>
            t = regPoke a.fn a.bar base (lo.toNat + 2 ^ 32 * (a.data.toNat % 2 ^ 32)) (dropHalves key s)))) ∧
        (a.write = false →
          (a.off % 8 = 0 → s.Does (.lowHalfRead a) (fun t => t.out.read = BitVec.ofNat 64 (s.regPeek a.fn a.bar base % 2 ^ 32) ∧
            t.regs.readLatch.look key = some (BitVec.ofNat 32 (s.regPeek a.fn a.bar base / 2 ^ 32)))) ∧
          (∀ h, a.off % 8 = 4 → s.regs.readLatch.look key = some h → s.Does (.highHalfRead a) (fun t =>
            t.out.read = BitVec.ofNat 64 h.toNat ∧ t.regs.readLatch.look key = none ∧ { t with regs := s.regs, out := s.out } = s)))) ∧
      (∀ code, regAligned a = true → regDenied a = some code → a.write = true → (a.size = 8 ∨ regWide a.fn a.bar base = false) → s.sec.violations < 0xFFFF →
        s.Does (.registerWrite a) (fun t => s.sec.violations < t.sec.violations ∧ t.sec.vMaster = a.master ∧ t.sec.vTarget = code ∧ t.sec.vNeed = 1 ∧
          t.regs = s.regs ∧ t.parts = s.parts ∧ t.mail = s.mail ∧ t.alm = s.alm ∧ t.qps = s.qps))) ∧
    (s.isReady = true → s.start.recoveryCfg = false → s.regSpace {} = true →
      (∀ k v, k < 4 → exec (.registerWrite { off := 0x1000 * k + 0x14, size := 4, write := true, data := v }) s =
        .next (s.setBox (.pf k) { s.box (.pf k) with mask := BitVec.ofNat 32 (v.toNat % 2 ^ 32) &&& 0x1FFE })) ∧
      (∀ k i v, k < 4 → i < 128 → exec (.registerWrite { off := 0x1000 * k + 0x100 + 4 * i, size := 4, write := true, data := v }) s =
        .next (s.setBox (.pf k) { s.box (.pf k) with req := (s.box (.pf k)).req.write (4 * i) (le 4 (v.toNat % 2 ^ 32)) })) ∧
      (∀ v, exec (.registerWrite { off := 0x300060, size := 4, write := true, data := v }) s =
        .next (s.setPwr (fun w => { w with rails := w.rails &&& ~~~(BitVec.ofNat 9 (v.toNat % 2 ^ 32)) }))) ∧
      (∀ k v, k < 4096 → s.Does (.registerWrite { off := 0x410000 + 8 * k, size := 8, write := true, data := v }) (fun t => t.alm.sems.val k 0 = v ∧
        ∀ j, j ≠ k → t.alm.sems.val j 0 = s.alm.sems.val j 0))) ∧
    (s.regSpace {} = true → s.start.recoveryCfg = false →
      let reads (c : Instr) (v : Nat) (p : State → Prop) : Prop := s.Does c (fun t => t.out.read = BitVec.ofNat 64 v ∧ p t)
      (∀ k, k < 4 → reads (.mbNoticeLostRead (.pf k)) ((s.box (.pf k)).lostCount % 2 ^ 32) (fun t => t.box (.pf k) = { s.box (.pf k) with lostCount := 0 })) ∧
      (∀ v, v < 512 → (s.fn v).state ≠ 0 → reads (.mbNoticeLostRead (.vf v)) ((s.box (.vf v)).lostCount % 2 ^ 32) (fun t =>
        t.box (.vf v) = { s.box (.vf v) with lostCount := 0 })) ∧
      (∀ h, h < 2 → reads (.seqBuildRead h) (s.buildMax.val h 0 % 2 ^ 32) (fun t => t.buildMax.val h 0 = 0) ∧
        reads (.fabMeshNackRead h) (s.hl.nackDark.val h 0 + 65536 * s.hl.nackReset.val h 0 + 2 ^ 32 * s.hl.nackRoute.val h 0 + 2 ^ 48 * b2n (s.hl.meshAudit.contains h))
          (fun t => t.hl.nackDark.val h 0 = 0 ∧ t.hl.nackReset.val h 0 = 0 ∧ t.hl.nackRoute.val h 0 = 0 ∧ t.hl.meshAudit = s.hl.meshAudit) ∧
        reads (.fabMeshErrRead h) (s.hl.meshCe.val h 0 + 65536 * s.hl.meshUeData.val h 0 + 2 ^ 32 * s.hl.meshUeHead.val h 0)
          (fun t => t.hl.meshCe.val h 0 = 0 ∧ t.hl.meshUeData.val h 0 = 0 ∧ t.hl.meshUeHead.val h 0 = 0) ∧
        reads (.seqSolverStatsRead h) (s.solverPeek h 0x10) (fun t => (t.solver h).partials = 0 ∧ (t.solver h).pivot = 0 ∧ (t.solver h).poisoned = 0 ∧
          (t.solver h).skels = (s.solver h).skels) ∧
        reads (.seqSolverMaxRead h) ((s.solver h).latency % 2 ^ 32) (fun t => (t.solver h).latency = 0)) ∧
      (∀ p q, p < 8 → s.parts.look p = some q →
        let now (t : State) (q' : Part) : Prop := t.parts.look p = some q'
        reads (.partSwitchMaxRead p) (q.switchMax % 2 ^ 32) (fun t => now t { q with switchMax := 0 }) ∧
        reads (.partUcNackRead p) (q.nackDark + 65536 * q.nackReset + 2 ^ 32 * q.nackRoute) (fun t => now t { q with nackDark := 0, nackReset := 0, nackRoute := 0 }) ∧
        reads (.partHoldRead p) (q.holds + 65536 * q.maxTicks + 2 ^ 32 * q.faults) (fun t => now t { q with holds := 0, maxTicks := 0, faults := 0 }) ∧
        reads (.partMemerrRead p) (q.memCe + 65536 * q.memUe + 2 ^ 32 * q.retired) (fun t => now t { q with memCe := 0, memUe := 0 }) ∧
        reads (.partShadowStatsRead p) (q.compares + 2 ^ 32 * q.mismatches + 2 ^ 48 * q.lastLayer) (fun t => now t { q with compares := 0, mismatches := 0 })) ∧
      reads .fabHlErrRead ((s.hl.ce + 65536 * s.hl.ue) % 2 ^ 32) (fun t => t.hl = { s.hl with ce := 0, ue := 0 }) ∧
      (∀ n, s.ident.variant.hasPort n = true → reads (.fabPortErrRead n)
        ((s.port n).ce + 65536 * (s.port n).ue + 2 ^ 32 * (s.port n).silent + 2 ^ 48 * (s.port n).discard)
        (fun t => t.port n = { s.port n with ce := 0, ue := 0, silent := 0, discard := 0 })) ∧
      reads .fabAlmSkewRead ((skewBits s.alm.skewLast + 65536 * s.alm.skewMax) % 2 ^ 32) (fun t => t.alm = { s.alm with skewMax := 0 }) ∧
      (∀ j b, j < 64 → s.jobs.look j = some b → reads (.fabJobSilentRead j) (s.silentPeek j) (fun t => t.jobs.look j = some { b with silentTotal := 0 })) ∧
      reads .pwrStatsRead (s.pwr.quietLate + 65536 * s.pwr.unplannedWakes + 2 ^ 32 * s.pwr.gateDeferred)
        (fun t => t.pwr = { s.pwr with quietLate := 0, unplannedWakes := 0, gateDeferred := 0 }) ∧
      reads .pwrThermalRead (s.pwrPeek 0x68 % 2 ^ 32) (fun t => t.pwr = { s.pwr with tempMax := 0 }) ∧
      reads .pwrStartRead (s.pwrPeek 0x38) (fun t => t.start = { s.start with earlyWrites := 0 }) ∧
      reads .pwrAuditRead (s.pwr.auditMonths + 2 ^ 32 * s.pwr.auditFails + 2 ^ 48 * s.pwr.lastBook) (fun t => t.pwr = { s.pwr with auditFails := 0 }) ∧
      reads .secViolationRead (s.sec.violations + 65536 * s.sec.vMaster + 2 ^ 32 * s.sec.vTarget + 2 ^ 36 * s.sec.vNeed) (fun t => t.sec = { s.sec with violations := 0 }) ∧
      (s.sec.unlocked = true → reads .dbgTracePtrRead ((s.dbg.next + 2 ^ 15 * b2n s.dbg.wrapped + 65536 * s.dbg.lost) % 2 ^ 32) (fun t => t.dbg = { s.dbg with lost := 0 })))

/-! ## Messages to the security processor -/

/-- The management port, the attested sessions, TDISP and MCTP: a handshake opens a session, a request is taken by the management mailbox, images arrive in order and are installed when complete, ownership is enrolled and
updated; sessions are opened, kept alive and ended, a stream's keys make it Secure, and what a session carried is Insecure when it ends; a TDI is locked, started and stopped; and the telemetry answers.
(The model's own readings and choices in it: log 8, 21, 41, 42, 43, 44.) -/
def Obligations.MessagesToTheSecurityProcessor : Prop :=
  ∀ s : State,
    let said (t : State) (protocol code : Nat) (data : Bytes) : Prop := t.out.up = s.out.up ++ [.answer protocol code data]
    (s.portUp = true →
      (∀ ok, s.sec.ownerKey.isSome = true → ok = false → s.Does (.mgmtHandshake ok) (fun t => said t 1 1 [] ∧ t.sec = s.sec)) ∧
      (∀ ok, s.sec.ownerKey = none ∨ ok = true → (∀ x, s.sec.mgmt = some x → x.lastTick + 30000000 ≤ s.clk.tick) → s.Does (.mgmtHandshake ok) (fun t =>
        said t 1 0 [] ∧ t.sec.mgmt = some { lastTick := s.clk.tick, enrolled := s.sec.ownerKey.isSome })) ∧
      (∀ ok x, s.sec.mgmt = some x → s.clk.tick < x.lastTick + 30000000 → s.Does (.mgmtHandshake ok) (fun t => said t 1 1 [] ∧ t.sec = s.sec)) ∧
      (∀ x, s.sec.mgmt = some x →
        (∀ r, (s.box .mgmt).taken = none → s.pwr.cpClock = true → s.cpsOut = false → x.enrolled = true ∨ reqOpcode (trimReq r) = 0x0101 →
          reqOpcode r = reqOpcode (trimReq r) → s.earlyCheck .mgmt (trimReq r) = none →
          s.Does (.request r) (fun t => (t.box .mgmt).state = 1 ∧ (t.box .mgmt).taken = some (trimReq r) ∧ t.out.up = s.out.up ∧
            t.sec.mgmt = some { x with lastTick := s.clk.tick })) ∧
        (∀ r q, (s.box .mgmt).taken = some q → x.enrolled = true → s.Does (.request r) (fun t =>
          t.out.up = s.out.up ++ [.response .mgmt (respBytes (trimReq r) rcBusy 5 0 [])] ∧ (t.box .mgmt).taken = some q)) ∧
        (∀ r, x.enrolled = false → reqOpcode r ≠ 0x0101 → reqOpcode r ≠ 0x0102 → s.Does (.request r) (fun t => t.mail = s.mail ∧ t.out.up = s.out.up)) ∧
        s.Does .keepalive (fun t => t.sec.mgmt = some { x with lastTick := s.clk.tick } ∧ t.out = s.out) ∧
        (∀ u f data, x.enrolled = true → s.sec.uploads = [u] → data.length ≤ 1368 →
          (u.got + data.length < u.bytes → s.Does (.bulk u.op u.got data f) (fun t => t.out.up = s.out.up ++ [.bulkAck u.op (u.got + data.length)] ∧
            t.sec.uploads = [{ u with img := u.img.write u.got data, got := u.got + data.length }])) ∧
          (u.got + data.length = u.bytes → s.opOpen u.op = true → u.kind = 0x0806 →
            (f.sigOk = false → s.Does (.bulk u.op u.got data f) (fun t => t.sec.uploads = [] ∧ t.OpDone u.op rcSignature 0 ∧ t.sec.fw = s.sec.fw)) ∧
            (f.sigOk = true → s.ident.minSvn ≤ f.svn → f.level = s.ident.level → f.written = true → u.arg = 0 → s.start.stage ≠ 7 →
              s.Does (.bulk u.op u.got data f) (fun t => t.sec.uploads = [] ∧ t.OpDone u.op 0 0 ∧ t.start.pendingActive = some (1 - s.sec.activeFw) ∧
                ∃ w, t.sec.fw.look (1 - s.sec.activeFw) = some w ∧ w.present = true ∧ w.svn = f.svn ∧ w.version = BitVec.ofNat 32 f.version))) ∧
          (u.got + data.length = u.bytes → s.opOpen u.op = true → u.kind = 0x0605 →
            let img := u.img.write u.got data
            (f.sigOk = false → s.Does (.bulk u.op u.got data f) (fun t => t.sec.uploads = [] ∧ t.OpDone u.op rcSignature 0 ∧ t.sec.packages = s.sec.packages)) ∧
            (f.sigOk = true → patternOk img u.bytes s.ident.variant = true → s.sec.packages = [] → u.arg = 0 → f.written = true →
              s.Does (.bulk u.op u.got data f) (fun t => t.sec.uploads = [] ∧ t.OpDone u.op 0 0 ∧ ∃ w, t.sec.packages = [(0, w)] ∧ w.state = 1 ∧
                w.id = Mem.num img 8 4 ∧ w.version = Mem.num img 12 4 ∧ w.roundCycles = Mem.num img 0x14 4)))) ∧
        (∀ key, key ≠ [] →
          (s.sec.ownerKey = none → s.pins.enroll = true → s.Does (.enroll key true) (fun t => t.sec.ownerKey = some key ∧ said t 1 0 [])) ∧
          (∀ w k, s.sec.ownerKey = some k → s.Does (.enroll key w) (fun t => t.sec.ownerKey = some k ∧ said t 1 rcState [])) ∧
          (∀ k, s.sec.ownerKey = some k → x.enrolled = true →
            ((s.box .mgmt).taken = none → s.Does (.ownerUpdate key true true) (fun t => t.sec.ownerKey = some key ∧ t.sec.mgmt = none ∧ said t 1 0 [])) ∧
            (∀ r, (s.box .mgmt).taken = some r → s.Does (.ownerUpdate key true true) (fun t => t.sec.ownerKey = some k ∧ t.sec.ownerDue = some key ∧ said t 1 0 [])) ∧
            s.Does (.ownerUpdate key false true) (fun t => t.sec.ownerKey = some k ∧ said t 1 rcSignature [])))) ∧
      (∀ eid, 0 < eid → eid < 255 → s.Does (.setEndpointId eid) (fun t => t.sec.eid = eid ∧ said t 4 0 [])) ∧
      s.Does (.setEndpointId 0) (fun t => t.sec.eid = s.sec.eid ∧ said t 4 2 []) ∧
      s.Does .getEndpointId (fun t => said t 4 0 (le 1 s.sec.eid)) ∧
      s.Does .getMctpVersionSupport (fun t => ∃ d, said t 4 0 (le 1 1 ++ le 4 d)) ∧
      s.Does .getMessageTypeSupport (fun t => said t 4 0 [2, 0, 1]) ∧
      (s.isReady = true →
        (∀ k, k ≤ 26 → s.Does (.getPdr k) (fun t => ∃ d, said t 4 0 (le 8 d))) ∧
        (∀ k v, s.sensor k = some v → s.Does (.getSensorReading k) (fun t => said t 4 0 (le 8 v))) ∧
        (∀ k, 27 ≤ k → s.Does (.getSensorReading k) (fun t => said t 4 0x80 []) ∧ s.Does (.getPdr k) (fun t => said t 4 0x80 [])) ∧
        s.Does .getStateSensorReadings (fun t => said t 4 0 (le 1 s.pwr.state ++ le 1 (b2n s.pwr.ready)))) ∧
      (s.isReady = false → s.Does .getStateSensorReadings (fun t => said t 4 4 []) ∧ ∀ k, k ≤ 26 → s.Does (.getSensorReading k) (fun t => said t 4 4 []))) ∧
    exec .managementSessionEnd s = .next (s.setSec (fun c => { c with mgmt := none })) ∧
    (s.doeUp = true →
      (s.sec.turnover = none →
        (∀ n, firstFree 4 (fun n => (s.sec.sessions.look n).isNone) = some n → s.Does .keyExchange (fun t =>
          said t 2 0 [BitVec.ofNat 8 n] ∧ t.sec.sessions.look n = some s.clk.tick)) ∧
        ((∀ n, n < 4 → (s.sec.sessions.look n).isSome = true) → s.Does .keyExchange (fun t => said t 2 0xA [] ∧ t.sec = s.sec)) ∧
        (∀ i, (1 ≤ i ∧ i ≤ 9) ∨ (0x10 ≤ i ∧ i ≤ 0x17) → exec (.getMeasurements i) s = .next (s.emit (.answer 2 0 (s.measurement i))))) ∧
      (∀ op, s.sec.turnover = some op → s.Does .keyExchange (fun t => said t 2 3 [] ∧ t.sec = s.sec) ∧ ∀ i, s.Does (.getMeasurements i) (fun t => said t 2 3 [])) ∧
      (∀ n u, s.sec.sessions.look n = some u →
        s.Does (.endSession n) (fun t => said t 2 0 [] ∧ t.sec.sessions.look n = none ∧ t.sec.linkIde ≠ some n ∧ (∀ k, t.sec.selIde.look k ≠ some n) ∧
          ∀ f k, (k, n) ∈ s.sec.selIde → (s.fn f).tdi = 1 ∨ (s.fn f).tdi = 2 → (s.fn f).tdiStream = k → (t.fn f).tdi = 3) ∧
        s.Does (.spdmHeartbeat n) (fun t => said t 2 0 [] ∧ t.sec.sessions.look n = some s.clk.tick) ∧
        (∀ k, k < 4 → s.Does (.ideKm n k) (fun t => said t 2 0 [] ∧ t.sec.selIde.look k = some n)) ∧
        s.Does (.ideKm n 4) (fun t => said t 2 0 [] ∧ t.sec.linkIde = some n)) ∧
      (∀ v k, v < 512 → (s.fn v).state ≠ 0 →
        ((s.fn v).tdi = 0 → (s.sec.selIde.look k).isSome = true → s.Does (.lockInterface v k) (fun t => said t 3 0 [] ∧ t.fn v = { s.fn v with tdi := 1, tdiStream := k })) ∧
        ((s.fn v).tdi ≠ 0 → s.Does (.lockInterface v k) (fun t => said t 3 1 [] ∧ t.fns = s.fns)) ∧
        ((s.fn v).tdi = 1 → s.Does (.startInterface v) (fun t => said t 3 0 [] ∧ t.fn v = { s.fn v with tdi := 2 })) ∧
        ((s.fn v).tdi ≠ 1 → s.Does (.startInterface v) (fun t => said t 3 1 [] ∧ t.fns = s.fns)) ∧
        s.Does (.stopInterface v) (fun t => said t 3 0 [] ∧ t.fn v = { s.fn v with tdi := 0 }))) ∧
    (∀ n u, s.sec.sessions.look n = some u → u + 10000000 ≤ s.clk.tick → s.Does (.spdmHeartbeatTimeout n) (fun t =>
      t.sec.sessions.look n = none ∧ t.sec.linkIde ≠ some n ∧ ∀ k, t.sec.selIde.look k ≠ some n)) ∧
    (∀ k qfe slot, (k = 4 ∧ s.sec.linkIde.isSome = true) ∨ (k < 4 ∧ (s.sec.selIde.look k).isSome = true) →
      s.Does (.ideCheckFailed k qfe slot) (fun t => t.sec.aerIde = s.sec.aerIde + 1 ∧ t.sec.selIde = s.sec.selIde))

/-! ## Reset and the invariant -/

/-- The state that a run starts from: nothing waits, no partition, job, queue pair, packet or record exists, the device is not ready, its step limit is 2,000 ms, every mailbox is Idle with an empty
ring and all notices enabled, every port is Off, nobody is locked out, debug is locked; and its memories are canonical. (That it is the power-on state with PERST# still asserted is the
model's choice, log 6.) -/
def Obligations.ResetState : Prop :=
  let s := State.reset
  s.pending = [] ∧ s.parts = [] ∧ s.jobs = [] ∧ s.qps = [] ∧ s.pkts = [] ∧ s.outbox = [] ∧ s.tiles = [] ∧ s.stepLimit = 2000 ∧
  s.pwr.ready = false ∧ s.pwr.state = 1 ∧ s.alm.state = almNone ∧ s.mail.nextOp = 1 ∧ s.mail.ops = [] ∧ s.mail.lockout = 0 ∧ s.sec.unlocked = false ∧ s.ladder.log = [] ∧
  (∀ m, (s.box m).state = 0 ∧ (s.box m).mask = 0x1FFE ∧ (s.box m).doneIrq = true ∧ (s.box m).noticeIrq = true ∧ (s.box m).head = (s.box m).tail) ∧
  (∀ p, (s.port p).state = portOff) ∧ (∀ q, (s.qfes.val q {}).reserve = 64) ∧ s.memWf = true

/-- Every step keeps the stack memory and the tile stores in their canonical form: addresses strictly rise and no listed byte is what an unlisted address reads as. -/
def Obligations.StepsKeepMemoriesCanonical : Prop :=
  ∀ s t : State, s.memWf = true → step s = .next t → t.memWf = true
end

