-- ==== Sys2Proof/Laws/Encode.lean ====
section
/-! SUPPORT. The tile decoder on the word of each instruction format. -/

namespace Sys2Proof.Machine

open Sys2Proof

theorem bits_eq (v hi lo : Nat) : bits v hi lo = v / 2 ^ lo % 2 ^ (hi + 1 - lo) := by rw [bits, Nat.shiftRight_eq_div_pow]

theorem fieldOk_le {u : Bool} {n : Nat} (h : fieldOk u n = true) : n ≤ 24 := by
  unfold fieldOk at h; split at h <;> simp at h <;> omega

theorem dec_R {m f rd ra rb : Nat} {op : TOp} {ud ua ub : Bool} (hm : m = 0x01 ∨ m = 0x20 ∨ m = 0x25 ∨ m = 0x26) (row : rowR m f = some (op, ud, ua, ub))
    (hf : f < 2048) (h : (fieldOk ud rd && fieldOk ua ra && fieldOk ub rb) = true) :
    decodeTile (2 ^ 26 * m + (2 ^ 21 * rd + 2 ^ 16 * ra + 2 ^ 11 * rb + f)) = some { op := op, rd := rd, ra := ra, rb := rb } := by
  have h' := h
  simp only [Bool.and_eq_true] at h'
  have h1 := fieldOk_le h'.1.1; have h2 := fieldOk_le h'.1.2; have h3 := fieldOk_le h'.2
  have e1 : bits (2 ^ 26 * m + (2 ^ 21 * rd + 2 ^ 16 * ra + 2 ^ 11 * rb + f)) 31 26 = m := by rw [bits_eq]; omega
  have e2 : bits (2 ^ 26 * m + (2 ^ 21 * rd + 2 ^ 16 * ra + 2 ^ 11 * rb + f)) 25 21 = rd := by rw [bits_eq]; omega
  have e3 : bits (2 ^ 26 * m + (2 ^ 21 * rd + 2 ^ 16 * ra + 2 ^ 11 * rb + f)) 20 16 = ra := by rw [bits_eq]; omega
  have e4 : bits (2 ^ 26 * m + (2 ^ 21 * rd + 2 ^ 16 * ra + 2 ^ 11 * rb + f)) 15 11 = rb := by rw [bits_eq]; omega
  have e5 : bits (2 ^ 26 * m + (2 ^ 21 * rd + 2 ^ 16 * ra + 2 ^ 11 * rb + f)) 10 0 = f := by rw [bits_eq]; omega
  unfold decodeTile
  simp only [e1, e2, e3, e4, e5]
  rw [if_pos hm, row]
  simp only [h, if_true]

theorem dec_J {imm : Nat} (h : imm < 2 ^ 26) : decodeTile (2 ^ 26 * 0x1E + imm) = some { op := .j, imm := imm } := by
  have e1 : bits (2 ^ 26 * 0x1E + imm) 31 26 = 0x1E := by rw [bits_eq]; omega
  have e2 : bits (2 ^ 26 * 0x1E + imm) 25 0 = imm := by rw [bits_eq]; omega
  unfold decodeTile
  simp only [e1, e2]
  rfl

theorem dec_CALL {imm : Nat} (h : imm < 2 ^ 26) : decodeTile (2 ^ 26 * 0x1F + imm) = some { op := .call, imm := imm } := by
  have e1 : bits (2 ^ 26 * 0x1F + imm) 31 26 = 0x1F := by rw [bits_eq]; omega
  have e2 : bits (2 ^ 26 * 0x1F + imm) 25 0 = imm := by rw [bits_eq]; omega
  unfold decodeTile
  simp only [e1, e2]
  rfl

theorem dec_X {m f rd ra res : Nat} {op : TOp} {ud ua : Bool} (hm : m = 0x23 ∨ m = 0x24) (row : rowX m f = some (op, ud, ua))
    (hf : f < 1024) (hr : res < if m = 0x24 then 64 else 32) (h : (fieldOk ud rd && fieldOk ua ra) = true) :
    decodeTile (2 ^ 26 * m + (2 ^ 21 * rd + 2 ^ 16 * ra + 2 ^ 10 * res + f)) = some { op := op, rd := rd, ra := ra, res := res } := by
  have h' := h
  simp only [Bool.and_eq_true] at h'
  have h1 := fieldOk_le h'.1; have h2 := fieldOk_le h'.2
  have hr' : res < 64 := by split at hr <;> omega
  have e1 : bits (2 ^ 26 * m + (2 ^ 21 * rd + 2 ^ 16 * ra + 2 ^ 10 * res + f)) 31 26 = m := by rw [bits_eq]; omega
  have e2 : bits (2 ^ 26 * m + (2 ^ 21 * rd + 2 ^ 16 * ra + 2 ^ 10 * res + f)) 25 21 = rd := by rw [bits_eq]; omega
  have e3 : bits (2 ^ 26 * m + (2 ^ 21 * rd + 2 ^ 16 * ra + 2 ^ 10 * res + f)) 20 16 = ra := by rw [bits_eq]; omega
  have e4 : bits (2 ^ 26 * m + (2 ^ 21 * rd + 2 ^ 16 * ra + 2 ^ 10 * res + f)) 15 10 = res := by rw [bits_eq]; omega
  have e5 : bits (2 ^ 26 * m + (2 ^ 21 * rd + 2 ^ 16 * ra + 2 ^ 10 * res + f)) 9 0 = f := by rw [bits_eq]; omega
  unfold decodeTile
  simp only [e1, e2, e3, e4, e5]
  have hq : (m == 0x24 || decide (res < 32)) = true := by
    rcases hm with rfl | rfl
    · simp at hr ⊢; exact hr
    · rfl
  rw [if_neg (by omega), if_neg (by omega), if_neg (by omega), if_pos hm, row]
  simp only [h, hq, Bool.and_self, if_true]

theorem dec_V {f rs vd va vb : Nat} {op : TOp} {ud ua ub us : Bool} (row : rowV f = some (op, ud, ua, ub, us)) (hf : f < 512)
    (hv : vd < 16 ∧ va < 16 ∧ vb < 16) (h : (vfieldOk ud vd && vfieldOk ua va && vfieldOk ub vb && fieldOk us rs) = true) :
    decodeTile (2 ^ 26 * 0x28 + (2 ^ 22 * vd + 2 ^ 18 * va + 2 ^ 14 * vb + 2 ^ 9 * rs + f)) = some { op := op, rd := rs, ra := rs, vd := vd, va := va, vb := vb } := by
  have h' := h
  simp only [Bool.and_eq_true] at h'
  have h1 := fieldOk_le h'.2
  have e1 : bits (2 ^ 26 * 0x28 + (2 ^ 22 * vd + 2 ^ 18 * va + 2 ^ 14 * vb + 2 ^ 9 * rs + f)) 31 26 = 0x28 := by rw [bits_eq]; omega
  have e2 : bits (2 ^ 26 * 0x28 + (2 ^ 22 * vd + 2 ^ 18 * va + 2 ^ 14 * vb + 2 ^ 9 * rs + f)) 25 22 = vd := by rw [bits_eq]; omega
  have e3 : bits (2 ^ 26 * 0x28 + (2 ^ 22 * vd + 2 ^ 18 * va + 2 ^ 14 * vb + 2 ^ 9 * rs + f)) 21 18 = va := by rw [bits_eq]; omega
  have e4 : bits (2 ^ 26 * 0x28 + (2 ^ 22 * vd + 2 ^ 18 * va + 2 ^ 14 * vb + 2 ^ 9 * rs + f)) 17 14 = vb := by rw [bits_eq]; omega
  have e5 : bits (2 ^ 26 * 0x28 + (2 ^ 22 * vd + 2 ^ 18 * va + 2 ^ 14 * vb + 2 ^ 9 * rs + f)) 13 9 = rs := by rw [bits_eq]; omega
  have e6 : bits (2 ^ 26 * 0x28 + (2 ^ 22 * vd + 2 ^ 18 * va + 2 ^ 14 * vb + 2 ^ 9 * rs + f)) 8 0 = f := by rw [bits_eq]; omega
  unfold decodeTile
  simp only [e1, e2, e3, e4, e5, e6]
  rw [if_neg (by decide), if_neg (by decide), if_neg (by decide), if_neg (by decide), if_pos trivial, row]
  simp only [h, if_true]

theorem dec_VM {b rs vd fmt : Nat} (hb : b < 2) (hv : vd < 16) (hf : 1 ≤ fmt ∧ fmt ≤ 6) (h : fieldOk true rs = true) :
    decodeTile (2 ^ 26 * 0x29 + (2 ^ 22 * vd + 2 ^ 9 * rs + 2 * fmt + b)) = some { op := if b = 1 then .vst else .vld, ra := rs, vd := vd, fmt := fmt } := by
  have h1 := fieldOk_le h
  have e1 : bits (2 ^ 26 * 0x29 + (2 ^ 22 * vd + 2 ^ 9 * rs + 2 * fmt + b)) 31 26 = 0x29 := by rw [bits_eq]; omega
  have e2 : bits (2 ^ 26 * 0x29 + (2 ^ 22 * vd + 2 ^ 9 * rs + 2 * fmt + b)) 25 22 = vd := by rw [bits_eq]; omega
  have e3 : bits (2 ^ 26 * 0x29 + (2 ^ 22 * vd + 2 ^ 9 * rs + 2 * fmt + b)) 13 9 = rs := by rw [bits_eq]; omega
  have e4 : bits (2 ^ 26 * 0x29 + (2 ^ 22 * vd + 2 ^ 9 * rs + 2 * fmt + b)) 4 1 = fmt := by rw [bits_eq]; omega
  have e5 : bits (2 ^ 26 * 0x29 + (2 ^ 22 * vd + 2 ^ 9 * rs + 2 * fmt + b)) 8 5 = 0 := by rw [bits_eq]; omega
  have e6 : bits (2 ^ 26 * 0x29 + (2 ^ 22 * vd + 2 ^ 9 * rs + 2 * fmt + b)) 21 14 = 0 := by rw [bits_eq]; omega
  have e7 : bit (2 ^ 26 * 0x29 + (2 ^ 22 * vd + 2 ^ 9 * rs + 2 * fmt + b)) 0 = decide (b = 1) := by
    simp only [bit, Nat.testBit_zero]; congr 1; apply propext; omega
  unfold decodeTile
  simp only [e1, e2, e3, e4, e5, e6, e7]
  rw [if_neg (by decide), if_neg (by decide), if_neg (by decide), if_neg (by decide), if_neg (by decide), if_pos trivial, if_pos (by simp [hf, h])]
  simp only [decide_eq_true_eq]

theorem dec_I {m n rd ra imm : Nat} {op : TOp} {ud ua : Bool} (row : rowI m = some (op, ud, ua, n)) (hm : m < 64)
    (hn : ¬ (m = 0x01 ∨ m = 0x20 ∨ m = 0x25 ∨ m = 0x26) ∧ m ≠ 0x1E ∧ m ≠ 0x1F ∧ ¬ (m = 0x23 ∨ m = 0x24) ∧ m ≠ 0x28 ∧ m ≠ 0x29) (h16 : n ≤ 16)
    (h : (fieldOk ud rd && fieldOk ua ra && decide (imm < 2 ^ n)) = true) :
    decodeTile (2 ^ 26 * m + (2 ^ 21 * rd + 2 ^ 16 * ra + imm)) = some { op := op, rd := rd, ra := ra, imm := imm } := by
  have h' := h
  simp only [Bool.and_eq_true, decide_eq_true_eq] at h'
  have h1 := fieldOk_le h'.1.1; have h2 := fieldOk_le h'.1.2
  have h3 : imm < 2 ^ 16 := Nat.lt_of_lt_of_le h'.2 (Nat.pow_le_pow_right (by decide) h16)
  have e1 : bits (2 ^ 26 * m + (2 ^ 21 * rd + 2 ^ 16 * ra + imm)) 31 26 = m := by rw [bits_eq]; omega
  have e2 : bits (2 ^ 26 * m + (2 ^ 21 * rd + 2 ^ 16 * ra + imm)) 25 21 = rd := by rw [bits_eq]; omega
  have e3 : bits (2 ^ 26 * m + (2 ^ 21 * rd + 2 ^ 16 * ra + imm)) 20 16 = ra := by rw [bits_eq]; omega
  have e4 : bits (2 ^ 26 * m + (2 ^ 21 * rd + 2 ^ 16 * ra + imm)) 15 0 = imm := by rw [bits_eq]; omega
  unfold decodeTile
  simp only [e1, e2, e3, e4]
  rw [if_neg hn.1, if_neg hn.2.1, if_neg hn.2.2.1, if_neg hn.2.2.2.1, if_neg hn.2.2.2.2.1, if_neg hn.2.2.2.2.2, row]
  simp only [h, if_true]

end Sys2Proof.Machine
end

