-- ==== Sys2Proof/Laws/Tab.lean ====
section
/-! SUPPORT. What a table and a byte memory read after each of their operations, and that every operation of a memory keeps its
canonical form. -/

namespace Sys2Proof

/-! ## Tables -/

@[simp] theorem Tab.look_nil {α : Type} (k : Nat) : Tab.look ([] : Tab α) k = none := rfl

theorem Tab.look_cons {α : Type} (i : Nat) (x : α) (t : Tab α) (k : Nat) : Tab.look ((i, x) :: t) k = if i = k then some x else Tab.look t k := rfl

theorem Tab.look_put {α : Type} (t : Tab α) (k j : Nat) (x : α) : Tab.look (t.put k x) j = if j = k then some x else t.look j := by
  induction t with
  | nil =>
    simp only [Tab.put, Tab.look_cons, Tab.look_nil]
    by_cases h : j = k
    · rw [if_pos h.symm, if_pos h]
    · rw [if_neg (fun e => h e.symm), if_neg h]
  | cons e t ih =>
    obtain ⟨i, y⟩ := e
    simp only [Tab.put]
    split
    · simp only [Tab.look_cons]
      by_cases h : j = k
      · rw [if_pos h.symm, if_pos h]
      · rw [if_neg (fun e => h e.symm), if_neg h]
    · split
      · simp only [Tab.look_cons]
        by_cases h : j = k
        · rw [if_pos h.symm, if_pos h]
        · rw [if_neg (fun e => h e.symm), if_neg h, if_neg (by omega)]
      · simp only [Tab.look_cons, ih]
        by_cases h : i = j
        · rw [if_pos h, if_neg (by omega), if_pos h]
        · rw [if_neg h, if_neg h]

@[simp] theorem Tab.look_put_same {α : Type} (t : Tab α) (k : Nat) (x : α) : Tab.look (t.put k x) k = some x := by simp [Tab.look_put]

theorem Tab.look_put_ne {α : Type} (t : Tab α) {k j : Nat} (x : α) (h : j ≠ k) : Tab.look (t.put k x) j = t.look j := by simp [Tab.look_put, h]

theorem Tab.val_put {α : Type} (t : Tab α) (k j : Nat) (x d : α) : Tab.val (t.put k x) j d = if j = k then x else t.val j d := by
  simp only [Tab.val, Tab.look_put]; split <;> rfl

@[simp] theorem Tab.val_put_same {α : Type} (t : Tab α) (k : Nat) (x d : α) : Tab.val (t.put k x) k d = x := by simp [Tab.val_put]

theorem Tab.val_put_ne {α : Type} (t : Tab α) {k j : Nat} (x d : α) (h : j ≠ k) : Tab.val (t.put k x) j d = t.val j d := by simp [Tab.val_put, h]

theorem Tab.look_upd {α : Type} (t : Tab α) (k j : Nat) (f : α → α) : Tab.look (t.upd k f) j = if j = k then (t.look j).map f else t.look j := by
  induction t with
  | nil => simp [Tab.upd]
  | cons e t ih =>
    obtain ⟨i, y⟩ := e
    have ih' : Tab.look (t.map (fun e => if e.1 = k then (e.1, f e.2) else e)) j = if j = k then (Tab.look t j).map f else Tab.look t j := ih
    simp only [Tab.upd, List.map_cons]
    by_cases hi : i = k
    · simp only [hi, if_true, Tab.look_cons, ih']
      by_cases hj : k = j
      · simp [hj]
      · have : j ≠ k := fun h => hj h.symm
        simp [hj, this]
    · simp only [hi, if_false, Tab.look_cons, ih']
      by_cases hj : i = j
      · have : j ≠ k := fun h => hi (hj.trans h)
        simp [hj, this]
      · simp [hj]

theorem Tab.look_updAll {α : Type} (t : Tab α) (f : Nat → α → α) (j : Nat) : Tab.look (t.updAll f) j = (t.look j).map (f j) := by
  induction t with
  | nil => rfl
  | cons e t ih =>
    obtain ⟨i, y⟩ := e
    have ih' : Tab.look (t.map (fun e => (e.1, f e.1 e.2))) j = (Tab.look t j).map (f j) := ih
    simp only [Tab.updAll, List.map_cons, Tab.look_cons, ih']
    split
    · next h => subst h; rfl
    · rfl

theorem Tab.look_del {α : Type} (t : Tab α) (k j : Nat) : Tab.look (t.del k) j = if j = k then none else t.look j := by
  induction t with
  | nil => simp [Tab.del]
  | cons e t ih =>
    obtain ⟨i, y⟩ := e
    have ih' : Tab.look (t.filter (fun e => e.1 != k)) j = if j = k then none else Tab.look t j := ih
    simp only [Tab.del, List.filter_cons]
    by_cases hi : i = k
    · simp only [hi, bne_self_eq_false, Bool.false_eq_true, if_false, ih', Tab.look_cons]
      by_cases hj : j = k
      · simp [hj]
      · have : ¬ k = j := fun h => hj h.symm
        simp [hj, this]
    · have : (i != k) = true := by simpa using hi
      simp only [this, if_true, Tab.look_cons, ih']
      by_cases hj : i = j
      · have : j ≠ k := fun h => hi (hj.trans h)
        simp [hj, this]
      · simp [hj]

end Sys2Proof

namespace Sys2Proof.Machine

open Sys2Proof

/-! ## Byte memories -/

theorem Mem.get_cons (i : Nat) (b : Byte) (m : Mem) (a : Nat) : Mem.get ((i, b) :: m) a = if i = a then b else Mem.get m a := rfl

/-- An address below every listed one reads as 0. -/
theorem Mem.get_below {lo a : Nat} {m : Mem} (h : Memory.wfFrom lo m = true) (ha : a < lo) : Mem.get m a = 0 := by
  induction m generalizing lo with
  | nil => rfl
  | cons e m ih =>
    obtain ⟨i, b⟩ := e
    simp only [Memory.wfFrom, Bool.and_eq_true, decide_eq_true_eq] at h
    rw [Mem.get_cons, if_neg (by omega)]
    exact ih h.2 (by omega)

theorem Memory.wfFrom_mono {lo hi : Nat} {m : Mem} (h : Memory.wfFrom hi m = true) (hl : lo ≤ hi) : Memory.wfFrom lo m = true := by
  cases m with
  | nil => rfl
  | cons e m =>
    obtain ⟨i, b⟩ := e
    simp only [Memory.wfFrom, Bool.and_eq_true, decide_eq_true_eq] at h ⊢
    exact ⟨⟨by omega, h.1.2⟩, h.2⟩

/-- Writing a byte keeps the canonical form. -/
theorem Memory.wfFrom_set {lo a : Nat} {m : Mem} (b : Byte) (h : Memory.wfFrom lo m = true) (ha : lo ≤ a) : Memory.wfFrom lo (Mem.set m a b) = true := by
  induction m generalizing lo with
  | nil =>
    by_cases hb : b = 0
    · rw [Mem.set, if_pos hb]; rfl
    · rw [Mem.set, if_neg hb]
      simp only [Memory.wfFrom, Bool.and_eq_true, decide_eq_true_eq]
      exact ⟨⟨ha, by simpa using hb⟩, trivial⟩
  | cons e m ih =>
    obtain ⟨i, c⟩ := e
    have h0 := h
    simp only [Memory.wfFrom, Bool.and_eq_true, decide_eq_true_eq] at h
    simp only [Mem.set]
    by_cases h1 : a < i
    · rw [if_pos h1]
      by_cases hb : b = 0
      · rw [if_pos hb]; exact h0
      · rw [if_neg hb]
        simp only [Memory.wfFrom, Bool.and_eq_true, decide_eq_true_eq]
        exact ⟨⟨ha, by simpa using hb⟩, ⟨by omega, h.1.2⟩, h.2⟩
    · rw [if_neg h1]
      by_cases h2 : a = i
      · rw [if_pos h2]
        by_cases hb : b = 0
        · rw [if_pos hb]; exact Memory.wfFrom_mono h.2 (by omega)
        · rw [if_neg hb]
          simp only [Memory.wfFrom, Bool.and_eq_true, decide_eq_true_eq]
          exact ⟨⟨ha, by simpa using hb⟩, by rw [h2]; exact h.2⟩
      · rw [if_neg h2]
        simp only [Memory.wfFrom, Bool.and_eq_true, decide_eq_true_eq]
        exact ⟨h.1, ih h.2 (by omega)⟩

theorem Memory.wf_set {m : Mem} (a : Nat) (b : Byte) (h : Memory.wf m = true) : Memory.wf (Mem.set m a b) = true :=
  Memory.wfFrom_set b h (Nat.zero_le a)

theorem Memory.wf_write {m : Mem} (a : Nat) (l : Bytes) (h : Memory.wf m = true) : Memory.wf (Mem.write m a l) = true := by
  induction l generalizing m a with
  | nil => exact h
  | cons b l ih => exact ih (a + 1) (Memory.wf_set a b h)

theorem Memory.wfFrom_filter {lo : Nat} {m : Mem} (p : Host.Cell → Bool) (h : Memory.wfFrom lo m = true) : Memory.wfFrom lo (m.filter p) = true := by
  induction m generalizing lo with
  | nil => rfl
  | cons e m ih =>
    obtain ⟨i, b⟩ := e
    simp only [Memory.wfFrom, Bool.and_eq_true, decide_eq_true_eq] at h
    rw [List.filter_cons]
    split
    · simp only [Memory.wfFrom, Bool.and_eq_true, decide_eq_true_eq]
      exact ⟨h.1, ih h.2⟩
    · exact Memory.wfFrom_mono (ih h.2) (by omega)

theorem Memory.wf_filter {m : Mem} (p : Host.Cell → Bool) (h : Memory.wf m = true) : Memory.wf (m.filter p) = true := Memory.wfFrom_filter p h

theorem Memory.wf_clear {m : Mem} (a n : Nat) (h : Memory.wf m = true) : Memory.wf (Mem.clear m a n) = true := Memory.wf_filter _ h

@[simp] theorem Memory.wf_nil : Memory.wf [] = true := rfl

/-- A read after a write of one byte, in a canonical memory. -/
theorem Mem.get_set_from {lo : Nat} {m : Mem} (h : Memory.wfFrom lo m = true) (a : Nat) (b : Byte) (k : Nat) :
    Mem.get (Mem.set m a b) k = if k = a then b else Mem.get m k := by
  induction m generalizing lo with
  | nil =>
    by_cases hb : b = 0
    · rw [Mem.set, if_pos hb, hb]; split <;> rfl
    · rw [Mem.set, if_neg hb, Mem.get_cons]
      by_cases hk : k = a
      · rw [if_pos hk, if_pos hk.symm]
      · rw [if_neg hk, if_neg (fun e => hk e.symm)]
  | cons e m ih =>
    obtain ⟨i, c⟩ := e
    have h0 := h
    simp only [Memory.wfFrom, Bool.and_eq_true, decide_eq_true_eq] at h
    simp only [Mem.set]
    by_cases h1 : a < i
    · rw [if_pos h1]
      by_cases hb : b = 0
      · rw [if_pos hb]
        by_cases hk : k = a
        · rw [if_pos hk, hk, hb, Mem.get_cons, if_neg (by omega)]
          exact Mem.get_below h.2 (by omega)
        · rw [if_neg hk]
      · rw [if_neg hb, Mem.get_cons]
        by_cases hk : a = k
        · simp [hk]
        · rw [if_neg hk, if_neg (fun e => hk e.symm)]
    · rw [if_neg h1]
      by_cases h2 : a = i
      · rw [if_pos h2]
        by_cases hb : b = 0
        · rw [if_pos hb]
          by_cases hk : k = a
          · rw [if_pos hk, hk, hb]; exact Mem.get_below h.2 (by omega)
          · rw [if_neg hk, Mem.get_cons, if_neg (by omega)]
        · rw [if_neg hb, Mem.get_cons, Mem.get_cons]
          by_cases hk : a = k
          · simp [hk]
          · rw [if_neg hk, if_neg (fun e => hk e.symm), if_neg (by omega)]
      · rw [if_neg h2, Mem.get_cons, Mem.get_cons, ih h.2]
        by_cases hi : i = k
        · rw [if_pos hi, if_neg (by omega), if_pos hi]
        · rw [if_neg hi, if_neg hi]

theorem Mem.get_set {m : Mem} (h : Memory.wf m = true) (a : Nat) (b : Byte) (k : Nat) : Mem.get (Mem.set m a b) k = if k = a then b else Mem.get m k :=
  Mem.get_set_from h a b k

/-- A byte after a write of a byte string, in a canonical memory. -/
theorem Mem.get_write {m : Mem} (h : Memory.wf m = true) (a : Nat) (l : Bytes) (k : Nat) :
    Mem.get (Mem.write m a l) k = if a ≤ k ∧ k < a + l.length then l.getD (k - a) 0 else Mem.get m k := by
  induction l generalizing m a with
  | nil => simp [Mem.write]
  | cons b l ih =>
    rw [Mem.write, ih (Memory.wf_set a b h), Mem.get_set h]
    by_cases h1 : k = a
    · subst h1; simp
    · by_cases h2 : a + 1 ≤ k ∧ k < a + 1 + l.length
      · rw [if_pos h2, if_pos (by simp only [List.length_cons]; omega)]
        obtain ⟨d, rfl⟩ : ∃ d, k = a + 1 + d := ⟨k - (a + 1), by omega⟩
        have : a + 1 + d - a = d + 1 := by omega
        rw [this, Nat.add_sub_cancel_left, List.getD_cons_succ]
      · rw [if_neg h2, if_neg h1, if_neg (by simp only [List.length_cons]; omega)]

end Sys2Proof.Machine
end

