-- ==== Sys2Proof/Laws/Events.lean ====
section
/-! SUPPORT. What the interrupt sources, vector messages, notices, the error log and the ends of operations leave alone. -/

namespace Sys2Proof.Machine

open Sys2Proof

/-- The state less what telling may change: messages out, interrupt controllers, mailboxes, the error log, vector pending bits, and, where a wake source brings
Spring, power, start, clock and Half Link. -/
def State.quietPart (s : State) : State :=
  { s with
    out := {}
    intcs := []
    mail := {}
    ladder := { s.ladder with log := [], logSeq := 0 }
    fns := []
    pwr := {}
    start := {}
    clk := {}
    hl := {} }

/-- A function as its messages leave it: the pending bits of its vectors apart. -/
def State.fnPart (s : State) (f : Nat) : Func := { s.fn f with vecPending := [] }

/-- Telling changed nothing else, and, while the control processors' clock runs or outside Winter and Autumn, neither power, start, clock nor Half Link. -/
def State.Told (s s' : State) : Prop :=
  s'.quietPart = s.quietPart ∧ (∀ f, s'.fnPart f = s.fnPart f) ∧
  ((s.pwr.cpClock = true ∨ (s.pwr.state ≠ 0 ∧ s.pwr.state ≠ 3)) → s'.pwr = s.pwr ∧ s'.start = s.start ∧ s'.clk = s.clk ∧ s'.hl = s.hl)

theorem State.Told.refl (s : State) : s.Told s := ⟨rfl, fun _ => rfl, fun _ => ⟨rfl, rfl, rfl, rfl⟩⟩

theorem State.Told.trans {a b c : State} (h : a.Told b) (g : b.Told c) : a.Told c := by
  refine ⟨g.1.trans h.1, fun f => (g.2.1 f).trans (h.2.1 f), fun e => ?_⟩
  obtain ⟨h1, h2, h3, h4⟩ := h.2.2 e
  obtain ⟨g1, g2, g3, g4⟩ := g.2.2 (by rw [h1]; exact e)
  exact ⟨g1.trans h1, g2.trans h2, g3.trans h3, g4.trans h4⟩

/-- What a change of messages, controllers, mailboxes or the log alone is. -/
theorem State.told_of {s s' : State} (h : s'.quietPart = s.quietPart) (f : s'.fns = s.fns) (p : s'.pwr = s.pwr) (a : s'.start = s.start) (c : s'.clk = s.clk)
    (l : s'.hl = s.hl) : s.Told s' :=
  ⟨h, fun k => by simp only [State.fnPart, State.fn, f], fun _ => ⟨p, a, c, l⟩⟩

/-! ## Each operation that tells -/

theorem setIntc_told (s : State) (h : Nat) (x : Intc) : s.Told (s.setIntc h x) := State.told_of rfl rfl rfl rfl rfl rfl

theorem setBox_told (s : State) (m : Mbox) (x : MailRegs) : s.Told (s.setBox m x) := State.told_of rfl rfl rfl rfl rfl rfl

theorem emit_told (s : State) (m : UpMsg) : s.Told (s.emit m) := State.told_of rfl rfl rfl rfl rfl rfl

theorem logEvent_ladder (e : LogEntry) (s : State) : ∃ q l, logEvent e s = { s with ladder := { s.ladder with logSeq := q, log := l } } := ⟨_, _, rfl⟩

theorem logEvent_told (e : LogEntry) (s : State) : s.Told (logEvent e s) := by
  obtain ⟨q, l, h⟩ := logEvent_ladder e s
  rw [h]
  exact State.told_of rfl rfl rfl rfl rfl rfl

theorem beginSpring_quiet (src : Nat) (s : State) : (beginSpring src s).quietPart = s.quietPart := by
  by_cases h0 : s.pwr.state = 0
  · have e : beginSpring src s = _ := if_pos h0
    rw [e]; rfl
  · by_cases h3 : s.pwr.state = 3
    · have e : beginSpring src s = _ := (if_neg h0).trans (if_pos h3)
      rw [e]; rfl
    · have e : beginSpring src s = s := (if_neg h0).trans (if_neg h3)
      rw [e]

theorem beginSpring_fns (src : Nat) (s : State) : (beginSpring src s).fns = s.fns := by
  unfold beginSpring; split
  · rfl
  · split <;> rfl

theorem beginSpring_none (src : Nat) (s : State) (h0 : s.pwr.state ≠ 0) (h3 : s.pwr.state ≠ 3) : beginSpring src s = s := by
  unfold beginSpring; rw [if_neg h0, if_neg h3]

theorem beginSpring_told (src : Nat) (s : State) (hs : s.pwr.cpClock = false) : s.Told (beginSpring src s) := by
  refine ⟨beginSpring_quiet src s, fun f => ?_, fun e => ?_⟩
  · simp only [State.fnPart, State.fn, beginSpring_fns]
  · rcases e with e | e
    · exact absurd (e.symm.trans hs) (by decide)
    · rw [beginSpring_none src s e.1 e.2]; exact ⟨rfl, rfl, rfl, rfl⟩

theorem latchWake_told (h n : Nat) (s : State) (hs : s.pwr.cpClock = false) : s.Told (latchWake h n s) := by
  unfold latchWake; dsimp only; split
  · exact (setIntc_told s h _).trans (beginSpring_told n _ hs)
  · exact State.Told.refl s

theorem intcEdge_told (h key : Nat) (s : State) : s.Told (intcEdge h key s) := by
  unfold intcEdge; dsimp only
  by_cases hc : s.pwr.cpClock = true
  · rw [hc, if_neg (by decide)]
    split
    · exact State.Told.refl s
    · have key : ∀ b : Bool, s.Told (if b = true then s else if (s.intc h).inService key = true then
            s.setIntc h { s.intc h with
              srcs := (s.intc h).srcs.put key { (s.intc h).srcs.val key {} with edgeAt := some s.clk.cycle, lost := true }
              lostCount := sat 16 ((s.intc h).lostCount + 1) }
          else s.setIntc h { s.intc h with srcs := (s.intc h).srcs.put key { (s.intc h).srcs.val key {} with edgeAt := some s.clk.cycle, pend := true } }) := by
        intro b
        split
        · exact State.Told.refl s
        · split <;> exact setIntc_told s h _
      exact key _
  · rw [if_pos (by simpa using hc)]
    exact latchWake_told h _ s (by simpa using hc)

theorem intcLevel_told (h key : Nat) (active : Bool) (s : State) : s.Told (intcLevel h key active s) := by
  unfold intcLevel; dsimp only; split
  · next e =>
    refine (setIntc_told s h _).trans (latchWake_told h _ _ ?_)
    simp only [Bool.and_eq_true, Bool.not_eq_true'] at e
    exact e.2
  · split
    · exact (setIntc_told s h _).trans (intcEdge_told h key _)
    · exact setIntc_told s h _

theorem intcBoth_told (n : Nat) (s : State) : s.Told (intcBoth n s) := (intcEdge_told _ _ _).trans (intcEdge_told _ _ _)
theorem intcBothLevel_told (n : Nat) (a : Bool) (s : State) : s.Told (intcBothLevel n a s) := (intcLevel_told _ _ _ _).trans (intcLevel_told _ _ _ _)
theorem intcHalf_told (h n : Nat) (s : State) : s.Told (intcHalf h n s) := intcEdge_told _ _ _
theorem intcAttention_told (h : Nat) (s : State) : s.Told (intcAttention h s) := by
  unfold intcAttention; exact (intcLevel_told _ _ _ _).trans (intcLevel_told _ _ _ _)

theorem msix_told (f v : Nat) (s : State) : s.Told (msix f v s) := by
  unfold msix; dsimp only; split
  · exact emit_told s _
  · refine ⟨rfl, fun k => ?_, fun _ => ⟨rfl, rfl, rfl, rfl⟩⟩
    simp only [State.fnPart, State.fn, State.modFn, State.setFn, Tab.val_put]
    split
    · next e => subst e; rfl
    · rfl

theorem notice_told (m : Mbox) (kind : Nat) (data : Bytes) (s : State) : s.Told (notice m kind data s) := by
  unfold notice; dsimp only; split
  · exact State.Told.refl s
  · split
    · exact (setBox_told s m _).trans (emit_told _ _)
    · split
      · exact setBox_told s m _
      · split
        · exact (setBox_told s m _).trans (msix_told _ _ _)
        · exact setBox_told s m _

theorem noticeHost_told (kind : Nat) (data : Bytes) (s : State) : s.Told (noticeHost kind data s) := (notice_told _ _ _ _).trans (notice_told _ _ _ _)
theorem noticeVf_told (v st : Nat) (s : State) : s.Told (noticeVf v st s) := noticeHost_told _ _ _
theorem noticeJob_told (j st d : Nat) (s : State) : s.Told (noticeJob j st d s) := noticeHost_told _ _ _
theorem noticePart_told (p : Nat) (s : State) : s.Told (noticePart p s) := noticeHost_told _ _ _
theorem noticeHealth_told (t e : Nat) (s : State) : s.Told (noticeHealth t e s) := noticeHost_told _ _ _
theorem noticePower_told (s : State) : s.Told (noticePower s) := noticeHost_told _ _ _
theorem noticeFabric_told (p e : Nat) (s : State) : s.Told (noticeFabric p e s) := by
  unfold noticeFabric; split
  · exact (intcBothLevel_told _ _ _).trans (noticeHost_told _ _ _)
  · exact noticeHost_told _ _ _

theorem deliverOp_told (op rc d : Nat) (s : State) : s.Told (deliverOp op rc d s) := by
  unfold deliverOp; split
  · exact State.Told.refl s
  · split
    · exact State.Told.refl s
    · exact State.Told.trans (State.told_of rfl rfl rfl rfl rfl rfl) (notice_told _ _ _ _)

theorem endOp_told (op rc d : Nat) (s : State) : s.Told (endOp op rc d s) := by
  unfold endOp; split
  · exact State.Told.refl s
  · split
    · exact deliverOp_told _ _ _ _
    · exact State.Told.refl s

theorem endOpOf_told (op : Option Nat) (rc d : Nat) (s : State) : s.Told (endOpOf op rc d s) := by
  unfold endOpOf; split
  · exact endOp_told _ _ _ _
  · exact State.Told.refl s

/-! ## What telling leaves, part by part -/

theorem State.Told.rest {s s' : State} (h : s.Told s') :
    s'.pending = s.pending ∧ s'.ident = s.ident ∧ s'.pins = s.pins ∧ s'.cfg = s.cfg ∧ s'.svcGrants = s.svcGrants ∧ s'.stepLimit = s.stepLimit ∧ s'.qps = s.qps ∧
      s'.qfes = s.qfes ∧ s'.fslots = s.fslots ∧ s'.xlat = s.xlat ∧ s'.invs = s.invs ∧ s'.preqs = s.preqs ∧ s'.pkts = s.pkts ∧ s'.nextPkt = s.nextPkt ∧
      s'.outbox = s.outbox ∧ s'.seqs = s.seqs ∧ s'.buildMax = s.buildMax ∧ s'.parts = s.parts ∧ s'.jobs = s.jobs ∧ s'.loads = s.loads ∧ s'.tiles = s.tiles ∧
      s'.mem = s.mem ∧ s'.ports = s.ports ∧ s'.alm = s.alm ∧ s'.solvers = s.solvers ∧ s'.health = s.health ∧ s'.probes = s.probes ∧ s'.sec = s.sec ∧
      s'.dbg = s.dbg ∧ s'.regs = s.regs ∧ s'.fresh = s.fresh := by
  have g := h.1
  exact ⟨(congrArg State.pending g :), (congrArg State.ident g :), (congrArg State.pins g :), (congrArg State.cfg g :), (congrArg State.svcGrants g :), (congrArg State.stepLimit g :),
    (congrArg State.qps g :), (congrArg State.qfes g :), (congrArg State.fslots g :), (congrArg State.xlat g :), (congrArg State.invs g :), (congrArg State.preqs g :),
    (congrArg State.pkts g :), (congrArg State.nextPkt g :), (congrArg State.outbox g :), (congrArg State.seqs g :), (congrArg State.buildMax g :), (congrArg State.parts g :),
    (congrArg State.jobs g :), (congrArg State.loads g :), (congrArg State.tiles g :), (congrArg State.mem g :), (congrArg State.ports g :), (congrArg State.alm g :),
    (congrArg State.solvers g :), (congrArg State.health g :), (congrArg State.probes g :), (congrArg State.sec g :), (congrArg State.dbg g :), (congrArg State.regs g :), (congrArg State.fresh g :)⟩

end Sys2Proof.Machine
end

