-- ==== Sys2Proof/Laws/State.lean ====
section
/-! SUPPORT. One lemma per update of the state: each field after it, by definition. -/

namespace Sys2Proof.Machine

open Sys2Proof

@[simp] theorem State.setTile_fields (s : State) (p : Nat) (x : Tile) :
    (s.setTile p x).pending = s.pending ∧ (s.setTile p x).ident = s.ident ∧ (s.setTile p x).pins = s.pins ∧ (s.setTile p x).clk = s.clk ∧
      (s.setTile p x).start = s.start ∧ (s.setTile p x).pwr = s.pwr ∧ (s.setTile p x).ladder = s.ladder ∧ (s.setTile p x).cfg = s.cfg ∧
      (s.setTile p x).fns = s.fns ∧ (s.setTile p x).svcGrants = s.svcGrants ∧ (s.setTile p x).stepLimit = s.stepLimit ∧
      (s.setTile p x).qps = s.qps ∧ (s.setTile p x).qfes = s.qfes ∧ (s.setTile p x).fslots = s.fslots ∧ (s.setTile p x).xlat = s.xlat ∧
      (s.setTile p x).invs = s.invs ∧ (s.setTile p x).preqs = s.preqs ∧ (s.setTile p x).pkts = s.pkts ∧ (s.setTile p x).nextPkt = s.nextPkt ∧
      (s.setTile p x).outbox = s.outbox ∧ (s.setTile p x).seqs = s.seqs ∧ (s.setTile p x).buildMax = s.buildMax ∧
      (s.setTile p x).parts = s.parts ∧ (s.setTile p x).jobs = s.jobs ∧ (s.setTile p x).loads = s.loads ∧
      (s.setTile p x).tiles = s.tiles.put p x ∧ (s.setTile p x).hl = s.hl ∧ (s.setTile p x).mem = s.mem ∧ (s.setTile p x).ports = s.ports ∧
      (s.setTile p x).alm = s.alm ∧ (s.setTile p x).solvers = s.solvers ∧ (s.setTile p x).intcs = s.intcs ∧ (s.setTile p x).health = s.health ∧
      (s.setTile p x).probes = s.probes ∧ (s.setTile p x).mail = s.mail ∧ (s.setTile p x).sec = s.sec ∧ (s.setTile p x).dbg = s.dbg ∧
      (s.setTile p x).regs = s.regs ∧ (s.setTile p x).out = s.out ∧ (s.setTile p x).fresh = s.fresh := by
  refine ⟨rfl, rfl, rfl, rfl, rfl, rfl, rfl, rfl, rfl, rfl, rfl, rfl, rfl, rfl, rfl, rfl, rfl, rfl, rfl, rfl, rfl, rfl, rfl, rfl, rfl, rfl, rfl, rfl, rfl, rfl, rfl, rfl, rfl, rfl, rfl, rfl, rfl, rfl, rfl, rfl⟩

@[simp] theorem State.modTile_fields (s : State) (p : Nat) (f : Tile → Tile) :
    (s.modTile p f).pending = s.pending ∧ (s.modTile p f).ident = s.ident ∧ (s.modTile p f).pins = s.pins ∧ (s.modTile p f).clk = s.clk ∧
      (s.modTile p f).start = s.start ∧ (s.modTile p f).pwr = s.pwr ∧ (s.modTile p f).ladder = s.ladder ∧ (s.modTile p f).cfg = s.cfg ∧
      (s.modTile p f).fns = s.fns ∧ (s.modTile p f).svcGrants = s.svcGrants ∧ (s.modTile p f).stepLimit = s.stepLimit ∧
      (s.modTile p f).qps = s.qps ∧ (s.modTile p f).qfes = s.qfes ∧ (s.modTile p f).fslots = s.fslots ∧ (s.modTile p f).xlat = s.xlat ∧
      (s.modTile p f).invs = s.invs ∧ (s.modTile p f).preqs = s.preqs ∧ (s.modTile p f).pkts = s.pkts ∧ (s.modTile p f).nextPkt = s.nextPkt ∧
      (s.modTile p f).outbox = s.outbox ∧ (s.modTile p f).seqs = s.seqs ∧ (s.modTile p f).buildMax = s.buildMax ∧
      (s.modTile p f).parts = s.parts ∧ (s.modTile p f).jobs = s.jobs ∧ (s.modTile p f).loads = s.loads ∧
      (s.modTile p f).tiles = s.tiles.put p (f (s.tile p)) ∧ (s.modTile p f).hl = s.hl ∧ (s.modTile p f).mem = s.mem ∧
      (s.modTile p f).ports = s.ports ∧ (s.modTile p f).alm = s.alm ∧ (s.modTile p f).solvers = s.solvers ∧ (s.modTile p f).intcs = s.intcs ∧
      (s.modTile p f).health = s.health ∧ (s.modTile p f).probes = s.probes ∧ (s.modTile p f).mail = s.mail ∧ (s.modTile p f).sec = s.sec ∧
      (s.modTile p f).dbg = s.dbg ∧ (s.modTile p f).regs = s.regs ∧ (s.modTile p f).out = s.out ∧ (s.modTile p f).fresh = s.fresh := by
  refine ⟨rfl, rfl, rfl, rfl, rfl, rfl, rfl, rfl, rfl, rfl, rfl, rfl, rfl, rfl, rfl, rfl, rfl, rfl, rfl, rfl, rfl, rfl, rfl, rfl, rfl, rfl, rfl, rfl, rfl, rfl, rfl, rfl, rfl, rfl, rfl, rfl, rfl, rfl, rfl, rfl⟩

@[simp] theorem State.setPart_fields (s : State) (p : Nat) (x : Part) :
    (s.setPart p x).pending = s.pending ∧ (s.setPart p x).ident = s.ident ∧ (s.setPart p x).pins = s.pins ∧ (s.setPart p x).clk = s.clk ∧
      (s.setPart p x).start = s.start ∧ (s.setPart p x).pwr = s.pwr ∧ (s.setPart p x).ladder = s.ladder ∧ (s.setPart p x).cfg = s.cfg ∧
      (s.setPart p x).fns = s.fns ∧ (s.setPart p x).svcGrants = s.svcGrants ∧ (s.setPart p x).stepLimit = s.stepLimit ∧
      (s.setPart p x).qps = s.qps ∧ (s.setPart p x).qfes = s.qfes ∧ (s.setPart p x).fslots = s.fslots ∧ (s.setPart p x).xlat = s.xlat ∧
      (s.setPart p x).invs = s.invs ∧ (s.setPart p x).preqs = s.preqs ∧ (s.setPart p x).pkts = s.pkts ∧ (s.setPart p x).nextPkt = s.nextPkt ∧
      (s.setPart p x).outbox = s.outbox ∧ (s.setPart p x).seqs = s.seqs ∧ (s.setPart p x).buildMax = s.buildMax ∧
      (s.setPart p x).parts = s.parts.put p x ∧ (s.setPart p x).jobs = s.jobs ∧ (s.setPart p x).loads = s.loads ∧
      (s.setPart p x).tiles = s.tiles ∧ (s.setPart p x).hl = s.hl ∧ (s.setPart p x).mem = s.mem ∧ (s.setPart p x).ports = s.ports ∧
      (s.setPart p x).alm = s.alm ∧ (s.setPart p x).solvers = s.solvers ∧ (s.setPart p x).intcs = s.intcs ∧ (s.setPart p x).health = s.health ∧
      (s.setPart p x).probes = s.probes ∧ (s.setPart p x).mail = s.mail ∧ (s.setPart p x).sec = s.sec ∧ (s.setPart p x).dbg = s.dbg ∧
      (s.setPart p x).regs = s.regs ∧ (s.setPart p x).out = s.out ∧ (s.setPart p x).fresh = s.fresh := by
  refine ⟨rfl, rfl, rfl, rfl, rfl, rfl, rfl, rfl, rfl, rfl, rfl, rfl, rfl, rfl, rfl, rfl, rfl, rfl, rfl, rfl, rfl, rfl, rfl, rfl, rfl, rfl, rfl, rfl, rfl, rfl, rfl, rfl, rfl, rfl, rfl, rfl, rfl, rfl, rfl, rfl⟩

@[simp] theorem State.modPart_fields (s : State) (p : Nat) (f : Part → Part) :
    (s.modPart p f).pending = s.pending ∧ (s.modPart p f).ident = s.ident ∧ (s.modPart p f).pins = s.pins ∧ (s.modPart p f).clk = s.clk ∧
      (s.modPart p f).start = s.start ∧ (s.modPart p f).pwr = s.pwr ∧ (s.modPart p f).ladder = s.ladder ∧ (s.modPart p f).cfg = s.cfg ∧
      (s.modPart p f).fns = s.fns ∧ (s.modPart p f).svcGrants = s.svcGrants ∧ (s.modPart p f).stepLimit = s.stepLimit ∧
      (s.modPart p f).qps = s.qps ∧ (s.modPart p f).qfes = s.qfes ∧ (s.modPart p f).fslots = s.fslots ∧ (s.modPart p f).xlat = s.xlat ∧
      (s.modPart p f).invs = s.invs ∧ (s.modPart p f).preqs = s.preqs ∧ (s.modPart p f).pkts = s.pkts ∧ (s.modPart p f).nextPkt = s.nextPkt ∧
      (s.modPart p f).outbox = s.outbox ∧ (s.modPart p f).seqs = s.seqs ∧ (s.modPart p f).buildMax = s.buildMax ∧
      (s.modPart p f).parts = s.parts.upd p f ∧ (s.modPart p f).jobs = s.jobs ∧ (s.modPart p f).loads = s.loads ∧
      (s.modPart p f).tiles = s.tiles ∧ (s.modPart p f).hl = s.hl ∧ (s.modPart p f).mem = s.mem ∧ (s.modPart p f).ports = s.ports ∧
      (s.modPart p f).alm = s.alm ∧ (s.modPart p f).solvers = s.solvers ∧ (s.modPart p f).intcs = s.intcs ∧ (s.modPart p f).health = s.health ∧
      (s.modPart p f).probes = s.probes ∧ (s.modPart p f).mail = s.mail ∧ (s.modPart p f).sec = s.sec ∧ (s.modPart p f).dbg = s.dbg ∧
      (s.modPart p f).regs = s.regs ∧ (s.modPart p f).out = s.out ∧ (s.modPart p f).fresh = s.fresh := by
  refine ⟨rfl, rfl, rfl, rfl, rfl, rfl, rfl, rfl, rfl, rfl, rfl, rfl, rfl, rfl, rfl, rfl, rfl, rfl, rfl, rfl, rfl, rfl, rfl, rfl, rfl, rfl, rfl, rfl, rfl, rfl, rfl, rfl, rfl, rfl, rfl, rfl, rfl, rfl, rfl, rfl⟩

@[simp] theorem State.setJob_fields (s : State) (j : Nat) (x : Job) :
    (s.setJob j x).pending = s.pending ∧ (s.setJob j x).ident = s.ident ∧ (s.setJob j x).pins = s.pins ∧ (s.setJob j x).clk = s.clk ∧
      (s.setJob j x).start = s.start ∧ (s.setJob j x).pwr = s.pwr ∧ (s.setJob j x).ladder = s.ladder ∧ (s.setJob j x).cfg = s.cfg ∧
      (s.setJob j x).fns = s.fns ∧ (s.setJob j x).svcGrants = s.svcGrants ∧ (s.setJob j x).stepLimit = s.stepLimit ∧ (s.setJob j x).qps = s.qps ∧
      (s.setJob j x).qfes = s.qfes ∧ (s.setJob j x).fslots = s.fslots ∧ (s.setJob j x).xlat = s.xlat ∧ (s.setJob j x).invs = s.invs ∧
      (s.setJob j x).preqs = s.preqs ∧ (s.setJob j x).pkts = s.pkts ∧ (s.setJob j x).nextPkt = s.nextPkt ∧ (s.setJob j x).outbox = s.outbox ∧
      (s.setJob j x).seqs = s.seqs ∧ (s.setJob j x).buildMax = s.buildMax ∧ (s.setJob j x).parts = s.parts ∧
      (s.setJob j x).jobs = s.jobs.put j x ∧ (s.setJob j x).loads = s.loads ∧ (s.setJob j x).tiles = s.tiles ∧ (s.setJob j x).hl = s.hl ∧
      (s.setJob j x).mem = s.mem ∧ (s.setJob j x).ports = s.ports ∧ (s.setJob j x).alm = s.alm ∧ (s.setJob j x).solvers = s.solvers ∧
      (s.setJob j x).intcs = s.intcs ∧ (s.setJob j x).health = s.health ∧ (s.setJob j x).probes = s.probes ∧ (s.setJob j x).mail = s.mail ∧
      (s.setJob j x).sec = s.sec ∧ (s.setJob j x).dbg = s.dbg ∧ (s.setJob j x).regs = s.regs ∧ (s.setJob j x).out = s.out ∧
      (s.setJob j x).fresh = s.fresh := by
  refine ⟨rfl, rfl, rfl, rfl, rfl, rfl, rfl, rfl, rfl, rfl, rfl, rfl, rfl, rfl, rfl, rfl, rfl, rfl, rfl, rfl, rfl, rfl, rfl, rfl, rfl, rfl, rfl, rfl, rfl, rfl, rfl, rfl, rfl, rfl, rfl, rfl, rfl, rfl, rfl, rfl⟩

@[simp] theorem State.modJob_fields (s : State) (j : Nat) (f : Job → Job) :
    (s.modJob j f).pending = s.pending ∧ (s.modJob j f).ident = s.ident ∧ (s.modJob j f).pins = s.pins ∧ (s.modJob j f).clk = s.clk ∧
      (s.modJob j f).start = s.start ∧ (s.modJob j f).pwr = s.pwr ∧ (s.modJob j f).ladder = s.ladder ∧ (s.modJob j f).cfg = s.cfg ∧
      (s.modJob j f).fns = s.fns ∧ (s.modJob j f).svcGrants = s.svcGrants ∧ (s.modJob j f).stepLimit = s.stepLimit ∧ (s.modJob j f).qps = s.qps ∧
      (s.modJob j f).qfes = s.qfes ∧ (s.modJob j f).fslots = s.fslots ∧ (s.modJob j f).xlat = s.xlat ∧ (s.modJob j f).invs = s.invs ∧
      (s.modJob j f).preqs = s.preqs ∧ (s.modJob j f).pkts = s.pkts ∧ (s.modJob j f).nextPkt = s.nextPkt ∧ (s.modJob j f).outbox = s.outbox ∧
      (s.modJob j f).seqs = s.seqs ∧ (s.modJob j f).buildMax = s.buildMax ∧ (s.modJob j f).parts = s.parts ∧
      (s.modJob j f).jobs = s.jobs.upd j f ∧ (s.modJob j f).loads = s.loads ∧ (s.modJob j f).tiles = s.tiles ∧ (s.modJob j f).hl = s.hl ∧
      (s.modJob j f).mem = s.mem ∧ (s.modJob j f).ports = s.ports ∧ (s.modJob j f).alm = s.alm ∧ (s.modJob j f).solvers = s.solvers ∧
      (s.modJob j f).intcs = s.intcs ∧ (s.modJob j f).health = s.health ∧ (s.modJob j f).probes = s.probes ∧ (s.modJob j f).mail = s.mail ∧
      (s.modJob j f).sec = s.sec ∧ (s.modJob j f).dbg = s.dbg ∧ (s.modJob j f).regs = s.regs ∧ (s.modJob j f).out = s.out ∧
      (s.modJob j f).fresh = s.fresh := by
  refine ⟨rfl, rfl, rfl, rfl, rfl, rfl, rfl, rfl, rfl, rfl, rfl, rfl, rfl, rfl, rfl, rfl, rfl, rfl, rfl, rfl, rfl, rfl, rfl, rfl, rfl, rfl, rfl, rfl, rfl, rfl, rfl, rfl, rfl, rfl, rfl, rfl, rfl, rfl, rfl, rfl⟩

@[simp] theorem State.setQp_fields (s : State) (k : Nat) (x : QueuePair) :
    (s.setQp k x).pending = s.pending ∧ (s.setQp k x).ident = s.ident ∧ (s.setQp k x).pins = s.pins ∧ (s.setQp k x).clk = s.clk ∧
      (s.setQp k x).start = s.start ∧ (s.setQp k x).pwr = s.pwr ∧ (s.setQp k x).ladder = s.ladder ∧ (s.setQp k x).cfg = s.cfg ∧
      (s.setQp k x).fns = s.fns ∧ (s.setQp k x).svcGrants = s.svcGrants ∧ (s.setQp k x).stepLimit = s.stepLimit ∧
      (s.setQp k x).qps = s.qps.put k x ∧ (s.setQp k x).qfes = s.qfes ∧ (s.setQp k x).fslots = s.fslots ∧ (s.setQp k x).xlat = s.xlat ∧
      (s.setQp k x).invs = s.invs ∧ (s.setQp k x).preqs = s.preqs ∧ (s.setQp k x).pkts = s.pkts ∧ (s.setQp k x).nextPkt = s.nextPkt ∧
      (s.setQp k x).outbox = s.outbox ∧ (s.setQp k x).seqs = s.seqs ∧ (s.setQp k x).buildMax = s.buildMax ∧ (s.setQp k x).parts = s.parts ∧
      (s.setQp k x).jobs = s.jobs ∧ (s.setQp k x).loads = s.loads ∧ (s.setQp k x).tiles = s.tiles ∧ (s.setQp k x).hl = s.hl ∧
      (s.setQp k x).mem = s.mem ∧ (s.setQp k x).ports = s.ports ∧ (s.setQp k x).alm = s.alm ∧ (s.setQp k x).solvers = s.solvers ∧
      (s.setQp k x).intcs = s.intcs ∧ (s.setQp k x).health = s.health ∧ (s.setQp k x).probes = s.probes ∧ (s.setQp k x).mail = s.mail ∧
      (s.setQp k x).sec = s.sec ∧ (s.setQp k x).dbg = s.dbg ∧ (s.setQp k x).regs = s.regs ∧ (s.setQp k x).out = s.out ∧
      (s.setQp k x).fresh = s.fresh := by
  refine ⟨rfl, rfl, rfl, rfl, rfl, rfl, rfl, rfl, rfl, rfl, rfl, rfl, rfl, rfl, rfl, rfl, rfl, rfl, rfl, rfl, rfl, rfl, rfl, rfl, rfl, rfl, rfl, rfl, rfl, rfl, rfl, rfl, rfl, rfl, rfl, rfl, rfl, rfl, rfl, rfl⟩

@[simp] theorem State.modQp_fields (s : State) (k : Nat) (f : QueuePair → QueuePair) :
    (s.modQp k f).pending = s.pending ∧ (s.modQp k f).ident = s.ident ∧ (s.modQp k f).pins = s.pins ∧ (s.modQp k f).clk = s.clk ∧
      (s.modQp k f).start = s.start ∧ (s.modQp k f).pwr = s.pwr ∧ (s.modQp k f).ladder = s.ladder ∧ (s.modQp k f).cfg = s.cfg ∧
      (s.modQp k f).fns = s.fns ∧ (s.modQp k f).svcGrants = s.svcGrants ∧ (s.modQp k f).stepLimit = s.stepLimit ∧
      (s.modQp k f).qps = s.qps.upd k f ∧ (s.modQp k f).qfes = s.qfes ∧ (s.modQp k f).fslots = s.fslots ∧ (s.modQp k f).xlat = s.xlat ∧
      (s.modQp k f).invs = s.invs ∧ (s.modQp k f).preqs = s.preqs ∧ (s.modQp k f).pkts = s.pkts ∧ (s.modQp k f).nextPkt = s.nextPkt ∧
      (s.modQp k f).outbox = s.outbox ∧ (s.modQp k f).seqs = s.seqs ∧ (s.modQp k f).buildMax = s.buildMax ∧ (s.modQp k f).parts = s.parts ∧
      (s.modQp k f).jobs = s.jobs ∧ (s.modQp k f).loads = s.loads ∧ (s.modQp k f).tiles = s.tiles ∧ (s.modQp k f).hl = s.hl ∧
      (s.modQp k f).mem = s.mem ∧ (s.modQp k f).ports = s.ports ∧ (s.modQp k f).alm = s.alm ∧ (s.modQp k f).solvers = s.solvers ∧
      (s.modQp k f).intcs = s.intcs ∧ (s.modQp k f).health = s.health ∧ (s.modQp k f).probes = s.probes ∧ (s.modQp k f).mail = s.mail ∧
      (s.modQp k f).sec = s.sec ∧ (s.modQp k f).dbg = s.dbg ∧ (s.modQp k f).regs = s.regs ∧ (s.modQp k f).out = s.out ∧
      (s.modQp k f).fresh = s.fresh := by
  refine ⟨rfl, rfl, rfl, rfl, rfl, rfl, rfl, rfl, rfl, rfl, rfl, rfl, rfl, rfl, rfl, rfl, rfl, rfl, rfl, rfl, rfl, rfl, rfl, rfl, rfl, rfl, rfl, rfl, rfl, rfl, rfl, rfl, rfl, rfl, rfl, rfl, rfl, rfl, rfl, rfl⟩

@[simp] theorem State.setFn_fields (s : State) (f : Nat) (x : Func) :
    (s.setFn f x).pending = s.pending ∧ (s.setFn f x).ident = s.ident ∧ (s.setFn f x).pins = s.pins ∧ (s.setFn f x).clk = s.clk ∧
      (s.setFn f x).start = s.start ∧ (s.setFn f x).pwr = s.pwr ∧ (s.setFn f x).ladder = s.ladder ∧ (s.setFn f x).cfg = s.cfg ∧
      (s.setFn f x).fns = s.fns.put f x ∧ (s.setFn f x).svcGrants = s.svcGrants ∧ (s.setFn f x).stepLimit = s.stepLimit ∧
      (s.setFn f x).qps = s.qps ∧ (s.setFn f x).qfes = s.qfes ∧ (s.setFn f x).fslots = s.fslots ∧ (s.setFn f x).xlat = s.xlat ∧
      (s.setFn f x).invs = s.invs ∧ (s.setFn f x).preqs = s.preqs ∧ (s.setFn f x).pkts = s.pkts ∧ (s.setFn f x).nextPkt = s.nextPkt ∧
      (s.setFn f x).outbox = s.outbox ∧ (s.setFn f x).seqs = s.seqs ∧ (s.setFn f x).buildMax = s.buildMax ∧ (s.setFn f x).parts = s.parts ∧
      (s.setFn f x).jobs = s.jobs ∧ (s.setFn f x).loads = s.loads ∧ (s.setFn f x).tiles = s.tiles ∧ (s.setFn f x).hl = s.hl ∧
      (s.setFn f x).mem = s.mem ∧ (s.setFn f x).ports = s.ports ∧ (s.setFn f x).alm = s.alm ∧ (s.setFn f x).solvers = s.solvers ∧
      (s.setFn f x).intcs = s.intcs ∧ (s.setFn f x).health = s.health ∧ (s.setFn f x).probes = s.probes ∧ (s.setFn f x).mail = s.mail ∧
      (s.setFn f x).sec = s.sec ∧ (s.setFn f x).dbg = s.dbg ∧ (s.setFn f x).regs = s.regs ∧ (s.setFn f x).out = s.out ∧
      (s.setFn f x).fresh = s.fresh := by
  refine ⟨rfl, rfl, rfl, rfl, rfl, rfl, rfl, rfl, rfl, rfl, rfl, rfl, rfl, rfl, rfl, rfl, rfl, rfl, rfl, rfl, rfl, rfl, rfl, rfl, rfl, rfl, rfl, rfl, rfl, rfl, rfl, rfl, rfl, rfl, rfl, rfl, rfl, rfl, rfl, rfl⟩

@[simp] theorem State.modFn_fields (s : State) (f : Nat) (g : Func → Func) :
    (s.modFn f g).pending = s.pending ∧ (s.modFn f g).ident = s.ident ∧ (s.modFn f g).pins = s.pins ∧ (s.modFn f g).clk = s.clk ∧
      (s.modFn f g).start = s.start ∧ (s.modFn f g).pwr = s.pwr ∧ (s.modFn f g).ladder = s.ladder ∧ (s.modFn f g).cfg = s.cfg ∧
      (s.modFn f g).fns = s.fns.put f (g (s.fn f)) ∧ (s.modFn f g).svcGrants = s.svcGrants ∧ (s.modFn f g).stepLimit = s.stepLimit ∧
      (s.modFn f g).qps = s.qps ∧ (s.modFn f g).qfes = s.qfes ∧ (s.modFn f g).fslots = s.fslots ∧ (s.modFn f g).xlat = s.xlat ∧
      (s.modFn f g).invs = s.invs ∧ (s.modFn f g).preqs = s.preqs ∧ (s.modFn f g).pkts = s.pkts ∧ (s.modFn f g).nextPkt = s.nextPkt ∧
      (s.modFn f g).outbox = s.outbox ∧ (s.modFn f g).seqs = s.seqs ∧ (s.modFn f g).buildMax = s.buildMax ∧ (s.modFn f g).parts = s.parts ∧
      (s.modFn f g).jobs = s.jobs ∧ (s.modFn f g).loads = s.loads ∧ (s.modFn f g).tiles = s.tiles ∧ (s.modFn f g).hl = s.hl ∧
      (s.modFn f g).mem = s.mem ∧ (s.modFn f g).ports = s.ports ∧ (s.modFn f g).alm = s.alm ∧ (s.modFn f g).solvers = s.solvers ∧
      (s.modFn f g).intcs = s.intcs ∧ (s.modFn f g).health = s.health ∧ (s.modFn f g).probes = s.probes ∧ (s.modFn f g).mail = s.mail ∧
      (s.modFn f g).sec = s.sec ∧ (s.modFn f g).dbg = s.dbg ∧ (s.modFn f g).regs = s.regs ∧ (s.modFn f g).out = s.out ∧
      (s.modFn f g).fresh = s.fresh := by
  refine ⟨rfl, rfl, rfl, rfl, rfl, rfl, rfl, rfl, rfl, rfl, rfl, rfl, rfl, rfl, rfl, rfl, rfl, rfl, rfl, rfl, rfl, rfl, rfl, rfl, rfl, rfl, rfl, rfl, rfl, rfl, rfl, rfl, rfl, rfl, rfl, rfl, rfl, rfl, rfl, rfl⟩

@[simp] theorem State.setPkt_fields (s : State) (i : Nat) (x : Packet) :
    (s.setPkt i x).pending = s.pending ∧ (s.setPkt i x).ident = s.ident ∧ (s.setPkt i x).pins = s.pins ∧ (s.setPkt i x).clk = s.clk ∧
      (s.setPkt i x).start = s.start ∧ (s.setPkt i x).pwr = s.pwr ∧ (s.setPkt i x).ladder = s.ladder ∧ (s.setPkt i x).cfg = s.cfg ∧
      (s.setPkt i x).fns = s.fns ∧ (s.setPkt i x).svcGrants = s.svcGrants ∧ (s.setPkt i x).stepLimit = s.stepLimit ∧ (s.setPkt i x).qps = s.qps ∧
      (s.setPkt i x).qfes = s.qfes ∧ (s.setPkt i x).fslots = s.fslots ∧ (s.setPkt i x).xlat = s.xlat ∧ (s.setPkt i x).invs = s.invs ∧
      (s.setPkt i x).preqs = s.preqs ∧ (s.setPkt i x).pkts = s.pkts.put i x ∧ (s.setPkt i x).nextPkt = s.nextPkt ∧
      (s.setPkt i x).outbox = s.outbox ∧ (s.setPkt i x).seqs = s.seqs ∧ (s.setPkt i x).buildMax = s.buildMax ∧ (s.setPkt i x).parts = s.parts ∧
      (s.setPkt i x).jobs = s.jobs ∧ (s.setPkt i x).loads = s.loads ∧ (s.setPkt i x).tiles = s.tiles ∧ (s.setPkt i x).hl = s.hl ∧
      (s.setPkt i x).mem = s.mem ∧ (s.setPkt i x).ports = s.ports ∧ (s.setPkt i x).alm = s.alm ∧ (s.setPkt i x).solvers = s.solvers ∧
      (s.setPkt i x).intcs = s.intcs ∧ (s.setPkt i x).health = s.health ∧ (s.setPkt i x).probes = s.probes ∧ (s.setPkt i x).mail = s.mail ∧
      (s.setPkt i x).sec = s.sec ∧ (s.setPkt i x).dbg = s.dbg ∧ (s.setPkt i x).regs = s.regs ∧ (s.setPkt i x).out = s.out ∧
      (s.setPkt i x).fresh = s.fresh := by
  refine ⟨rfl, rfl, rfl, rfl, rfl, rfl, rfl, rfl, rfl, rfl, rfl, rfl, rfl, rfl, rfl, rfl, rfl, rfl, rfl, rfl, rfl, rfl, rfl, rfl, rfl, rfl, rfl, rfl, rfl, rfl, rfl, rfl, rfl, rfl, rfl, rfl, rfl, rfl, rfl, rfl⟩

@[simp] theorem State.modPkt_fields (s : State) (i : Nat) (f : Packet → Packet) :
    (s.modPkt i f).pending = s.pending ∧ (s.modPkt i f).ident = s.ident ∧ (s.modPkt i f).pins = s.pins ∧ (s.modPkt i f).clk = s.clk ∧
      (s.modPkt i f).start = s.start ∧ (s.modPkt i f).pwr = s.pwr ∧ (s.modPkt i f).ladder = s.ladder ∧ (s.modPkt i f).cfg = s.cfg ∧
      (s.modPkt i f).fns = s.fns ∧ (s.modPkt i f).svcGrants = s.svcGrants ∧ (s.modPkt i f).stepLimit = s.stepLimit ∧ (s.modPkt i f).qps = s.qps ∧
      (s.modPkt i f).qfes = s.qfes ∧ (s.modPkt i f).fslots = s.fslots ∧ (s.modPkt i f).xlat = s.xlat ∧ (s.modPkt i f).invs = s.invs ∧
      (s.modPkt i f).preqs = s.preqs ∧ (s.modPkt i f).pkts = s.pkts.upd i f ∧ (s.modPkt i f).nextPkt = s.nextPkt ∧
      (s.modPkt i f).outbox = s.outbox ∧ (s.modPkt i f).seqs = s.seqs ∧ (s.modPkt i f).buildMax = s.buildMax ∧ (s.modPkt i f).parts = s.parts ∧
      (s.modPkt i f).jobs = s.jobs ∧ (s.modPkt i f).loads = s.loads ∧ (s.modPkt i f).tiles = s.tiles ∧ (s.modPkt i f).hl = s.hl ∧
      (s.modPkt i f).mem = s.mem ∧ (s.modPkt i f).ports = s.ports ∧ (s.modPkt i f).alm = s.alm ∧ (s.modPkt i f).solvers = s.solvers ∧
      (s.modPkt i f).intcs = s.intcs ∧ (s.modPkt i f).health = s.health ∧ (s.modPkt i f).probes = s.probes ∧ (s.modPkt i f).mail = s.mail ∧
      (s.modPkt i f).sec = s.sec ∧ (s.modPkt i f).dbg = s.dbg ∧ (s.modPkt i f).regs = s.regs ∧ (s.modPkt i f).out = s.out ∧
      (s.modPkt i f).fresh = s.fresh := by
  refine ⟨rfl, rfl, rfl, rfl, rfl, rfl, rfl, rfl, rfl, rfl, rfl, rfl, rfl, rfl, rfl, rfl, rfl, rfl, rfl, rfl, rfl, rfl, rfl, rfl, rfl, rfl, rfl, rfl, rfl, rfl, rfl, rfl, rfl, rfl, rfl, rfl, rfl, rfl, rfl, rfl⟩

@[simp] theorem State.setSeq_fields (s : State) (e : Nat) (x : SeqEntry) :
    (s.setSeq e x).pending = s.pending ∧ (s.setSeq e x).ident = s.ident ∧ (s.setSeq e x).pins = s.pins ∧ (s.setSeq e x).clk = s.clk ∧
      (s.setSeq e x).start = s.start ∧ (s.setSeq e x).pwr = s.pwr ∧ (s.setSeq e x).ladder = s.ladder ∧ (s.setSeq e x).cfg = s.cfg ∧
      (s.setSeq e x).fns = s.fns ∧ (s.setSeq e x).svcGrants = s.svcGrants ∧ (s.setSeq e x).stepLimit = s.stepLimit ∧ (s.setSeq e x).qps = s.qps ∧
      (s.setSeq e x).qfes = s.qfes ∧ (s.setSeq e x).fslots = s.fslots ∧ (s.setSeq e x).xlat = s.xlat ∧ (s.setSeq e x).invs = s.invs ∧
      (s.setSeq e x).preqs = s.preqs ∧ (s.setSeq e x).pkts = s.pkts ∧ (s.setSeq e x).nextPkt = s.nextPkt ∧ (s.setSeq e x).outbox = s.outbox ∧
      (s.setSeq e x).seqs = s.seqs.put e x ∧ (s.setSeq e x).buildMax = s.buildMax ∧ (s.setSeq e x).parts = s.parts ∧
      (s.setSeq e x).jobs = s.jobs ∧ (s.setSeq e x).loads = s.loads ∧ (s.setSeq e x).tiles = s.tiles ∧ (s.setSeq e x).hl = s.hl ∧
      (s.setSeq e x).mem = s.mem ∧ (s.setSeq e x).ports = s.ports ∧ (s.setSeq e x).alm = s.alm ∧ (s.setSeq e x).solvers = s.solvers ∧
      (s.setSeq e x).intcs = s.intcs ∧ (s.setSeq e x).health = s.health ∧ (s.setSeq e x).probes = s.probes ∧ (s.setSeq e x).mail = s.mail ∧
      (s.setSeq e x).sec = s.sec ∧ (s.setSeq e x).dbg = s.dbg ∧ (s.setSeq e x).regs = s.regs ∧ (s.setSeq e x).out = s.out ∧
      (s.setSeq e x).fresh = s.fresh := by
  refine ⟨rfl, rfl, rfl, rfl, rfl, rfl, rfl, rfl, rfl, rfl, rfl, rfl, rfl, rfl, rfl, rfl, rfl, rfl, rfl, rfl, rfl, rfl, rfl, rfl, rfl, rfl, rfl, rfl, rfl, rfl, rfl, rfl, rfl, rfl, rfl, rfl, rfl, rfl, rfl, rfl⟩

@[simp] theorem State.modSeq_fields (s : State) (e : Nat) (f : SeqEntry → SeqEntry) :
    (s.modSeq e f).pending = s.pending ∧ (s.modSeq e f).ident = s.ident ∧ (s.modSeq e f).pins = s.pins ∧ (s.modSeq e f).clk = s.clk ∧
      (s.modSeq e f).start = s.start ∧ (s.modSeq e f).pwr = s.pwr ∧ (s.modSeq e f).ladder = s.ladder ∧ (s.modSeq e f).cfg = s.cfg ∧
      (s.modSeq e f).fns = s.fns ∧ (s.modSeq e f).svcGrants = s.svcGrants ∧ (s.modSeq e f).stepLimit = s.stepLimit ∧ (s.modSeq e f).qps = s.qps ∧
      (s.modSeq e f).qfes = s.qfes ∧ (s.modSeq e f).fslots = s.fslots ∧ (s.modSeq e f).xlat = s.xlat ∧ (s.modSeq e f).invs = s.invs ∧
      (s.modSeq e f).preqs = s.preqs ∧ (s.modSeq e f).pkts = s.pkts ∧ (s.modSeq e f).nextPkt = s.nextPkt ∧ (s.modSeq e f).outbox = s.outbox ∧
      (s.modSeq e f).seqs = s.seqs.put e (f (s.seq e)) ∧ (s.modSeq e f).buildMax = s.buildMax ∧ (s.modSeq e f).parts = s.parts ∧
      (s.modSeq e f).jobs = s.jobs ∧ (s.modSeq e f).loads = s.loads ∧ (s.modSeq e f).tiles = s.tiles ∧ (s.modSeq e f).hl = s.hl ∧
      (s.modSeq e f).mem = s.mem ∧ (s.modSeq e f).ports = s.ports ∧ (s.modSeq e f).alm = s.alm ∧ (s.modSeq e f).solvers = s.solvers ∧
      (s.modSeq e f).intcs = s.intcs ∧ (s.modSeq e f).health = s.health ∧ (s.modSeq e f).probes = s.probes ∧ (s.modSeq e f).mail = s.mail ∧
      (s.modSeq e f).sec = s.sec ∧ (s.modSeq e f).dbg = s.dbg ∧ (s.modSeq e f).regs = s.regs ∧ (s.modSeq e f).out = s.out ∧
      (s.modSeq e f).fresh = s.fresh := by
  refine ⟨rfl, rfl, rfl, rfl, rfl, rfl, rfl, rfl, rfl, rfl, rfl, rfl, rfl, rfl, rfl, rfl, rfl, rfl, rfl, rfl, rfl, rfl, rfl, rfl, rfl, rfl, rfl, rfl, rfl, rfl, rfl, rfl, rfl, rfl, rfl, rfl, rfl, rfl, rfl, rfl⟩

@[simp] theorem State.setPort_fields (s : State) (n : Nat) (x : Port) :
    (s.setPort n x).pending = s.pending ∧ (s.setPort n x).ident = s.ident ∧ (s.setPort n x).pins = s.pins ∧ (s.setPort n x).clk = s.clk ∧
      (s.setPort n x).start = s.start ∧ (s.setPort n x).pwr = s.pwr ∧ (s.setPort n x).ladder = s.ladder ∧ (s.setPort n x).cfg = s.cfg ∧
      (s.setPort n x).fns = s.fns ∧ (s.setPort n x).svcGrants = s.svcGrants ∧ (s.setPort n x).stepLimit = s.stepLimit ∧
      (s.setPort n x).qps = s.qps ∧ (s.setPort n x).qfes = s.qfes ∧ (s.setPort n x).fslots = s.fslots ∧ (s.setPort n x).xlat = s.xlat ∧
      (s.setPort n x).invs = s.invs ∧ (s.setPort n x).preqs = s.preqs ∧ (s.setPort n x).pkts = s.pkts ∧ (s.setPort n x).nextPkt = s.nextPkt ∧
      (s.setPort n x).outbox = s.outbox ∧ (s.setPort n x).seqs = s.seqs ∧ (s.setPort n x).buildMax = s.buildMax ∧
      (s.setPort n x).parts = s.parts ∧ (s.setPort n x).jobs = s.jobs ∧ (s.setPort n x).loads = s.loads ∧ (s.setPort n x).tiles = s.tiles ∧
      (s.setPort n x).hl = s.hl ∧ (s.setPort n x).mem = s.mem ∧ (s.setPort n x).ports = s.ports.put n x ∧ (s.setPort n x).alm = s.alm ∧
      (s.setPort n x).solvers = s.solvers ∧ (s.setPort n x).intcs = s.intcs ∧ (s.setPort n x).health = s.health ∧
      (s.setPort n x).probes = s.probes ∧ (s.setPort n x).mail = s.mail ∧ (s.setPort n x).sec = s.sec ∧ (s.setPort n x).dbg = s.dbg ∧
      (s.setPort n x).regs = s.regs ∧ (s.setPort n x).out = s.out ∧ (s.setPort n x).fresh = s.fresh := by
  refine ⟨rfl, rfl, rfl, rfl, rfl, rfl, rfl, rfl, rfl, rfl, rfl, rfl, rfl, rfl, rfl, rfl, rfl, rfl, rfl, rfl, rfl, rfl, rfl, rfl, rfl, rfl, rfl, rfl, rfl, rfl, rfl, rfl, rfl, rfl, rfl, rfl, rfl, rfl, rfl, rfl⟩

@[simp] theorem State.modPort_fields (s : State) (n : Nat) (f : Port → Port) :
    (s.modPort n f).pending = s.pending ∧ (s.modPort n f).ident = s.ident ∧ (s.modPort n f).pins = s.pins ∧ (s.modPort n f).clk = s.clk ∧
      (s.modPort n f).start = s.start ∧ (s.modPort n f).pwr = s.pwr ∧ (s.modPort n f).ladder = s.ladder ∧ (s.modPort n f).cfg = s.cfg ∧
      (s.modPort n f).fns = s.fns ∧ (s.modPort n f).svcGrants = s.svcGrants ∧ (s.modPort n f).stepLimit = s.stepLimit ∧
      (s.modPort n f).qps = s.qps ∧ (s.modPort n f).qfes = s.qfes ∧ (s.modPort n f).fslots = s.fslots ∧ (s.modPort n f).xlat = s.xlat ∧
      (s.modPort n f).invs = s.invs ∧ (s.modPort n f).preqs = s.preqs ∧ (s.modPort n f).pkts = s.pkts ∧ (s.modPort n f).nextPkt = s.nextPkt ∧
      (s.modPort n f).outbox = s.outbox ∧ (s.modPort n f).seqs = s.seqs ∧ (s.modPort n f).buildMax = s.buildMax ∧
      (s.modPort n f).parts = s.parts ∧ (s.modPort n f).jobs = s.jobs ∧ (s.modPort n f).loads = s.loads ∧ (s.modPort n f).tiles = s.tiles ∧
      (s.modPort n f).hl = s.hl ∧ (s.modPort n f).mem = s.mem ∧ (s.modPort n f).ports = s.ports.put n (f (s.port n)) ∧
      (s.modPort n f).alm = s.alm ∧ (s.modPort n f).solvers = s.solvers ∧ (s.modPort n f).intcs = s.intcs ∧ (s.modPort n f).health = s.health ∧
      (s.modPort n f).probes = s.probes ∧ (s.modPort n f).mail = s.mail ∧ (s.modPort n f).sec = s.sec ∧ (s.modPort n f).dbg = s.dbg ∧
      (s.modPort n f).regs = s.regs ∧ (s.modPort n f).out = s.out ∧ (s.modPort n f).fresh = s.fresh := by
  refine ⟨rfl, rfl, rfl, rfl, rfl, rfl, rfl, rfl, rfl, rfl, rfl, rfl, rfl, rfl, rfl, rfl, rfl, rfl, rfl, rfl, rfl, rfl, rfl, rfl, rfl, rfl, rfl, rfl, rfl, rfl, rfl, rfl, rfl, rfl, rfl, rfl, rfl, rfl, rfl, rfl⟩

@[simp] theorem State.setSolver_fields (s : State) (h : Nat) (x : Solver) :
    (s.setSolver h x).pending = s.pending ∧ (s.setSolver h x).ident = s.ident ∧ (s.setSolver h x).pins = s.pins ∧
      (s.setSolver h x).clk = s.clk ∧ (s.setSolver h x).start = s.start ∧ (s.setSolver h x).pwr = s.pwr ∧ (s.setSolver h x).ladder = s.ladder ∧
      (s.setSolver h x).cfg = s.cfg ∧ (s.setSolver h x).fns = s.fns ∧ (s.setSolver h x).svcGrants = s.svcGrants ∧
      (s.setSolver h x).stepLimit = s.stepLimit ∧ (s.setSolver h x).qps = s.qps ∧ (s.setSolver h x).qfes = s.qfes ∧
      (s.setSolver h x).fslots = s.fslots ∧ (s.setSolver h x).xlat = s.xlat ∧ (s.setSolver h x).invs = s.invs ∧
      (s.setSolver h x).preqs = s.preqs ∧ (s.setSolver h x).pkts = s.pkts ∧ (s.setSolver h x).nextPkt = s.nextPkt ∧
      (s.setSolver h x).outbox = s.outbox ∧ (s.setSolver h x).seqs = s.seqs ∧ (s.setSolver h x).buildMax = s.buildMax ∧
      (s.setSolver h x).parts = s.parts ∧ (s.setSolver h x).jobs = s.jobs ∧ (s.setSolver h x).loads = s.loads ∧
      (s.setSolver h x).tiles = s.tiles ∧ (s.setSolver h x).hl = s.hl ∧ (s.setSolver h x).mem = s.mem ∧ (s.setSolver h x).ports = s.ports ∧
      (s.setSolver h x).alm = s.alm ∧ (s.setSolver h x).solvers = s.solvers.put h x ∧ (s.setSolver h x).intcs = s.intcs ∧
      (s.setSolver h x).health = s.health ∧ (s.setSolver h x).probes = s.probes ∧ (s.setSolver h x).mail = s.mail ∧
      (s.setSolver h x).sec = s.sec ∧ (s.setSolver h x).dbg = s.dbg ∧ (s.setSolver h x).regs = s.regs ∧ (s.setSolver h x).out = s.out ∧
      (s.setSolver h x).fresh = s.fresh := by
  refine ⟨rfl, rfl, rfl, rfl, rfl, rfl, rfl, rfl, rfl, rfl, rfl, rfl, rfl, rfl, rfl, rfl, rfl, rfl, rfl, rfl, rfl, rfl, rfl, rfl, rfl, rfl, rfl, rfl, rfl, rfl, rfl, rfl, rfl, rfl, rfl, rfl, rfl, rfl, rfl, rfl⟩

@[simp] theorem State.modSolver_fields (s : State) (h : Nat) (f : Solver → Solver) :
    (s.modSolver h f).pending = s.pending ∧ (s.modSolver h f).ident = s.ident ∧ (s.modSolver h f).pins = s.pins ∧
      (s.modSolver h f).clk = s.clk ∧ (s.modSolver h f).start = s.start ∧ (s.modSolver h f).pwr = s.pwr ∧ (s.modSolver h f).ladder = s.ladder ∧
      (s.modSolver h f).cfg = s.cfg ∧ (s.modSolver h f).fns = s.fns ∧ (s.modSolver h f).svcGrants = s.svcGrants ∧
      (s.modSolver h f).stepLimit = s.stepLimit ∧ (s.modSolver h f).qps = s.qps ∧ (s.modSolver h f).qfes = s.qfes ∧
      (s.modSolver h f).fslots = s.fslots ∧ (s.modSolver h f).xlat = s.xlat ∧ (s.modSolver h f).invs = s.invs ∧
      (s.modSolver h f).preqs = s.preqs ∧ (s.modSolver h f).pkts = s.pkts ∧ (s.modSolver h f).nextPkt = s.nextPkt ∧
      (s.modSolver h f).outbox = s.outbox ∧ (s.modSolver h f).seqs = s.seqs ∧ (s.modSolver h f).buildMax = s.buildMax ∧
      (s.modSolver h f).parts = s.parts ∧ (s.modSolver h f).jobs = s.jobs ∧ (s.modSolver h f).loads = s.loads ∧
      (s.modSolver h f).tiles = s.tiles ∧ (s.modSolver h f).hl = s.hl ∧ (s.modSolver h f).mem = s.mem ∧ (s.modSolver h f).ports = s.ports ∧
      (s.modSolver h f).alm = s.alm ∧ (s.modSolver h f).solvers = s.solvers.put h (f (s.solver h)) ∧ (s.modSolver h f).intcs = s.intcs ∧
      (s.modSolver h f).health = s.health ∧ (s.modSolver h f).probes = s.probes ∧ (s.modSolver h f).mail = s.mail ∧
      (s.modSolver h f).sec = s.sec ∧ (s.modSolver h f).dbg = s.dbg ∧ (s.modSolver h f).regs = s.regs ∧ (s.modSolver h f).out = s.out ∧
      (s.modSolver h f).fresh = s.fresh := by
  refine ⟨rfl, rfl, rfl, rfl, rfl, rfl, rfl, rfl, rfl, rfl, rfl, rfl, rfl, rfl, rfl, rfl, rfl, rfl, rfl, rfl, rfl, rfl, rfl, rfl, rfl, rfl, rfl, rfl, rfl, rfl, rfl, rfl, rfl, rfl, rfl, rfl, rfl, rfl, rfl, rfl⟩

@[simp] theorem State.setIntc_fields (s : State) (h : Nat) (x : Intc) :
    (s.setIntc h x).pending = s.pending ∧ (s.setIntc h x).ident = s.ident ∧ (s.setIntc h x).pins = s.pins ∧ (s.setIntc h x).clk = s.clk ∧
      (s.setIntc h x).start = s.start ∧ (s.setIntc h x).pwr = s.pwr ∧ (s.setIntc h x).ladder = s.ladder ∧ (s.setIntc h x).cfg = s.cfg ∧
      (s.setIntc h x).fns = s.fns ∧ (s.setIntc h x).svcGrants = s.svcGrants ∧ (s.setIntc h x).stepLimit = s.stepLimit ∧
      (s.setIntc h x).qps = s.qps ∧ (s.setIntc h x).qfes = s.qfes ∧ (s.setIntc h x).fslots = s.fslots ∧ (s.setIntc h x).xlat = s.xlat ∧
      (s.setIntc h x).invs = s.invs ∧ (s.setIntc h x).preqs = s.preqs ∧ (s.setIntc h x).pkts = s.pkts ∧ (s.setIntc h x).nextPkt = s.nextPkt ∧
      (s.setIntc h x).outbox = s.outbox ∧ (s.setIntc h x).seqs = s.seqs ∧ (s.setIntc h x).buildMax = s.buildMax ∧
      (s.setIntc h x).parts = s.parts ∧ (s.setIntc h x).jobs = s.jobs ∧ (s.setIntc h x).loads = s.loads ∧ (s.setIntc h x).tiles = s.tiles ∧
      (s.setIntc h x).hl = s.hl ∧ (s.setIntc h x).mem = s.mem ∧ (s.setIntc h x).ports = s.ports ∧ (s.setIntc h x).alm = s.alm ∧
      (s.setIntc h x).solvers = s.solvers ∧ (s.setIntc h x).intcs = s.intcs.put h x ∧ (s.setIntc h x).health = s.health ∧
      (s.setIntc h x).probes = s.probes ∧ (s.setIntc h x).mail = s.mail ∧ (s.setIntc h x).sec = s.sec ∧ (s.setIntc h x).dbg = s.dbg ∧
      (s.setIntc h x).regs = s.regs ∧ (s.setIntc h x).out = s.out ∧ (s.setIntc h x).fresh = s.fresh := by
  refine ⟨rfl, rfl, rfl, rfl, rfl, rfl, rfl, rfl, rfl, rfl, rfl, rfl, rfl, rfl, rfl, rfl, rfl, rfl, rfl, rfl, rfl, rfl, rfl, rfl, rfl, rfl, rfl, rfl, rfl, rfl, rfl, rfl, rfl, rfl, rfl, rfl, rfl, rfl, rfl, rfl⟩

@[simp] theorem State.modIntc_fields (s : State) (h : Nat) (f : Intc → Intc) :
    (s.modIntc h f).pending = s.pending ∧ (s.modIntc h f).ident = s.ident ∧ (s.modIntc h f).pins = s.pins ∧ (s.modIntc h f).clk = s.clk ∧
      (s.modIntc h f).start = s.start ∧ (s.modIntc h f).pwr = s.pwr ∧ (s.modIntc h f).ladder = s.ladder ∧ (s.modIntc h f).cfg = s.cfg ∧
      (s.modIntc h f).fns = s.fns ∧ (s.modIntc h f).svcGrants = s.svcGrants ∧ (s.modIntc h f).stepLimit = s.stepLimit ∧
      (s.modIntc h f).qps = s.qps ∧ (s.modIntc h f).qfes = s.qfes ∧ (s.modIntc h f).fslots = s.fslots ∧ (s.modIntc h f).xlat = s.xlat ∧
      (s.modIntc h f).invs = s.invs ∧ (s.modIntc h f).preqs = s.preqs ∧ (s.modIntc h f).pkts = s.pkts ∧ (s.modIntc h f).nextPkt = s.nextPkt ∧
      (s.modIntc h f).outbox = s.outbox ∧ (s.modIntc h f).seqs = s.seqs ∧ (s.modIntc h f).buildMax = s.buildMax ∧
      (s.modIntc h f).parts = s.parts ∧ (s.modIntc h f).jobs = s.jobs ∧ (s.modIntc h f).loads = s.loads ∧ (s.modIntc h f).tiles = s.tiles ∧
      (s.modIntc h f).hl = s.hl ∧ (s.modIntc h f).mem = s.mem ∧ (s.modIntc h f).ports = s.ports ∧ (s.modIntc h f).alm = s.alm ∧
      (s.modIntc h f).solvers = s.solvers ∧ (s.modIntc h f).intcs = s.intcs.put h (f (s.intc h)) ∧ (s.modIntc h f).health = s.health ∧
      (s.modIntc h f).probes = s.probes ∧ (s.modIntc h f).mail = s.mail ∧ (s.modIntc h f).sec = s.sec ∧ (s.modIntc h f).dbg = s.dbg ∧
      (s.modIntc h f).regs = s.regs ∧ (s.modIntc h f).out = s.out ∧ (s.modIntc h f).fresh = s.fresh := by
  refine ⟨rfl, rfl, rfl, rfl, rfl, rfl, rfl, rfl, rfl, rfl, rfl, rfl, rfl, rfl, rfl, rfl, rfl, rfl, rfl, rfl, rfl, rfl, rfl, rfl, rfl, rfl, rfl, rfl, rfl, rfl, rfl, rfl, rfl, rfl, rfl, rfl, rfl, rfl, rfl, rfl⟩

@[simp] theorem State.setPwr_fields (s : State) (f : Power → Power) :
    (s.setPwr f).pending = s.pending ∧ (s.setPwr f).ident = s.ident ∧ (s.setPwr f).pins = s.pins ∧ (s.setPwr f).clk = s.clk ∧
      (s.setPwr f).start = s.start ∧ (s.setPwr f).pwr = f s.pwr ∧ (s.setPwr f).ladder = s.ladder ∧ (s.setPwr f).cfg = s.cfg ∧
      (s.setPwr f).fns = s.fns ∧ (s.setPwr f).svcGrants = s.svcGrants ∧ (s.setPwr f).stepLimit = s.stepLimit ∧ (s.setPwr f).qps = s.qps ∧
      (s.setPwr f).qfes = s.qfes ∧ (s.setPwr f).fslots = s.fslots ∧ (s.setPwr f).xlat = s.xlat ∧ (s.setPwr f).invs = s.invs ∧
      (s.setPwr f).preqs = s.preqs ∧ (s.setPwr f).pkts = s.pkts ∧ (s.setPwr f).nextPkt = s.nextPkt ∧ (s.setPwr f).outbox = s.outbox ∧
      (s.setPwr f).seqs = s.seqs ∧ (s.setPwr f).buildMax = s.buildMax ∧ (s.setPwr f).parts = s.parts ∧ (s.setPwr f).jobs = s.jobs ∧
      (s.setPwr f).loads = s.loads ∧ (s.setPwr f).tiles = s.tiles ∧ (s.setPwr f).hl = s.hl ∧ (s.setPwr f).mem = s.mem ∧
      (s.setPwr f).ports = s.ports ∧ (s.setPwr f).alm = s.alm ∧ (s.setPwr f).solvers = s.solvers ∧ (s.setPwr f).intcs = s.intcs ∧
      (s.setPwr f).health = s.health ∧ (s.setPwr f).probes = s.probes ∧ (s.setPwr f).mail = s.mail ∧ (s.setPwr f).sec = s.sec ∧
      (s.setPwr f).dbg = s.dbg ∧ (s.setPwr f).regs = s.regs ∧ (s.setPwr f).out = s.out ∧ (s.setPwr f).fresh = s.fresh := by
  refine ⟨rfl, rfl, rfl, rfl, rfl, rfl, rfl, rfl, rfl, rfl, rfl, rfl, rfl, rfl, rfl, rfl, rfl, rfl, rfl, rfl, rfl, rfl, rfl, rfl, rfl, rfl, rfl, rfl, rfl, rfl, rfl, rfl, rfl, rfl, rfl, rfl, rfl, rfl, rfl, rfl⟩

@[simp] theorem State.setStart_fields (s : State) (f : Start → Start) :
    (s.setStart f).pending = s.pending ∧ (s.setStart f).ident = s.ident ∧ (s.setStart f).pins = s.pins ∧ (s.setStart f).clk = s.clk ∧
      (s.setStart f).start = f s.start ∧ (s.setStart f).pwr = s.pwr ∧ (s.setStart f).ladder = s.ladder ∧ (s.setStart f).cfg = s.cfg ∧
      (s.setStart f).fns = s.fns ∧ (s.setStart f).svcGrants = s.svcGrants ∧ (s.setStart f).stepLimit = s.stepLimit ∧ (s.setStart f).qps = s.qps ∧
      (s.setStart f).qfes = s.qfes ∧ (s.setStart f).fslots = s.fslots ∧ (s.setStart f).xlat = s.xlat ∧ (s.setStart f).invs = s.invs ∧
      (s.setStart f).preqs = s.preqs ∧ (s.setStart f).pkts = s.pkts ∧ (s.setStart f).nextPkt = s.nextPkt ∧ (s.setStart f).outbox = s.outbox ∧
      (s.setStart f).seqs = s.seqs ∧ (s.setStart f).buildMax = s.buildMax ∧ (s.setStart f).parts = s.parts ∧ (s.setStart f).jobs = s.jobs ∧
      (s.setStart f).loads = s.loads ∧ (s.setStart f).tiles = s.tiles ∧ (s.setStart f).hl = s.hl ∧ (s.setStart f).mem = s.mem ∧
      (s.setStart f).ports = s.ports ∧ (s.setStart f).alm = s.alm ∧ (s.setStart f).solvers = s.solvers ∧ (s.setStart f).intcs = s.intcs ∧
      (s.setStart f).health = s.health ∧ (s.setStart f).probes = s.probes ∧ (s.setStart f).mail = s.mail ∧ (s.setStart f).sec = s.sec ∧
      (s.setStart f).dbg = s.dbg ∧ (s.setStart f).regs = s.regs ∧ (s.setStart f).out = s.out ∧ (s.setStart f).fresh = s.fresh := by
  refine ⟨rfl, rfl, rfl, rfl, rfl, rfl, rfl, rfl, rfl, rfl, rfl, rfl, rfl, rfl, rfl, rfl, rfl, rfl, rfl, rfl, rfl, rfl, rfl, rfl, rfl, rfl, rfl, rfl, rfl, rfl, rfl, rfl, rfl, rfl, rfl, rfl, rfl, rfl, rfl, rfl⟩

@[simp] theorem State.setRec_fields (s : State) (f : Recovery → Recovery) :
    (s.setRec f).pending = s.pending ∧ (s.setRec f).ident = s.ident ∧ (s.setRec f).pins = s.pins ∧ (s.setRec f).clk = s.clk ∧
      (s.setRec f).start = s.start ∧ (s.setRec f).pwr = s.pwr ∧ (s.setRec f).ladder = f s.ladder ∧ (s.setRec f).cfg = s.cfg ∧
      (s.setRec f).fns = s.fns ∧ (s.setRec f).svcGrants = s.svcGrants ∧ (s.setRec f).stepLimit = s.stepLimit ∧ (s.setRec f).qps = s.qps ∧
      (s.setRec f).qfes = s.qfes ∧ (s.setRec f).fslots = s.fslots ∧ (s.setRec f).xlat = s.xlat ∧ (s.setRec f).invs = s.invs ∧
      (s.setRec f).preqs = s.preqs ∧ (s.setRec f).pkts = s.pkts ∧ (s.setRec f).nextPkt = s.nextPkt ∧ (s.setRec f).outbox = s.outbox ∧
      (s.setRec f).seqs = s.seqs ∧ (s.setRec f).buildMax = s.buildMax ∧ (s.setRec f).parts = s.parts ∧ (s.setRec f).jobs = s.jobs ∧
      (s.setRec f).loads = s.loads ∧ (s.setRec f).tiles = s.tiles ∧ (s.setRec f).hl = s.hl ∧ (s.setRec f).mem = s.mem ∧
      (s.setRec f).ports = s.ports ∧ (s.setRec f).alm = s.alm ∧ (s.setRec f).solvers = s.solvers ∧ (s.setRec f).intcs = s.intcs ∧
      (s.setRec f).health = s.health ∧ (s.setRec f).probes = s.probes ∧ (s.setRec f).mail = s.mail ∧ (s.setRec f).sec = s.sec ∧
      (s.setRec f).dbg = s.dbg ∧ (s.setRec f).regs = s.regs ∧ (s.setRec f).out = s.out ∧ (s.setRec f).fresh = s.fresh := by
  refine ⟨rfl, rfl, rfl, rfl, rfl, rfl, rfl, rfl, rfl, rfl, rfl, rfl, rfl, rfl, rfl, rfl, rfl, rfl, rfl, rfl, rfl, rfl, rfl, rfl, rfl, rfl, rfl, rfl, rfl, rfl, rfl, rfl, rfl, rfl, rfl, rfl, rfl, rfl, rfl, rfl⟩

@[simp] theorem State.setSec_fields (s : State) (f : Sec → Sec) :
    (s.setSec f).pending = s.pending ∧ (s.setSec f).ident = s.ident ∧ (s.setSec f).pins = s.pins ∧ (s.setSec f).clk = s.clk ∧
      (s.setSec f).start = s.start ∧ (s.setSec f).pwr = s.pwr ∧ (s.setSec f).ladder = s.ladder ∧ (s.setSec f).cfg = s.cfg ∧
      (s.setSec f).fns = s.fns ∧ (s.setSec f).svcGrants = s.svcGrants ∧ (s.setSec f).stepLimit = s.stepLimit ∧ (s.setSec f).qps = s.qps ∧
      (s.setSec f).qfes = s.qfes ∧ (s.setSec f).fslots = s.fslots ∧ (s.setSec f).xlat = s.xlat ∧ (s.setSec f).invs = s.invs ∧
      (s.setSec f).preqs = s.preqs ∧ (s.setSec f).pkts = s.pkts ∧ (s.setSec f).nextPkt = s.nextPkt ∧ (s.setSec f).outbox = s.outbox ∧
      (s.setSec f).seqs = s.seqs ∧ (s.setSec f).buildMax = s.buildMax ∧ (s.setSec f).parts = s.parts ∧ (s.setSec f).jobs = s.jobs ∧
      (s.setSec f).loads = s.loads ∧ (s.setSec f).tiles = s.tiles ∧ (s.setSec f).hl = s.hl ∧ (s.setSec f).mem = s.mem ∧
      (s.setSec f).ports = s.ports ∧ (s.setSec f).alm = s.alm ∧ (s.setSec f).solvers = s.solvers ∧ (s.setSec f).intcs = s.intcs ∧
      (s.setSec f).health = s.health ∧ (s.setSec f).probes = s.probes ∧ (s.setSec f).mail = s.mail ∧ (s.setSec f).sec = f s.sec ∧
      (s.setSec f).dbg = s.dbg ∧ (s.setSec f).regs = s.regs ∧ (s.setSec f).out = s.out ∧ (s.setSec f).fresh = s.fresh := by
  refine ⟨rfl, rfl, rfl, rfl, rfl, rfl, rfl, rfl, rfl, rfl, rfl, rfl, rfl, rfl, rfl, rfl, rfl, rfl, rfl, rfl, rfl, rfl, rfl, rfl, rfl, rfl, rfl, rfl, rfl, rfl, rfl, rfl, rfl, rfl, rfl, rfl, rfl, rfl, rfl, rfl⟩

@[simp] theorem State.setMail_fields (s : State) (f : Mail → Mail) :
    (s.setMail f).pending = s.pending ∧ (s.setMail f).ident = s.ident ∧ (s.setMail f).pins = s.pins ∧ (s.setMail f).clk = s.clk ∧
      (s.setMail f).start = s.start ∧ (s.setMail f).pwr = s.pwr ∧ (s.setMail f).ladder = s.ladder ∧ (s.setMail f).cfg = s.cfg ∧
      (s.setMail f).fns = s.fns ∧ (s.setMail f).svcGrants = s.svcGrants ∧ (s.setMail f).stepLimit = s.stepLimit ∧ (s.setMail f).qps = s.qps ∧
      (s.setMail f).qfes = s.qfes ∧ (s.setMail f).fslots = s.fslots ∧ (s.setMail f).xlat = s.xlat ∧ (s.setMail f).invs = s.invs ∧
      (s.setMail f).preqs = s.preqs ∧ (s.setMail f).pkts = s.pkts ∧ (s.setMail f).nextPkt = s.nextPkt ∧ (s.setMail f).outbox = s.outbox ∧
      (s.setMail f).seqs = s.seqs ∧ (s.setMail f).buildMax = s.buildMax ∧ (s.setMail f).parts = s.parts ∧ (s.setMail f).jobs = s.jobs ∧
      (s.setMail f).loads = s.loads ∧ (s.setMail f).tiles = s.tiles ∧ (s.setMail f).hl = s.hl ∧ (s.setMail f).mem = s.mem ∧
      (s.setMail f).ports = s.ports ∧ (s.setMail f).alm = s.alm ∧ (s.setMail f).solvers = s.solvers ∧ (s.setMail f).intcs = s.intcs ∧
      (s.setMail f).health = s.health ∧ (s.setMail f).probes = s.probes ∧ (s.setMail f).mail = f s.mail ∧ (s.setMail f).sec = s.sec ∧
      (s.setMail f).dbg = s.dbg ∧ (s.setMail f).regs = s.regs ∧ (s.setMail f).out = s.out ∧ (s.setMail f).fresh = s.fresh := by
  refine ⟨rfl, rfl, rfl, rfl, rfl, rfl, rfl, rfl, rfl, rfl, rfl, rfl, rfl, rfl, rfl, rfl, rfl, rfl, rfl, rfl, rfl, rfl, rfl, rfl, rfl, rfl, rfl, rfl, rfl, rfl, rfl, rfl, rfl, rfl, rfl, rfl, rfl, rfl, rfl, rfl⟩

@[simp] theorem State.setAlm_fields (s : State) (f : Alm → Alm) :
    (s.setAlm f).pending = s.pending ∧ (s.setAlm f).ident = s.ident ∧ (s.setAlm f).pins = s.pins ∧ (s.setAlm f).clk = s.clk ∧
      (s.setAlm f).start = s.start ∧ (s.setAlm f).pwr = s.pwr ∧ (s.setAlm f).ladder = s.ladder ∧ (s.setAlm f).cfg = s.cfg ∧
      (s.setAlm f).fns = s.fns ∧ (s.setAlm f).svcGrants = s.svcGrants ∧ (s.setAlm f).stepLimit = s.stepLimit ∧ (s.setAlm f).qps = s.qps ∧
      (s.setAlm f).qfes = s.qfes ∧ (s.setAlm f).fslots = s.fslots ∧ (s.setAlm f).xlat = s.xlat ∧ (s.setAlm f).invs = s.invs ∧
      (s.setAlm f).preqs = s.preqs ∧ (s.setAlm f).pkts = s.pkts ∧ (s.setAlm f).nextPkt = s.nextPkt ∧ (s.setAlm f).outbox = s.outbox ∧
      (s.setAlm f).seqs = s.seqs ∧ (s.setAlm f).buildMax = s.buildMax ∧ (s.setAlm f).parts = s.parts ∧ (s.setAlm f).jobs = s.jobs ∧
      (s.setAlm f).loads = s.loads ∧ (s.setAlm f).tiles = s.tiles ∧ (s.setAlm f).hl = s.hl ∧ (s.setAlm f).mem = s.mem ∧
      (s.setAlm f).ports = s.ports ∧ (s.setAlm f).alm = f s.alm ∧ (s.setAlm f).solvers = s.solvers ∧ (s.setAlm f).intcs = s.intcs ∧
      (s.setAlm f).health = s.health ∧ (s.setAlm f).probes = s.probes ∧ (s.setAlm f).mail = s.mail ∧ (s.setAlm f).sec = s.sec ∧
      (s.setAlm f).dbg = s.dbg ∧ (s.setAlm f).regs = s.regs ∧ (s.setAlm f).out = s.out ∧ (s.setAlm f).fresh = s.fresh := by
  refine ⟨rfl, rfl, rfl, rfl, rfl, rfl, rfl, rfl, rfl, rfl, rfl, rfl, rfl, rfl, rfl, rfl, rfl, rfl, rfl, rfl, rfl, rfl, rfl, rfl, rfl, rfl, rfl, rfl, rfl, rfl, rfl, rfl, rfl, rfl, rfl, rfl, rfl, rfl, rfl, rfl⟩

@[simp] theorem State.setHl_fields (s : State) (f : HalfLink → HalfLink) :
    (s.setHl f).pending = s.pending ∧ (s.setHl f).ident = s.ident ∧ (s.setHl f).pins = s.pins ∧ (s.setHl f).clk = s.clk ∧
      (s.setHl f).start = s.start ∧ (s.setHl f).pwr = s.pwr ∧ (s.setHl f).ladder = s.ladder ∧ (s.setHl f).cfg = s.cfg ∧ (s.setHl f).fns = s.fns ∧
      (s.setHl f).svcGrants = s.svcGrants ∧ (s.setHl f).stepLimit = s.stepLimit ∧ (s.setHl f).qps = s.qps ∧ (s.setHl f).qfes = s.qfes ∧
      (s.setHl f).fslots = s.fslots ∧ (s.setHl f).xlat = s.xlat ∧ (s.setHl f).invs = s.invs ∧ (s.setHl f).preqs = s.preqs ∧
      (s.setHl f).pkts = s.pkts ∧ (s.setHl f).nextPkt = s.nextPkt ∧ (s.setHl f).outbox = s.outbox ∧ (s.setHl f).seqs = s.seqs ∧
      (s.setHl f).buildMax = s.buildMax ∧ (s.setHl f).parts = s.parts ∧ (s.setHl f).jobs = s.jobs ∧ (s.setHl f).loads = s.loads ∧
      (s.setHl f).tiles = s.tiles ∧ (s.setHl f).hl = f s.hl ∧ (s.setHl f).mem = s.mem ∧ (s.setHl f).ports = s.ports ∧ (s.setHl f).alm = s.alm ∧
      (s.setHl f).solvers = s.solvers ∧ (s.setHl f).intcs = s.intcs ∧ (s.setHl f).health = s.health ∧ (s.setHl f).probes = s.probes ∧
      (s.setHl f).mail = s.mail ∧ (s.setHl f).sec = s.sec ∧ (s.setHl f).dbg = s.dbg ∧ (s.setHl f).regs = s.regs ∧ (s.setHl f).out = s.out ∧
      (s.setHl f).fresh = s.fresh := by
  refine ⟨rfl, rfl, rfl, rfl, rfl, rfl, rfl, rfl, rfl, rfl, rfl, rfl, rfl, rfl, rfl, rfl, rfl, rfl, rfl, rfl, rfl, rfl, rfl, rfl, rfl, rfl, rfl, rfl, rfl, rfl, rfl, rfl, rfl, rfl, rfl, rfl, rfl, rfl, rfl, rfl⟩

@[simp] theorem State.setMem_fields (s : State) (f : Memory → Memory) :
    (s.setMem f).pending = s.pending ∧ (s.setMem f).ident = s.ident ∧ (s.setMem f).pins = s.pins ∧ (s.setMem f).clk = s.clk ∧
      (s.setMem f).start = s.start ∧ (s.setMem f).pwr = s.pwr ∧ (s.setMem f).ladder = s.ladder ∧ (s.setMem f).cfg = s.cfg ∧
      (s.setMem f).fns = s.fns ∧ (s.setMem f).svcGrants = s.svcGrants ∧ (s.setMem f).stepLimit = s.stepLimit ∧ (s.setMem f).qps = s.qps ∧
      (s.setMem f).qfes = s.qfes ∧ (s.setMem f).fslots = s.fslots ∧ (s.setMem f).xlat = s.xlat ∧ (s.setMem f).invs = s.invs ∧
      (s.setMem f).preqs = s.preqs ∧ (s.setMem f).pkts = s.pkts ∧ (s.setMem f).nextPkt = s.nextPkt ∧ (s.setMem f).outbox = s.outbox ∧
      (s.setMem f).seqs = s.seqs ∧ (s.setMem f).buildMax = s.buildMax ∧ (s.setMem f).parts = s.parts ∧ (s.setMem f).jobs = s.jobs ∧
      (s.setMem f).loads = s.loads ∧ (s.setMem f).tiles = s.tiles ∧ (s.setMem f).hl = s.hl ∧ (s.setMem f).mem = f s.mem ∧
      (s.setMem f).ports = s.ports ∧ (s.setMem f).alm = s.alm ∧ (s.setMem f).solvers = s.solvers ∧ (s.setMem f).intcs = s.intcs ∧
      (s.setMem f).health = s.health ∧ (s.setMem f).probes = s.probes ∧ (s.setMem f).mail = s.mail ∧ (s.setMem f).sec = s.sec ∧
      (s.setMem f).dbg = s.dbg ∧ (s.setMem f).regs = s.regs ∧ (s.setMem f).out = s.out ∧ (s.setMem f).fresh = s.fresh := by
  refine ⟨rfl, rfl, rfl, rfl, rfl, rfl, rfl, rfl, rfl, rfl, rfl, rfl, rfl, rfl, rfl, rfl, rfl, rfl, rfl, rfl, rfl, rfl, rfl, rfl, rfl, rfl, rfl, rfl, rfl, rfl, rfl, rfl, rfl, rfl, rfl, rfl, rfl, rfl, rfl, rfl⟩

@[simp] theorem State.setDbg_fields (s : State) (f : Debug → Debug) :
    (s.setDbg f).pending = s.pending ∧ (s.setDbg f).ident = s.ident ∧ (s.setDbg f).pins = s.pins ∧ (s.setDbg f).clk = s.clk ∧
      (s.setDbg f).start = s.start ∧ (s.setDbg f).pwr = s.pwr ∧ (s.setDbg f).ladder = s.ladder ∧ (s.setDbg f).cfg = s.cfg ∧
      (s.setDbg f).fns = s.fns ∧ (s.setDbg f).svcGrants = s.svcGrants ∧ (s.setDbg f).stepLimit = s.stepLimit ∧ (s.setDbg f).qps = s.qps ∧
      (s.setDbg f).qfes = s.qfes ∧ (s.setDbg f).fslots = s.fslots ∧ (s.setDbg f).xlat = s.xlat ∧ (s.setDbg f).invs = s.invs ∧
      (s.setDbg f).preqs = s.preqs ∧ (s.setDbg f).pkts = s.pkts ∧ (s.setDbg f).nextPkt = s.nextPkt ∧ (s.setDbg f).outbox = s.outbox ∧
      (s.setDbg f).seqs = s.seqs ∧ (s.setDbg f).buildMax = s.buildMax ∧ (s.setDbg f).parts = s.parts ∧ (s.setDbg f).jobs = s.jobs ∧
      (s.setDbg f).loads = s.loads ∧ (s.setDbg f).tiles = s.tiles ∧ (s.setDbg f).hl = s.hl ∧ (s.setDbg f).mem = s.mem ∧
      (s.setDbg f).ports = s.ports ∧ (s.setDbg f).alm = s.alm ∧ (s.setDbg f).solvers = s.solvers ∧ (s.setDbg f).intcs = s.intcs ∧
      (s.setDbg f).health = s.health ∧ (s.setDbg f).probes = s.probes ∧ (s.setDbg f).mail = s.mail ∧ (s.setDbg f).sec = s.sec ∧
      (s.setDbg f).dbg = f s.dbg ∧ (s.setDbg f).regs = s.regs ∧ (s.setDbg f).out = s.out ∧ (s.setDbg f).fresh = s.fresh := by
  refine ⟨rfl, rfl, rfl, rfl, rfl, rfl, rfl, rfl, rfl, rfl, rfl, rfl, rfl, rfl, rfl, rfl, rfl, rfl, rfl, rfl, rfl, rfl, rfl, rfl, rfl, rfl, rfl, rfl, rfl, rfl, rfl, rfl, rfl, rfl, rfl, rfl, rfl, rfl, rfl, rfl⟩

@[simp] theorem State.emit_fields (s : State) (m : UpMsg) :
    (s.emit m).pending = s.pending ∧ (s.emit m).ident = s.ident ∧ (s.emit m).pins = s.pins ∧ (s.emit m).clk = s.clk ∧
      (s.emit m).start = s.start ∧ (s.emit m).pwr = s.pwr ∧ (s.emit m).ladder = s.ladder ∧ (s.emit m).cfg = s.cfg ∧ (s.emit m).fns = s.fns ∧
      (s.emit m).svcGrants = s.svcGrants ∧ (s.emit m).stepLimit = s.stepLimit ∧ (s.emit m).qps = s.qps ∧ (s.emit m).qfes = s.qfes ∧
      (s.emit m).fslots = s.fslots ∧ (s.emit m).xlat = s.xlat ∧ (s.emit m).invs = s.invs ∧ (s.emit m).preqs = s.preqs ∧
      (s.emit m).pkts = s.pkts ∧ (s.emit m).nextPkt = s.nextPkt ∧ (s.emit m).outbox = s.outbox ∧ (s.emit m).seqs = s.seqs ∧
      (s.emit m).buildMax = s.buildMax ∧ (s.emit m).parts = s.parts ∧ (s.emit m).jobs = s.jobs ∧ (s.emit m).loads = s.loads ∧
      (s.emit m).tiles = s.tiles ∧ (s.emit m).hl = s.hl ∧ (s.emit m).mem = s.mem ∧ (s.emit m).ports = s.ports ∧ (s.emit m).alm = s.alm ∧
      (s.emit m).solvers = s.solvers ∧ (s.emit m).intcs = s.intcs ∧ (s.emit m).health = s.health ∧ (s.emit m).probes = s.probes ∧
      (s.emit m).mail = s.mail ∧ (s.emit m).sec = s.sec ∧ (s.emit m).dbg = s.dbg ∧ (s.emit m).regs = s.regs ∧
      (s.emit m).out = { s.out with up := s.out.up ++ [m] } ∧ (s.emit m).fresh = s.fresh := by
  refine ⟨rfl, rfl, rfl, rfl, rfl, rfl, rfl, rfl, rfl, rfl, rfl, rfl, rfl, rfl, rfl, rfl, rfl, rfl, rfl, rfl, rfl, rfl, rfl, rfl, rfl, rfl, rfl, rfl, rfl, rfl, rfl, rfl, rfl, rfl, rfl, rfl, rfl, rfl, rfl, rfl⟩

@[simp] theorem State.took_fields (s : State) (n : Nat) :
    (s.took n).pending = s.pending ∧ (s.took n).ident = s.ident ∧ (s.took n).pins = s.pins ∧ (s.took n).clk = s.clk ∧
      (s.took n).start = s.start ∧ (s.took n).pwr = s.pwr ∧ (s.took n).ladder = s.ladder ∧ (s.took n).cfg = s.cfg ∧ (s.took n).fns = s.fns ∧
      (s.took n).svcGrants = s.svcGrants ∧ (s.took n).stepLimit = s.stepLimit ∧ (s.took n).qps = s.qps ∧ (s.took n).qfes = s.qfes ∧
      (s.took n).fslots = s.fslots ∧ (s.took n).xlat = s.xlat ∧ (s.took n).invs = s.invs ∧ (s.took n).preqs = s.preqs ∧
      (s.took n).pkts = s.pkts ∧ (s.took n).nextPkt = s.nextPkt ∧ (s.took n).outbox = s.outbox ∧ (s.took n).seqs = s.seqs ∧
      (s.took n).buildMax = s.buildMax ∧ (s.took n).parts = s.parts ∧ (s.took n).jobs = s.jobs ∧ (s.took n).loads = s.loads ∧
      (s.took n).tiles = s.tiles ∧ (s.took n).hl = s.hl ∧ (s.took n).mem = s.mem ∧ (s.took n).ports = s.ports ∧ (s.took n).alm = s.alm ∧
      (s.took n).solvers = s.solvers ∧ (s.took n).intcs = s.intcs ∧ (s.took n).health = s.health ∧ (s.took n).probes = s.probes ∧
      (s.took n).mail = s.mail ∧ (s.took n).sec = s.sec ∧ (s.took n).dbg = s.dbg ∧ (s.took n).regs = s.regs ∧ (s.took n).out = s.out ∧
      (s.took n).fresh = s.fresh + n := by
  refine ⟨rfl, rfl, rfl, rfl, rfl, rfl, rfl, rfl, rfl, rfl, rfl, rfl, rfl, rfl, rfl, rfl, rfl, rfl, rfl, rfl, rfl, rfl, rfl, rfl, rfl, rfl, rfl, rfl, rfl, rfl, rfl, rfl, rfl, rfl, rfl, rfl, rfl, rfl, rfl, rfl⟩

@[simp] theorem State.setBox_fields (s : State) (m : Mbox) (x : MailRegs) :
    (s.setBox m x).pending = s.pending ∧ (s.setBox m x).ident = s.ident ∧ (s.setBox m x).pins = s.pins ∧ (s.setBox m x).clk = s.clk ∧
      (s.setBox m x).start = s.start ∧ (s.setBox m x).pwr = s.pwr ∧ (s.setBox m x).ladder = s.ladder ∧ (s.setBox m x).cfg = s.cfg ∧
      (s.setBox m x).fns = s.fns ∧ (s.setBox m x).svcGrants = s.svcGrants ∧ (s.setBox m x).stepLimit = s.stepLimit ∧ (s.setBox m x).qps = s.qps ∧
      (s.setBox m x).qfes = s.qfes ∧ (s.setBox m x).fslots = s.fslots ∧ (s.setBox m x).xlat = s.xlat ∧ (s.setBox m x).invs = s.invs ∧
      (s.setBox m x).preqs = s.preqs ∧ (s.setBox m x).pkts = s.pkts ∧ (s.setBox m x).nextPkt = s.nextPkt ∧ (s.setBox m x).outbox = s.outbox ∧
      (s.setBox m x).seqs = s.seqs ∧ (s.setBox m x).buildMax = s.buildMax ∧ (s.setBox m x).parts = s.parts ∧ (s.setBox m x).jobs = s.jobs ∧
      (s.setBox m x).loads = s.loads ∧ (s.setBox m x).tiles = s.tiles ∧ (s.setBox m x).hl = s.hl ∧ (s.setBox m x).mem = s.mem ∧
      (s.setBox m x).ports = s.ports ∧ (s.setBox m x).alm = s.alm ∧ (s.setBox m x).solvers = s.solvers ∧ (s.setBox m x).intcs = s.intcs ∧
      (s.setBox m x).health = s.health ∧ (s.setBox m x).probes = s.probes ∧
      (s.setBox m x).mail = { s.mail with boxes := s.mail.boxes.put (Mbox.num m) x } ∧ (s.setBox m x).sec = s.sec ∧ (s.setBox m x).dbg = s.dbg ∧
      (s.setBox m x).regs = s.regs ∧ (s.setBox m x).out = s.out ∧ (s.setBox m x).fresh = s.fresh := by
  refine ⟨rfl, rfl, rfl, rfl, rfl, rfl, rfl, rfl, rfl, rfl, rfl, rfl, rfl, rfl, rfl, rfl, rfl, rfl, rfl, rfl, rfl, rfl, rfl, rfl, rfl, rfl, rfl, rfl, rfl, rfl, rfl, rfl, rfl, rfl, rfl, rfl, rfl, rfl, rfl, rfl⟩

@[simp] theorem State.answer_fields (s : State) (v : Nat) :
    (s.answer v).pending = s.pending ∧ (s.answer v).ident = s.ident ∧ (s.answer v).pins = s.pins ∧ (s.answer v).clk = s.clk ∧
      (s.answer v).start = s.start ∧ (s.answer v).pwr = s.pwr ∧ (s.answer v).ladder = s.ladder ∧ (s.answer v).cfg = s.cfg ∧
      (s.answer v).fns = s.fns ∧ (s.answer v).svcGrants = s.svcGrants ∧ (s.answer v).stepLimit = s.stepLimit ∧ (s.answer v).qps = s.qps ∧
      (s.answer v).qfes = s.qfes ∧ (s.answer v).fslots = s.fslots ∧ (s.answer v).xlat = s.xlat ∧ (s.answer v).invs = s.invs ∧
      (s.answer v).preqs = s.preqs ∧ (s.answer v).pkts = s.pkts ∧ (s.answer v).nextPkt = s.nextPkt ∧ (s.answer v).outbox = s.outbox ∧
      (s.answer v).seqs = s.seqs ∧ (s.answer v).buildMax = s.buildMax ∧ (s.answer v).parts = s.parts ∧ (s.answer v).jobs = s.jobs ∧
      (s.answer v).loads = s.loads ∧ (s.answer v).tiles = s.tiles ∧ (s.answer v).hl = s.hl ∧ (s.answer v).mem = s.mem ∧
      (s.answer v).ports = s.ports ∧ (s.answer v).alm = s.alm ∧ (s.answer v).solvers = s.solvers ∧ (s.answer v).intcs = s.intcs ∧
      (s.answer v).health = s.health ∧ (s.answer v).probes = s.probes ∧ (s.answer v).mail = s.mail ∧ (s.answer v).sec = s.sec ∧
      (s.answer v).dbg = s.dbg ∧ (s.answer v).regs = s.regs ∧ (s.answer v).out = { s.out with read := BitVec.ofNat 64 v } ∧
      (s.answer v).fresh = s.fresh := by
  refine ⟨rfl, rfl, rfl, rfl, rfl, rfl, rfl, rfl, rfl, rfl, rfl, rfl, rfl, rfl, rfl, rfl, rfl, rfl, rfl, rfl, rfl, rfl, rfl, rfl, rfl, rfl, rfl, rfl, rfl, rfl, rfl, rfl, rfl, rfl, rfl, rfl, rfl, rfl, rfl, rfl⟩

end Sys2Proof.Machine
end

