-- ==== Sys2Proof/Laws/Tile.lean ====
section
/-! SUPPORT. How a tile instruction runs: what its completion leaves alone, and one lemma for each way that its effect ends. -/

namespace Sys2Proof.Machine

open Sys2Proof

/-! ## Tiles and partitions by number -/

theorem State.tile_setTile (s : State) (p k : Nat) (x : Tile) : (s.setTile p x).tile k = if k = p then x else s.tile k := by
  simp only [State.tile, State.setTile, Tab.val_put]

@[simp] theorem State.tile_setTile_same (s : State) (p : Nat) (x : Tile) : (s.setTile p x).tile p = x := by simp [State.tile_setTile]

theorem State.tile_modTile (s : State) (p k : Nat) (f : Tile → Tile) : (s.modTile p f).tile k = if k = p then f (s.tile p) else s.tile k := by
  simp only [State.modTile, State.tile_setTile]

/-! ## Likeness -/

theorem State.Like.refl (s : State) : s.Like s := ⟨fun _ => rfl, fun _ => rfl, rfl, rfl⟩

theorem State.Like.trans {a b c : State} (h : a.Like b) (g : b.Like c) : a.Like c :=
  ⟨fun k => (g.1 k).trans (h.1 k), fun k => (g.2.1 k).trans (h.2.1 k), g.2.2.1.trans h.2.2.1, g.2.2.2.trans h.2.2.2⟩

/-- A change of one tile that its program cannot see. -/
theorem State.like_setTile (s : State) (p : Nat) (x : Tile) (h : x.arch = (s.tile p).arch) : s.Like (s.setTile p x) := by
  refine ⟨fun k => ?_, fun _ => rfl, rfl, rfl⟩
  rw [State.tile_setTile]
  split
  · next e => rw [e, h]
  · rfl

theorem State.like_modTile (s : State) (p : Nat) (f : Tile → Tile) (h : (f (s.tile p)).arch = (s.tile p).arch) : s.Like (s.modTile p f) :=
  s.like_setTile p _ h

/-- A change of a debug stop. -/
theorem State.like_modPart (s : State) (p : Nat) (f : Part → Part) (h : ∀ q, { f q with stop := {} } = { q with stop := {} }) : s.Like (s.modPart p f) := by
  refine ⟨fun _ => rfl, fun k => ?_, rfl, rfl⟩
  show (Tab.look (s.parts.upd p f) k).map _ = _
  rw [Tab.look_upd]
  split
  · cases Tab.look s.parts k with
    | none => rfl
    | some q => simp only [Option.map_some, h]
  · rfl

theorem State.like_setPart (s : State) (p : Nat) (q : Part) (x : Part) (hq : s.parts.look p = some q)
    (h : { x with stop := {} } = ({ q with stop := {} } : Part)) : s.Like (s.setPart p x) := by
  refine ⟨fun _ => rfl, fun k => ?_, rfl, rfl⟩
  show (Tab.look (s.parts.put p x) k).map _ = _
  rw [Tab.look_put]
  split
  · next e => subst e; rw [hq]; simp only [Option.map_some, h]
  · rfl

/-- Alike, with every program counter where it was and no tile brought to wait. -/
def State.Still (s s' : State) : Prop := s.Like s' ∧ ∀ k, (s'.tile k).pc = (s.tile k).pc ∧ ((s.tile k).run ≠ 1 → (s'.tile k).run ≠ 1)

theorem State.Still.refl (s : State) : s.Still s := ⟨State.Like.refl s, fun _ => ⟨rfl, id⟩⟩

theorem State.Still.trans {a b c : State} (h : a.Still b) (g : b.Still c) : a.Still c :=
  ⟨h.1.trans g.1, fun k => ⟨(g.2 k).1.trans (h.2 k).1, fun e => (g.2 k).2 ((h.2 k).2 e)⟩⟩

theorem State.still_setTile (s : State) (p : Nat) (x : Tile) (h : x.arch = (s.tile p).arch) (hp : x.pc = (s.tile p).pc)
    (hr : (s.tile p).run ≠ 1 → x.run ≠ 1) : s.Still (s.setTile p x) := by
  refine ⟨s.like_setTile p x h, fun k => ?_⟩
  rw [State.tile_setTile]
  split
  · next e => rw [e]; exact ⟨hp, hr⟩
  · exact ⟨rfl, id⟩

theorem State.still_modPart (s : State) (p : Nat) (f : Part → Part) (h : ∀ q, { f q with stop := {} } = { q with stop := {} }) : s.Still (s.modPart p f) :=
  ⟨s.like_modPart p f h, fun _ => ⟨rfl, id⟩⟩

theorem State.still_setPart (s : State) (p : Nat) (q : Part) (x : Part) (hq : s.parts.look p = some q)
    (h : { x with stop := {} } = ({ q with stop := {} } : Part)) : s.Still (s.setPart p x) :=
  ⟨s.like_setPart p q x hq h, fun _ => ⟨rfl, id⟩⟩

theorem State.still_tiles (s : State) (f : Nat → Tile → Tile) (h : ∀ k x, (f k x).arch = x.arch ∧ (f k x).pc = x.pc ∧ (f k x).run = x.run) :
    s.Still { s with tiles := s.tiles.updAll f } := by
  have ht : ∀ k, State.tile { s with tiles := s.tiles.updAll f } k = s.tile k ∨ State.tile { s with tiles := s.tiles.updAll f } k = f k (s.tile k) := by
    intro k
    simp only [State.tile, Tab.val, Tab.look_updAll]
    cases Tab.look s.tiles k with
    | none => exact .inl rfl
    | some x => exact .inr rfl
  refine ⟨⟨fun k => ?_, fun _ => rfl, rfl, rfl⟩, fun k => ?_⟩
  · rcases ht k with e | e <;> rw [e]
    exact (h k _).1
  · rcases ht k with e | e <;> rw [e]
    · exact ⟨rfl, id⟩
    · rw [(h k _).2.1, (h k _).2.2]; exact ⟨rfl, id⟩

theorem traceEv_still (p kind data : Nat) (s : State) : s.Still (traceEv p kind data s) := by
  unfold traceEv
  dsimp only
  split
  · exact State.Still.refl s
  · split
    · exact State.Still.refl s
    · split
      · exact ⟨⟨fun _ => rfl, fun _ => rfl, rfl, rfl⟩, fun _ => ⟨rfl, id⟩⟩
      · exact s.still_setTile p _ rfl rfl id

theorem stopDone_still (part : Nat) (s : State) : s.Still (stopDone part s) := by
  unfold stopDone
  apply State.still_modPart
  intro q
  split <;> rfl

theorem beginStop_still (part cause tile bp pc : Nat) (s : State) : s.Still (beginStop part cause tile bp pc s) := by
  unfold beginStop
  dsimp only
  split
  · exact State.Still.refl s
  · next q hq =>
    split
    · exact State.Still.refl s
    · refine State.Still.trans (State.Still.trans (s.still_setPart part q _ hq ?_) (State.still_tiles (s.setPart part _) _ ?_)) (stopDone_still part _)
      · rfl
      · intro k x
        split <;> exact ⟨rfl, rfl, rfl⟩

theorem haltTile_still (p : Nat) (s : State) : s.Still (haltTile p s) := by
  have h1 : s.Still (s.setTile p { s.tile p with run := if (s.tile p).run = 3 then 3 else 2, haltReq := none, blkAgain := (s.tile p).inBlk }) := by
    refine s.still_setTile p _ rfl rfl (fun _ => ?_)
    show (if (s.tile p).run = 3 then 3 else 2) ≠ 1
    split <;> decide
  unfold haltTile
  dsimp only
  split
  · exact h1.trans (traceEv_still _ _ _ _)
  · next part _ =>
    refine h1.trans (State.Still.trans ?_ ((traceEv_still _ _ _ _).trans (stopDone_still _ _)))
    apply State.still_modPart
    intro q
    split <;> rfl

theorem countStep_still (p : Nat) (s : State) : s.Still (countStep p s) := by
  unfold countStep
  dsimp only
  split
  · exact State.Still.refl s
  · split
    · exact State.Still.refl s
    · next q hq =>
      split
      · split
        · exact (beginStop_still _ _ _ _ _ _).trans (haltTile_still _ _)
        · exact s.still_setPart _ q _ hq rfl
      · exact State.Still.refl s

theorem traces_still (p : Nat) (l : List (Nat × Nat)) (s : State) : s.Still (l.foldl (fun s e => traceEv p e.1 e.2 s) s) := by
  induction l generalizing s with
  | nil => exact State.Still.refl s
  | cons e l ih => exact (traceEv_still p e.1 e.2 s).trans (ih _)

/-- A completed instruction: alike but for the debugger's records, at the given program counter, not waiting. -/
theorem completeInst_done (p : Nat) (i : TInst) (target : Option Nat) (s : State) (h : i.op ≠ .blk) :
    s.Like (completeInst p i target s) ∧ ((completeInst p i target s).tile p).pc = target.getD ((s.tile p).pc + 4) ∧
      ((completeInst p i target s).tile p).run ≠ 1 := by
  have hs := traces_still p (traceOf i target) s
  unfold completeInst
  dsimp only
  simp only [h, if_false]
  generalize List.foldl (fun s e => traceEv p e.1 e.2 s) s (traceOf i target) = s1 at hs ⊢
  generalize hm : (match (s.tile p).lock with
      | some l => (if l.bp.isNone then (s.breakAt p (s.tile p).pc).map (fun n => (n, (s.tile p).pc)) else l.bp) | none => none) = met
  have hk : ∀ f : Tile → Tile, (f (s1.tile p)).arch = (s1.tile p).arch → (f (s1.tile p)).run = 0 →
      s.Like (countStep p (s1.modTile p f)) ∧ ((countStep p (s1.modTile p f)).tile p).pc = (f (s1.tile p)).pc ∧
        ((countStep p (s1.modTile p f)).tile p).run ≠ 1 := by
    intro f ha hr
    have hc := countStep_still p (s1.modTile p f)
    have ht : (s1.modTile p f).tile p = f (s1.tile p) := by rw [State.tile_modTile, if_pos rfl]
    refine ⟨(hs.1.trans (s1.like_modTile p f ha)).trans hc.1, ?_, ?_⟩
    · rw [(hc.2 p).1, ht]
    · apply (hc.2 p).2; rw [ht, hr]; decide
  have hpc : (s1.tile p).pc = (s.tile p).pc := (hs.2 p).1
  rw [← hpc]
  refine hk _ ?_ rfl
  simp only [Tile.arch, Option.map_map]
  congr 1
  cases (s1.tile p).lock with
  | none => rfl
  | some l => simp only [Option.map_some, Function.comp]; split <;> rfl

/-! ## Running -/

theorem readUpset_none (p : Nat) (r : Option (Nat × Nat)) (s : State) : readUpset p .none r s = s := by
  cases r <;> rfl

@[simp] theorem State.ctxAt_s (s : State) (t run : Nat) (i : TInst) : (s.ctxAt t run i).s = s := rfl
@[simp] theorem State.ctxAt_p (s : State) (t run : Nat) (i : TInst) : (s.ctxAt t run i).p = t := rfl
@[simp] theorem State.ctxAt_x (s : State) (t run : Nat) (i : TInst) : (s.ctxAt t run i).x = s.tile t := rfl
@[simp] theorem State.ctxAt_i (s : State) (t run : Nat) (i : TInst) : (s.ctxAt t run i).i = i := rfl
@[simp] theorem State.ctxAt_a (s : State) (t run : Nat) (i : TInst) : (s.ctxAt t run i).a = (s.tile t).reg i.ra := rfl
@[simp] theorem State.ctxAt_b (s : State) (t run : Nat) (i : TInst) : (s.ctxAt t run i).b = (s.tile t).reg i.rb := rfl
@[simp] theorem State.ctxAt_d (s : State) (t run : Nat) (i : TInst) : (s.ctxAt t run i).d = (s.tile t).reg i.rd := rfl
@[simp] theorem State.ctxAt_addr (s : State) (t run : Nat) (i : TInst) :
    (s.ctxAt t run i).addr = ((s.tile t).reg i.ra + (BitVec.ofNat 16 i.imm).signExtend 64).toNat := rfl
@[simp] theorem State.ctxAt_rel (s : State) (t run : Nat) (i : TInst) (w : Nat) :
    (s.ctxAt t run i).rel w = (BitVec.ofNat 64 (s.tile t).pc + ((BitVec.ofNat w i.imm).signExtend 64 <<< 2)).toNat := rfl

/-- An instruction that nothing keeps from running comes to what its effect says. -/
theorem runWith_stands {s : State} {t run : Nat} {i : TInst} (h : s.stands t run i = true) (sel : TInst → Option (TCtx → TRes)) (body : TCtx → TRes)
    (hb : sel i = some body) :
    runWith t .none run sel s =
      match body (s.ctxAt t run i) with
      | .fault c d a => tileFault t c d a s
      | .wait s2 => s2.modTile t (fun y => { y with run := 1 })
      | .stay s2 => s2
      | .go s2 => unlockBreak t (s.tile t) (completeInst t i none s2)
      | .jump s2 g => completeInst t i (some g) s2 := by
  simp only [State.stands, Bool.and_eq_true, decide_eq_true_eq] at h
  obtain ⟨⟨⟨h1, h2, h3⟩, h4⟩, h5⟩ := h
  obtain ⟨⟨j, jb, part, q⟩, hi⟩ := Option.isSome_iff_exists.mp h1
  have hc : s.ctxAt t run i = { s := s, p := t, x := s.tile t, i := i, j := j, jb := jb, part := part, q := q } := by
    simp only [State.ctxAt, State.jobAt, hi, Option.getD_some]
  rw [hc]
  have hbad : (match (s.tile t).lock with
      | some l => !lockAllows i.op || (decide (16 ≤ l.count) && i.op != .unlock)
      | none => false) = false := by
    cases hl : (s.tile t).lock with
    | none => rfl
    | some l =>
      simp only [hl, Bool.and_eq_true, Bool.or_eq_true, decide_eq_true_eq, beq_iff_eq] at h5
      simp only [h5.1, Bool.not_true, Bool.false_or, Bool.and_eq_false_imp, decide_eq_true_eq, bne_eq_false_iff_eq]
      intro hle
      rcases h5.2 with h6 | h6
      · omega
      · exact h6
  have hbp : ¬ ((s.tile t).lock.isNone = true ∧ (!(s.tile t).bpPassed) = true ∧ (s.breakAt t (s.tile t).pc).isSome = true) := by
    rintro ⟨e1, e2, e3⟩
    cases hl : (s.tile t).lock with
    | some l => simp [hl] at e1
    | none =>
      simp only [hl, Bool.or_eq_true] at h5
      rcases h5 with h6 | h6
      · simp [h6] at e2
      · rw [Option.isNone_iff_eq_none] at h6; simp [h6] at e3
  unfold runWith
  simp only [hi, h4, hb]
  rw [if_neg (by decide), if_neg (by omega), if_neg (by decide), if_neg hbp]
  simp only [readUpset_none]
  generalize body { s := s, p := t, x := s.tile t, i := i, j := j, jb := jb, part := part, q := q } = r
  cases r <;> simp
  all_goals first
    | exact fun e => absurd (Eq.trans (Eq.symm e) hbad) (Bool.noConfusion)
    | exact fun _ e => absurd (Eq.trans (Eq.symm e) hbad) (Bool.noConfusion)

theorem unlockBreak_still (p : Nat) (before : Tile) (s : State) : s.Still (unlockBreak p before s) := by
  unfold unlockBreak
  split
  · split
    · split
      · exact (beginStop_still _ _ _ _ _ _).trans (haltTile_still _ _)
      · exact State.Still.refl s
    · exact State.Still.refl s
  · exact State.Still.refl s

/-- An effect that ends in `.go` completes the instruction at the next word. -/
theorem completes_go {s e : State} {t : Nat} {i : TInst} {c : Instr} {op : TOp} {body : TCtx → TRes} (hc : exec c s = runTile t .none op body s)
    (h : s.stands t 0 i = true) (hop : i.op = op) (hk : op ≠ .blk) (hb : body (s.ctxAt t 0 i) = .go e) : s.Completes c t e ((e.tile t).pc + 4) := by
  have hr := runWith_stands h (fun i => if i.op = op then some body else none) body (by simp [hop])
  rw [hb] at hr
  have hd := completeInst_done t i none e (by rw [hop]; exact hk)
  have hu := unlockBreak_still t (s.tile t) (completeInst t i none e)
  exact ⟨_, by rw [hc, runTile, hr], hd.1.trans hu.1, by rw [(hu.2 t).1, hd.2.1]; rfl, (hu.2 t).2 hd.2.2⟩

/-- An effect that ends in `.jump` completes the instruction at its target. -/
theorem completes_jump {s e : State} {t g : Nat} {i : TInst} {c : Instr} {op : TOp} {body : TCtx → TRes} (hc : exec c s = runTile t .none op body s)
    (h : s.stands t 0 i = true) (hop : i.op = op) (hk : op ≠ .blk) (hb : body (s.ctxAt t 0 i) = .jump e g) : s.Completes c t e g := by
  have hr := runWith_stands h (fun i => if i.op = op then some body else none) body (by simp [hop])
  rw [hb] at hr
  have hd := completeInst_done t i (some g) e (by rw [hop]; exact hk)
  exact ⟨_, by rw [hc, runTile, hr], hd.1, hd.2.1, hd.2.2⟩

end Sys2Proof.Machine
end

