-- ==== Sys2Proof/WellFormed.lean ====
section
/-! DEFINITION. Which commands are well formed: every number that names a thing of the part names one that the spec gives it. -/

namespace Sys2Proof

/-- PF mailboxes are 0-3 and VF mailboxes 0-511 (06_mailboxes_and_commands.md). -/
def Mbox.wf : Mbox → Bool
  | .pf k => decide (k < 4)
  | .vf v => decide (v < 512)
  | .mgmt => true
  | .sec => true

/-- The 77 power domains (15_power_and_clocks.md, Table: Power domains). -/
def PowerDomain.wf : PowerDomain → Bool
  | .column c => decide (c < 48)
  | .stack k => decide (k < 8)
  | .spine h => decide (h < 2)
  | .halfLink h => decide (h < 2)
  | .solver h => decide (h < 2)
  | .seq h => decide (h < 2)
  | .qfe => true
  | .fabric p => decide (p < 12)

/-- A command whose operands are in range. -/
def Instr.wf : Instr → Bool
  | .perstRelease _ _ | .perstAssert | .pwrgdDeassert | .romBootEnd | .fwVerified _ | .configurationReady | .columnPowerUp | .stackTraining _ => true
  | .stackInitialisation | .readiness | .startFailed _ | .listenStart | .pcieLinkDown | .vfEnableSet _ | .vfEnableClear | .pktNop _ => true
  | .fence _ | .seqOpen _ | .seqFeed _ | .seqStep _ | .seqClose _ | .solveSet _ | .solveDelta _ | .solveDrop _ => true
  | .paramWrite _ | .paramRead _ | .signal _ | .wait _ | .queryQueueAccounting _ | .querySequence _ | .queryQuotaUse _ | .weightChunk _ => true
  | .signalAckTimeout _ | .packetTimeout _ | .ucWrite _ | .ucRead _ | .ucReadData _ | .ucSemInc _ | .ucChanMsg _ | .ucChanCredit _ => true
  | .ucAck _ | .ucNack _ | .ucCfgRead _ | .ucCfgWrite _ | .ucCfgData _ | .halfLinkDown | .monthBoundary | .equinox _ _ => true
  | .equinoxMissed | .adrift | .tileSolverRequest _ | .l12Exit | .summerReached _ | .winterEntry | .refclkLost | .probeTimeout _ => true
  | .heartbeatCheck | .warmDeviceReset _ _ _ | .flushPhaseEnd | .spWatchdog | .seasonInstall _ _ | .mgmtQueueTimeout _ | .dumpCaptureEnd | .turnoverComplete _ _ => true
  | .registerWrite _ | .misalignedAccess _ | .lowHalfRead _ | .highHalfRead _ | .lowHalfWrite _ | .highHalfWrite _ | .fabHlErrRead | .fabAlmSkewRead => true
  | .pwrStatsRead | .pwrThermalRead | .pwrStartRead | .pwrAuditRead | .secViolationRead | .dbgTracePtrRead | .mgmtHandshake _ | .request _ => true
  | .bulk _ _ _ _ | .enroll _ _ | .ownerUpdate _ _ _ | .keepalive | .keyExchange | .getMeasurements _ | .endSession _ | .spdmHeartbeatTimeout _ => true
  | .setEndpointId _ | .getEndpointId | .getMctpVersionSupport | .getMessageTypeSupport | .getPdr _ | .getSensorReading _ | .getStateSensorReadings | .powerOn => true
  | .powerCycle | .refclkReturn | .frequencyLock | .spdmHeartbeat _ | .managementSessionEnd | .serviceWithdrawGrace _ => true
  | .configRequest f _ | .flr f | .msixMaskChange f _ | .pageRequestResponse f _ _ | .pageRequestTimeout f _ | .atsInvalidation f _ => decide (f < 513)
  | .vfResetComplete v | .vfResetTimeout v | .startInterface v | .stopInterface v => decide (v < 512)
  | .lqiSqTail f qp _ | .lqiCqHead f qp _ | .lqiCqMod f qp _ | .packetPlacement f qp | .fenceRelease f qp | .reservedOpcodePacket f qp | .cqRecordWrite f qp | .cqModTimer f qp => decide (f < 513) && decide (qp < 16)
  | .notifyRecordTimeout f qp | .queueResetComplete f qp | .atsTranslationCompletion f qp _ _ => decide (f < 513) && decide (qp < 16)
  | .fetchGrant qfe | .qfeHang qfe => decide (qfe < 16)
  | .ringReadCompletion qfe slot _ | .ringReadTimeout qfe slot => decide (qfe < 16) && decide (slot < 128)
  | .stepLimitExpiry job | .admissionClose job | .workListBuilt job | .stepBuilderBoundMissed job | .plannedAction job _ | .plannedTransferStart job _ | .layerBoundary job | .jobSwitchDone job => decide (job < 64)
  | .wake job _ | .gate job _ | .columnOn job _ | .columnOff job _ | .shadowCompare job | .jobKillComplete job | .killEscalation job | .fabJobSilentRead job => decide (job < 64)
  | .columnPowerGood col | .columnPowerGoodTimeout col | .quietLate col => decide (col < 48)
  | .powerDomainOff d _ => d.wf
  | .add t _ | .sub t _ | .and t _ | .or t _ | .xor t _ | .shl t _ | .shr t _ | .sra t _ => decide (t < 816)
  | .mul t _ | .mulhu t _ | .slt t _ | .sltu t _ | .min t _ | .max t _ | .minu t _ | .maxu t _ => decide (t < 816)
  | .addi t _ | .andi t _ | .ori t _ | .xori t _ | .shli t _ | .shri t _ | .srai t _ | .movi t _ => decide (t < 816)
  | .movhi t _ | .slti t _ | .ld t _ | .lw t _ | .lh t _ | .lb t _ | .st t _ | .sw t _ => decide (t < 816)
  | .sh t _ | .sb t _ | .beq t _ | .bne t _ | .blt t _ | .bge t _ | .bltu t _ | .bgeu t _ => decide (t < 816)
  | .j t _ | .call t _ | .callr t _ | .jr t _ | .ret t _ | .tret t _ | .nop t _ | .lock t _ => decide (t < 816)
  | .unlock t _ | .sync t _ | .waitcyc t _ | .waitcycS t _ | .rdoff t _ | .rdstep t _ | .rdid t _ | .rdjob t _ => decide (t < 816)
  | .spillw t _ | .fillw t _ | .srr t _ | .srw t _ | .semInc t _ | .semAcq t _ | .semTry t _ | .semIncr t _ => decide (t < 816)
  | .send t _ | .recv t _ | .release t _ | .credBorrow t _ | .credReturn t _ | .watch t _ | .pread t _ | .pwrite t _ => decide (t < 816)
  | .blk t _ | .xfer t _ | .outboxPost t _ | .vadd t _ | .vsub t _ | .vmul t _ | .vfma t _ | .vmax t _ => decide (t < 816)
  | .vmin t _ | .vexp t _ | .vlog t _ | .vrsq t _ | .vcvti t _ | .vcvtf t _ | .vbcast t _ | .vredsum t _ => decide (t < 816)
  | .vredmax t _ | .viadd t _ | .vimul t _ | .vld t _ | .vst t _ | .waitConditionMet t _ | .rowGroupEnd t _ | .watchReread t => decide (t < 816)
  | .probeRoundStart t _ | .probeRoundEnd t _ _ _ | .probeRoundTimeout t | .observationTest t _ _ | .observationPeriodEnd t | .tileHalt t | .lockWait t | .haltTimeout t => decide (t < 816)
  | .breakpointHit t | .tileAwake t | .unplannedWakeIdle t | .storeCePeriodEnd t => decide (t < 816)
  | .transferRequest tag _ | .transferResponse tag _ | .transferNoResponse tag => decide (tag < 32768)
  | .pageTableUpdate part _ _ | .holdRepaired part | .holdLimit part | .drainGraceExpiry part | .partitionResetEnd part | .partitionResetTimeout part | .partSwitchMaxRead part | .partUcNackRead part => decide (part < 8)
  | .partHoldRead part | .partMemerrRead part | .partShadowStatsRead part => decide (part < 8)
  | .stackChannelFail ch | .stackRefresh ch => decide (ch < 128)
  | .slotSend port _ | .slotReceive port _ | .signalFrame port _ | .signalAck port _ | .semRead port _ | .semData port _ | .almCtrl port _ | .delayReq port _ => decide (port < 12)
  | .delayRsp port _ | .portUp port _ _ | .portDown port | .partnerCall port | .answerWindow port | .trainingTimeout port | .fabPortErrRead port => decide (port < 12)
  | .problemStart h | .seqBuildRead h | .fabMeshNackRead h | .fabMeshErrRead h | .seqSolverStatsRead h | .seqSolverMaxRead h | .intcLostCountRead h | .intcParityError h => decide (h < 2)
  | .solverUnit h ctx _ | .solverDeadline h ctx | .solverHang h ctx => decide (h < 2) && decide (ctx < 256)
  | .sourceEdge h tgt src | .levelInputChange h tgt src _ | .intcSrc h tgt src _ => decide (h < 2) && decide (tgt < 2) && decide (src < 1024)
  | .intcClaim h tgt | .intcComplete h tgt _ | .intcSpuriousRead h tgt => decide (h < 2) && decide (tgt < 2)
  | .holdoffEnd h g => decide (h < 2) && decide (g < 32)
  | .wakeLatch h src => decide (h < 2) && decide (src < 1024)
  | .thermalAlert die _ | .thermalTrip die _ | .thermalAlertEnd die _ => decide (die < 16)
  | .railExcursion rail => decide (rail < 9)
  | .regulatorRefill part res => decide (part < 8) && decide (res < 4)
  | .heartbeat cp | .cpRestartEnd cp | .cpRestartTimeout cp | .cpReq cp => decide (cp < 4)
  | .go mb | .ack mb | .mbNoticeHead mb _ | .mbNoticeLostRead mb | .identify mb | .status mb | .deviceReset mb | .powerStateWinter mb => mb.wf
  | .powerStateSummer mb | .operationStatus mb | .noticeMask mb | .timeRead mb | .sliceRead mb | .vfQuota mb | .vfReset mb | .partCreate mb => mb.wf
  | .partDestroy mb | .partReset mb | .partDrain mb | .partStatus mb | .partRegulate mb | .seasonLoad mb | .seasonUnload mb | .jobStart mb => mb.wf
  | .jobKill mb | .jobModify mb | .jobStatus mb | .serviceVisibility mb | .servicePositions mb | .serviceWithdraw mb | .serviceList mb | .queueCreate mb => mb.wf
  | .queueModify mb | .queueReset mb | .queueDelete mb | .signalTarget mb | .stepLimit mb | .fetchReserve mb | .healthRead mb | .shadowSet mb => mb.wf
  | .probe mb | .observeAdd mb | .observeRemove mb | .patternInstall mb | .patternList mb | .dumpCapture mb | .dumpRead mb | .dumpClear mb => mb.wf
  | .errlogRead mb | .cpRestart mb | .spareMapRead mb | .secStatus mb | .tenantTurnover mb | .weightKeyImport mb _ | .hostLockout mb | .debugUnlockChallenge mb => mb.wf
  | .debugUnlockResponse mb _ | .debugRelock mb | .fwUpdate mb | .ownershipRead mb | .fabStatus mb | .fabPort mb | .almanacJoin mb | .almanacLeave mb => mb.wf
  | .semaphoreGrant mb | .dbgHalt mb | .dbgResume mb | .dbgPeek mb | .dbgTake mb | .dbgTrace mb => mb.wf
  | .ideCheckFailed stream qfe slot => decide (stream < 5) && decide (qfe < 16) && decide (slot < 128)
  | .lockInterface v stream => decide (v < 512) && decide (stream < 4)
  | .ideKm _ stream => decide (stream < 5)

end Sys2Proof
end

