-- ==== Sys2Proof/Tests/Slice0.lean ====
section
/-! SUPPORT. Tests. First the checks of WellFormed, then words and numbers that the spec writes out, then for each statement with hypotheses states and operands that
meet them all: `wit_X` applies the statement `X`, clause by clause, to those states and operands, every hypothesis being decided, and so the command of
each clause answers a next state. -/

namespace Sys2Proof.Tests

open Sys2Proof Sys2Proof.Machine

/-! ## Ill-formed commands are refused -/

theorem test_wf_mailbox : Instr.wf (.go (.pf 4)) = false ∧ Instr.wf (.go (.vf 512)) = false ∧ Instr.wf (.go (.vf 511)) = true := by decide
theorem test_wf_domain : Instr.wf (.powerDomainOff (.column 48)  false) = false ∧ Instr.wf (.powerDomainOff (.stack 8)  false) = false ∧
    Instr.wf (.powerDomainOff (.spine 2)  false) = false ∧ Instr.wf (.powerDomainOff (.halfLink 2)  false) = false ∧ Instr.wf (.powerDomainOff (.solver 2)  false) = false ∧
    Instr.wf (.powerDomainOff (.seq 2)  false) = false ∧ Instr.wf (.powerDomainOff (.fabric 12)  false) = false := by decide
theorem test_wf_function : Instr.wf (.flr 513) = false ∧ Instr.wf (.packetPlacement 513 0) = false ∧ Instr.wf (.packetPlacement 3 16) = false ∧
    Instr.wf (.queueResetComplete 0 16) = false ∧ Instr.wf (.vfResetComplete 512) = false ∧ Instr.wf (.startInterface 512) = false := by decide
theorem test_wf_fetch : Instr.wf (.fetchGrant 16) = false ∧ Instr.wf (.ringReadTimeout 16 0) = false ∧ Instr.wf (.ringReadTimeout 0 128) = false := by decide
theorem test_wf_job : Instr.wf (.admissionClose 64) = false ∧ Instr.wf (.shadowCompare 64) = false := by decide
theorem test_wf_tile : Instr.wf (.add 816 .none) = false ∧ Instr.wf (.movhi 816 .none) = false ∧ Instr.wf (.sh 816 .none) = false ∧ Instr.wf (.j 816 .none) = false ∧
    Instr.wf (.unlock 816 .none) = false ∧ Instr.wf (.spillw 816 .none) = false ∧ Instr.wf (.send 816 .none) = false ∧ Instr.wf (.blk 816 .none) = false ∧
    Instr.wf (.vmin 816 .none) = false ∧ Instr.wf (.vst 816 .none) = false ∧ Instr.wf (.probeRoundTimeout 816) = false ∧ Instr.wf (.tileAwake 816) = false := by decide
theorem test_wf_device : Instr.wf (.columnPowerGood 48) = false ∧ Instr.wf (.transferNoResponse 32768) = false ∧ Instr.wf (.holdLimit 8) = false ∧
    Instr.wf (.partHoldRead 8) = false ∧ Instr.wf (.stackChannelFail 128) = false ∧ Instr.wf (.portDown 12) = false ∧ Instr.wf (.answerWindow 12) = false := by decide
theorem test_wf_halves : Instr.wf (.problemStart 2) = false ∧ Instr.wf (.solverHang 0 256) = false ∧ Instr.wf (.sourceEdge 0 2 0) = false ∧ Instr.wf (.sourceEdge 0 0 1024) = false ∧
    Instr.wf (.intcClaim 2 0) = false ∧ Instr.wf (.holdoffEnd 0 32) = false ∧ Instr.wf (.wakeLatch 0 1024) = false := by decide
theorem test_wf_others : Instr.wf (.railExcursion 9) = false ∧ Instr.wf (.regulatorRefill 0 4) = false ∧ Instr.wf (.heartbeat 4) = false ∧ Instr.wf (.ideKm 0 5) = false ∧
    Instr.wf (.ideCheckFailed 5 0 0) = false ∧ Instr.wf (.lockInterface 0 4) = false := by decide

/-! ## Words of tile instructions, one or more of each format (09_tile_instructions.md, Table: Program, and words written out bit by bit) -/

/-- Format I: MOVI g5, 0x1C is 001001 00101 00000 0000000000011100. -/
theorem test_word_i : decodeTile 0b00100100101000000000000000011100 = some { op := .movi, rd := 5, imm := 0x1C } := by decide
/-- Format R: ADD g3, g1, g2 is 000001 00011 00001 00010 00000000000. -/
theorem test_word_r : decodeTile 0b00000100011000010001000000000000 = some { op := .add, rd := 3, ra := 1, rb := 2 } := by decide
/-- Format J: J -5 is 011110 and 26 bits of -5. -/
theorem test_word_j : decodeTile 0b01111011111111111111111111111011 = some { op := .j, imm := 0x3FFFFFB } := by decide
/-- Format X: SEM.ACQ 3, g6. -/
theorem test_word_x : decodeTile 0x8C060C01 = some { op := .semAcq, ra := 6, res := 3 } := by decide
/-- Format V: VFMA v3, v1, v2 is 101000 0011 0001 0010 00000 000000011. -/
theorem test_word_v : decodeTile 0b10100000110001001000000000000011 = some { op := .vfma, rd := 0, vd := 3, va := 1, vb := 2 } := by decide
/-- Format J: CALL +2 is 011111 and 26 bits of 2. -/
theorem test_word_call : decodeTile 0b01111100000000000000000000000010 = some { op := .call, imm := 2 } := by decide
/-- A reserved opcode, and a nonzero bit that the format does not use. -/
theorem test_word_bad : decodeTile 0xFFFFFFFF = none ∧ decodeTile 0x046117FF = none := by decide

/-! ## Numbers of the spec's worked examples -/

/-- 02, CQ phase: 1, 251 and 249 free slots. -/
theorem test_cq_free : ({ cqLog := 8, cqHead := 0, cqTail := 254 } : QueuePair).cqFree = 1 ∧ ({ cqLog := 8, cqHead := 250, cqTail := 254 } : QueuePair).cqFree = 251 ∧
    ({ cqLog := 8, cqHead := 250, cqTail := 0 } : QueuePair).cqFree = 249 := by decide
/-- 07, regulating a load: 32,000 bytes a tick. -/
theorem test_regulator : State.reset.refRate 0 * 25 / 100 = 32000 := by decide
/-- 10: partition 4 holds lanes 0-3 and FAB_HL_LANES reads 0xEFFF_FFFF_FFFF_4444. -/
theorem test_lanes : ({ State.reset with parts := [(4, { lanes := [0, 1, 2, 3] })] } : State).lanesPeek = 0xEFFFFFFFFFFF4444 := by decide +kernel
/-- 11: DVA 0x40_0A3C_0000 walks by the indices 8, 81 and 28. -/
theorem test_walk : bits 0x400A3C0000 47 35 = 8 ∧ bits 0x400A3C0000 34 21 = 81 ∧ bits 0x400A3C0000 20 16 = 28 := by decide
/-- 13: seven joints, one task, 35 entries, 1,020 bytes; iteration 0 takes 344 cycles and each later one 812. -/
theorem test_skeleton :
    let b : Bytes := fit 1020 (zeros 2 ++ le 1 7 ++ le 1 0 ++ le 2 7 ++ le 1 1 ++ le 1 1 ++ zeros (64 - 8 + 96 * 7 + 16 * 7) ++ le 1 0 ++ le 1 2)
    skelEntries b = 35 ∧ skelSize b = 1020 ∧ unitCycles b 2 1 36 = 344 ∧ unitCycles b 2 2 36 = 812 := by decide +kernel
/-- 21: the likeness 0x0000_0102_2101_0401. -/
theorem test_likeness : ({ State.reset with ident := { State.reset.ident with fusesRead := true } } : State).likeness = 0x0000010221010401 := by decide

/-! ## Small states -/

def r0 : State := State.reset
def tx : Tile := { power := 1, job := some 0, regs := [(1, 0x8000000000000005), (2, 0xFFFFFFFFFFFFFF85), (3, 0x43), (4, 64), (5, 1)] }
def tj : Job := { state := 2, offset := 5, step := 7, stepStart := some 0 }
def tse : Season := { stepCycles := 100, layerEnds := [50, 100] }
def tq : Part := { cols := [0], runJob := some 0, season := some tse }
def tileSt (x : Tile) (i : TInst) (run : Nat) : State :=
  { State.reset with
    tiles := [(0, { x with run := run, store := Mem.write x.store x.pc (le 4 (encodeTile i)) })]
    jobs := [(0, tj)]
    parts := [(0, tq)] }
def tS (i : TInst) : State := tileSt tx i 0
def cols2 : Tab Nat := (List.range 48).map (fun c => (c, 2))
def allDom : List PowerDomain := (List.range 48).map PowerDomain.column ++ (List.range 8).map PowerDomain.stack ++ [.qfe]
def rdy : State :=
  { State.reset with
    pins := { perst := false, pwrgd := true }
    clk := { cycle := 3000000, tick := 2000, monthsOn := true, readyTick := 1000, phase := 100, months := 5 }
    start := { stage := 6, romDone := true, cfgReady := true, listening := true, nextCol := 48, stacksDone := true, nextStack := 8 }
    pwr := { state := 2, ready := true, cols := cols2, domains := allDom, cpClock := true, checkTick := 0 }
    hl := { state := 2 } }
def busy : State :=
  { rdy with
    parts := [(0, tq)]
    jobs := [(0, tj)]
    tiles := [(0, tx)]
    qps := [(16 * 512, { qfe := 0, state := 1 }), (16 * 3 + 1, { state := 1, qfe := 1 })]
    fns := [(512, { state := 2, gen := 1 }), (3, { state := 2, gen := 4, quotas := { qp := 2, vec := 2 }, targets := [(0, { kind := 2 })], msixEnable := true }), (4, { state := 2, gen := 2, quotas := { qp := 1 } })]
    pkts := [(1, { qp := 16 * 3 + 1, gen := 4, taken := true })]
    nextPkt := 2
    ports := [(0, { state := 3 }), (1, { state := 1 })]
    mem := { stack := [(5, 7#8), (70, 9#8)], poison := [(9, true)] }
    ladder := { log := [{ seq := 1, kind := 3 }], logSeq := 2 }
    health := [(3, { state := 1, fails := 1 })]
    cfg := { numVfs := 8, vfEnable := true, linkUp := true } }
def ph (op fl slots sid h len : Nat) (rest : Bytes) : Bytes :=
  fit 64 (le 1 op ++ le 1 fl ++ le 2 slots ++ le 4 sid ++ le 8 0x77 ++ le 4 h ++ le 4 len ++ zeros 8 ++ rest)
def svcA : Svc := { sid := 9, kind := 1, flags := 7, maxPkt := 64, maxCpl := 20, positions := 8, lcLimit := 4, beLimit := 4, chunk := 4, feedKinds := 14, kvBytes := 1024, maxTok := 50, paramBase := 2, paramSlots := 6 }
def svcB : Svc := { svcA with sid := 10, kind := 2 }
def svcC : Svc := { svcA with sid := 11, kind := 3 }
def seA : Season :=
  { tse with lead := 20, batch := 8, listEntries := 4,
             regions := [{ kind := 4, dva := 0x10000, bytes := 640 }, { kind := 5, entry := 0, dva := 0x20000, bytes := 0x10000 }, { kind := 6, entry := 0, dva := 0x30000, bytes := 0x10000 }] }
def qA : Part :=
  { tq with season := some seA, svcs := [(0, svcA), (1, svcB), (2, svcC)], l1 := [(0, 0x20001)], tables := [(0x4000, 0x0F)], seqBase := 32, seqLen := 8, chans := [0], kvFree := [0x400000, 0x410000, 0x420000] }
def vA : Func := { state := 2, gen := 4, quotas := { qp := 2, vec := 2, seq := 4, pos := 2, tag := 8, fetch := 4, skel := 2 }, targets := [(0, { kind := 2, half := 1, sem := 5 }), (1, { kind := 0 })] }
def pkA : State :=
  { rdy with
    parts := [(0, qA)]
    jobs := [(0, { tj with state := 1 })]
    fns := [(512, { state := 2, gen := 1 }), (3, vA)]
    svcGrants := [(3, 9), (3, 10), (3, 11)]
    qps := [(49, { state := 1, sqLog := 6, cqLog := 6 }), (50, { state := 1, bulk := true }), (8192, { state := 1, lc := true })]
    nextPkt := 7 }
def rq (op fl : Nat) (par : Bytes) : Bytes := le 2 op ++ le 1 fl ++ le 1 0 ++ le 2 77 ++ le 2 496 ++ zeros 8 ++ par
def srv (s : State) (m : Mbox) (r : Bytes) : State := { s with mail := { s.mail with boxes := s.mail.boxes.put (Mbox.num m) { (s.box m) with state := 1, taken := some r, mask := 0xFFFF } } }

/-- The command answers a next state. -/
def Ran (c : Instr) (s : State) : Prop := ∃ t, exec c s = .next t

theorem ran {o : Host.Outcome State Fault Refusal} {p : State → Prop} (h : ∃ t, o = .next t ∧ p t) : ∃ t, o = .next t := h.imp fun _ a => a.1

theorem each2 {α β : Type} {o : Option α} {f : α → Option β} {P : α → β → Prop} (a : α) (b : β) (h1 : o = some a) (h2 : f a = some b) (h3 : P a b) :
    ∀ p q, o = some p → f p = some q → P p q := by
  intro p q hp hq; rw [h1] at hp; cases hp; rw [h2] at hq; cases hq; exact h3

theorem sv {s : State} {m : Mbox} {op : Nat} {r : Bytes} (h : s.hasBox m = true ∧ boxTakes m (op / 256) = true ∧ (∃ c, c ∈ cmdTable ∧ c.1 = op ∧ c.2.1 &&& boxWho m ≠ 0) ∧
    (s.box m).taken = some r ∧ (s.box m).state = 1 ∧ (s.box m).discard = false ∧ reqOpcode r = op ∧ (∀ e, e ∈ headBad r → e.2 = false) ∧
    s.cpsOut = false ∧ s.pins.thermtrip = false ∧ s.mail.locks = [] ∧ s.mail.late = [] ∧ s.opsOut < 64 ∧ s.sec.ownerDue = none) : s.Serves m op r := h

theorem tk {s : State} {pid op : Nat} {p : Packet} {q : QueuePair} (h : s.pkts.look pid = some p ∧ s.qps.look p.qp = some q ∧ p.taken = false ∧ p.final = false ∧
    p.opcode = op ∧ s.live p = true ∧ ∀ e, e ∈ s.pkts → e.1 < pid → e.2.fnKey = p.fnKey → e.2.taken = true ∨ e.2.final = true ∨ s.live e.2 = false) :
    s.Takes pid op p q := h

/-! ## The hypotheses of the statements are met -/

namespace Arithmetic

def iadd : TInst := { op := .add, rd := 1, ra := 2, rb := 3 }
def sadd : State := tS iadd
def isub : TInst := { op := .sub, rd := 1, ra := 2, rb := 3 }
def ssub : State := tS isub
def iand : TInst := { op := .and, rd := 1, ra := 2, rb := 3 }
def sand : State := tS iand
def ior : TInst := { op := .or, rd := 1, ra := 2, rb := 3 }
def sor : State := tS ior
def ixor : TInst := { op := .xor, rd := 1, ra := 2, rb := 3 }
def sxor : State := tS ixor
def ishl : TInst := { op := .shl, rd := 1, ra := 2, rb := 3 }
def sshl : State := tS ishl
def ishr : TInst := { op := .shr, rd := 1, ra := 2, rb := 3 }
def sshr : State := tS ishr
def isra : TInst := { op := .sra, rd := 1, ra := 2, rb := 3 }
def ssra : State := tS isra
def imul : TInst := { op := .mul, rd := 1, ra := 2, rb := 3 }
def smul : State := tS imul
def imulhu : TInst := { op := .mulhu, rd := 1, ra := 2, rb := 3 }
def smulhu : State := tS imulhu
def islt : TInst := { op := .slt, rd := 1, ra := 2, rb := 3 }
def sslt : State := tS islt
def isltu : TInst := { op := .sltu, rd := 1, ra := 2, rb := 3 }
def ssltu : State := tS isltu
def imin : TInst := { op := .min, rd := 1, ra := 2, rb := 3 }
def smin : State := tS imin
def imax : TInst := { op := .max, rd := 1, ra := 2, rb := 3 }
def smax : State := tS imax
def iminu : TInst := { op := .minu, rd := 1, ra := 2, rb := 3 }
def sminu : State := tS iminu
def imaxu : TInst := { op := .maxu, rd := 1, ra := 2, rb := 3 }
def smaxu : State := tS imaxu
def iaddi : TInst := { op := .addi, rd := 1, ra := 2, imm := 65520 }
def saddi : State := tS iaddi
def iandi : TInst := { op := .andi, rd := 1, ra := 2, imm := 65520 }
def sandi : State := tS iandi
def iori : TInst := { op := .ori, rd := 1, ra := 2, imm := 65520 }
def sori : State := tS iori
def ixori : TInst := { op := .xori, rd := 1, ra := 2, imm := 65520 }
def sxori : State := tS ixori
def ishli : TInst := { op := .shli, rd := 1, ra := 2, imm := 63 }
def sshli : State := tS ishli
def ishri : TInst := { op := .shri, rd := 1, ra := 2, imm := 63 }
def sshri : State := tS ishri
def israi : TInst := { op := .srai, rd := 1, ra := 2, imm := 63 }
def ssrai : State := tS israi
def imovi : TInst := { op := .movi, rd := 1, ra := 0, imm := 65520 }
def smovi : State := tS imovi
def imovhi : TInst := { op := .movhi, rd := 1, ra := 0, imm := 65520 }
def smovhi : State := tS imovhi
def islti : TInst := { op := .slti, rd := 1, ra := 2, imm := 65520 }
def sslti : State := tS islti

theorem wit_RegisterArithmetic : Obligations.RegisterArithmetic →
    Ran (.add 0 Upset.none) sadd ∧
    Ran (.sub 0 Upset.none) ssub ∧
    Ran (.and 0 Upset.none) sand ∧
    Ran (.or 0 Upset.none) sor ∧
    Ran (.xor 0 Upset.none) sxor ∧
    Ran (.shl 0 Upset.none) sshl ∧
    Ran (.shr 0 Upset.none) sshr ∧
    Ran (.sra 0 Upset.none) ssra ∧
    Ran (.mul 0 Upset.none) smul ∧
    Ran (.mulhu 0 Upset.none) smulhu ∧
    Ran (.slt 0 Upset.none) sslt ∧
    Ran (.sltu 0 Upset.none) ssltu ∧
    Ran (.min 0 Upset.none) smin ∧
    Ran (.max 0 Upset.none) smax ∧
    Ran (.minu 0 Upset.none) sminu ∧
    Ran (.maxu 0 Upset.none) smaxu := fun h =>
  ⟨ran (((h sadd 0 iadd (by decide +kernel)).1 (by decide +kernel))),
   ran (((h ssub 0 isub (by decide +kernel)).2.1 (by decide +kernel))),
   ran (((h sand 0 iand (by decide +kernel)).2.2.1 (by decide +kernel))),
   ran (((h sor 0 ior (by decide +kernel)).2.2.2.1 (by decide +kernel))),
   ran (((h sxor 0 ixor (by decide +kernel)).2.2.2.2.1 (by decide +kernel))),
   ran (((h sshl 0 ishl (by decide +kernel)).2.2.2.2.2.1 (by decide +kernel))),
   ran (((h sshr 0 ishr (by decide +kernel)).2.2.2.2.2.2.1 (by decide +kernel))),
   ran (((h ssra 0 isra (by decide +kernel)).2.2.2.2.2.2.2.1 (by decide +kernel))),
   ran (((h smul 0 imul (by decide +kernel)).2.2.2.2.2.2.2.2.1 (by decide +kernel))),
   ran (((h smulhu 0 imulhu (by decide +kernel)).2.2.2.2.2.2.2.2.2.1 (by decide +kernel))),
   ran (((h sslt 0 islt (by decide +kernel)).2.2.2.2.2.2.2.2.2.2.1 (by decide +kernel))),
   ran (((h ssltu 0 isltu (by decide +kernel)).2.2.2.2.2.2.2.2.2.2.2.1 (by decide +kernel))),
   ran (((h smin 0 imin (by decide +kernel)).2.2.2.2.2.2.2.2.2.2.2.2.1 (by decide +kernel))),
   ran (((h smax 0 imax (by decide +kernel)).2.2.2.2.2.2.2.2.2.2.2.2.2.1 (by decide +kernel))),
   ran (((h sminu 0 iminu (by decide +kernel)).2.2.2.2.2.2.2.2.2.2.2.2.2.2.1 (by decide +kernel))),
   ran (((h smaxu 0 imaxu (by decide +kernel)).2.2.2.2.2.2.2.2.2.2.2.2.2.2.2 (by decide +kernel)))⟩

theorem wit_ImmediateArithmetic : Obligations.ImmediateArithmetic →
    Ran (.addi 0 Upset.none) saddi ∧
    Ran (.andi 0 Upset.none) sandi ∧
    Ran (.ori 0 Upset.none) sori ∧
    Ran (.xori 0 Upset.none) sxori ∧
    Ran (.shli 0 Upset.none) sshli ∧
    Ran (.shri 0 Upset.none) sshri ∧
    Ran (.srai 0 Upset.none) ssrai ∧
    Ran (.movi 0 Upset.none) smovi ∧
    Ran (.movhi 0 Upset.none) smovhi ∧
    Ran (.slti 0 Upset.none) sslti := fun h =>
  ⟨ran (((h saddi 0 iaddi (by decide +kernel)).1 (by decide +kernel))),
   ran (((h sandi 0 iandi (by decide +kernel)).2.1 (by decide +kernel))),
   ran (((h sori 0 iori (by decide +kernel)).2.2.1 (by decide +kernel))),
   ran (((h sxori 0 ixori (by decide +kernel)).2.2.2.1 (by decide +kernel))),
   ran (((h sshli 0 ishli (by decide +kernel)).2.2.2.2.1 (by decide +kernel))),
   ran (((h sshri 0 ishri (by decide +kernel)).2.2.2.2.2.1 (by decide +kernel))),
   ran (((h ssrai 0 israi (by decide +kernel)).2.2.2.2.2.2.1 (by decide +kernel))),
   ran (((h smovi 0 imovi (by decide +kernel)).2.2.2.2.2.2.2.1 (by decide +kernel))),
   ran (((h smovhi 0 imovhi (by decide +kernel)).2.2.2.2.2.2.2.2.1 (by decide +kernel))),
   ran (((h sslti 0 islti (by decide +kernel)).2.2.2.2.2.2.2.2.2 (by decide +kernel)))⟩

end Arithmetic

namespace TileInstructions

def i1 : TInst := { op := .ld, rd := 4, ra := 2, imm := 0 }
def x1 : Tile := { tx with store := [(0x100,0x81#8),(0x101,0x92#8),(0x103,0x13#8),(0x107,0xF4#8),(0x1FFFF8,0x77#8)], regs := [(1, 0x1F8), (2, 0x100), (3, 0x40), (4,0x8899AABBCCDDEEFF), (5,3)] }
def s1 : State := tileSt x1 i1 0
def i2 : TInst := { op := .lw, rd := 4, ra := 2, imm := 0 }
def x2 : Tile := { tx with store := [(0x100,0x81#8),(0x101,0x92#8),(0x103,0x13#8),(0x107,0xF4#8),(0x1FFFF8,0x77#8)], regs := [(1, 0x1F8), (2, 0x100), (3, 0x40), (4,0x8899AABBCCDDEEFF), (5,3)] }
def s2 : State := tileSt x2 i2 0
def i3 : TInst := { op := .lh, rd := 4, ra := 2, imm := 0 }
def x3 : Tile := { tx with store := [(0x100,0x81#8),(0x101,0x92#8),(0x103,0x13#8),(0x107,0xF4#8),(0x1FFFF8,0x77#8)], regs := [(1, 0x1F8), (2, 0x100), (3, 0x40), (4,0x8899AABBCCDDEEFF), (5,3)] }
def s3 : State := tileSt x3 i3 0
def i4 : TInst := { op := .lb, rd := 4, ra := 2, imm := 3 }
def x4 : Tile := { tx with store := [(0x100,0x81#8),(0x101,0x92#8),(0x103,0x13#8),(0x107,0xF4#8),(0x1FFFF8,0x77#8)], regs := [(1, 0x1F8), (2, 0x100), (3, 0x40), (4,0x8899AABBCCDDEEFF), (5,3)] }
def s4 : State := tileSt x4 i4 0
def i6 : TInst := { op := .ld, rd := 4, ra := 2, imm := 0 }
def x6 : Tile := { tx with store := [(0x100,0x81#8),(0x101,0x92#8),(0x103,0x13#8),(0x107,0xF4#8),(0x1FFFF8,0x77#8)], regs := [(1, 0x1F8), (2, 0x100), (3, 0x40), (4,0x8899AABBCCDDEEFF), (5,3)], lock := some { pc := 0, count := 3, stores := [(0x100, 0x55#8)] } }
def s6 : State := tileSt x6 i6 0
def i7 : TInst := { op := .vld, vd := 1, ra := 2, fmt := 1 }
def x7 : Tile := { tx with store := [(0x100,0x81#8),(0x101,0x92#8),(0x103,0x13#8),(0x107,0xF4#8),(0x1FFFF8,0x77#8)], regs := [(1, 0x1F8), (2, 0x100), (3, 0x40), (4,0x8899AABBCCDDEEFF), (5,3)] }
def s7 : State := tileSt x7 i7 0
def i12 : TInst := { op := .vld, vd := 1, ra := 2, fmt := 6 }
def x12 : Tile := { tx with store := [(0x100,0x81#8),(0x101,0x92#8),(0x103,0x13#8),(0x107,0xF4#8),(0x1FFFF8,0x77#8)], regs := [(1, 0x1F8), (2, 0x100), (3, 0x40), (4,0x8899AABBCCDDEEFF), (5,3)] }
def s12 : State := tileSt x12 i12 0
def i13 : TInst := { op := .fillw, ra := 1, rb := 2 }
def x13 : Tile := { tx with store := [(0x100,0x81#8),(0x101,0x92#8),(0x103,0x13#8),(0x107,0xF4#8),(0x1FFFF8,0x77#8)], inTrap := true, regs := [(1, 9), (2,0x100)] }
def s13 : State := tileSt x13 i13 0
def i14 : TInst := { op := .st, rd := 4, ra := 2, imm := 0 }
def x14 : Tile := { tx with store := [(0x100,0x81#8),(0x101,0x92#8),(0x103,0x13#8),(0x107,0xF4#8),(0x1FFFF8,0x77#8)], regs := [(1, 0x1F8), (2, 0x100), (3, 0x40), (4,0x8899AABBCCDDEEFF), (5,3)] }
def s14 : State := tileSt x14 i14 0
def i16 : TInst := { op := .sw, rd := 4, ra := 2, imm := 0 }
def x16 : Tile := { tx with store := [(0x100,0x81#8),(0x101,0x92#8),(0x103,0x13#8),(0x107,0xF4#8),(0x1FFFF8,0x77#8)], regs := [(1, 0x1F8), (2, 0x100), (3, 0x40), (4,0x8899AABBCCDDEEFF), (5,3)] }
def s16 : State := tileSt x16 i16 0
def i17 : TInst := { op := .sw, rd := 4, ra := 2, imm := 0 }
def x17 : Tile := { tx with store := [(0x100,0x81#8),(0x101,0x92#8),(0x103,0x13#8),(0x107,0xF4#8),(0x1FFFF8,0x77#8)], regs := [(1, 0x1F8), (2, 0x100), (3, 0x40), (4,0x8899AABBCCDDEEFF), (5,3)], lock := some { pc := 0, count := 3, stores := [(0x100, 0x55#8)] } }
def s17 : State := tileSt x17 i17 0
def i18 : TInst := { op := .sh, rd := 4, ra := 2, imm := 0 }
def x18 : Tile := { tx with store := [(0x100,0x81#8),(0x101,0x92#8),(0x103,0x13#8),(0x107,0xF4#8),(0x1FFFF8,0x77#8)], regs := [(1, 0x1F8), (2, 0x100), (3, 0x40), (4,0x8899AABBCCDDEEFF), (5,3)] }
def s18 : State := tileSt x18 i18 0
def i19 : TInst := { op := .sh, rd := 4, ra := 2, imm := 0 }
def x19 : Tile := { tx with store := [(0x100,0x81#8),(0x101,0x92#8),(0x103,0x13#8),(0x107,0xF4#8),(0x1FFFF8,0x77#8)], regs := [(1, 0x1F8), (2, 0x100), (3, 0x40), (4,0x8899AABBCCDDEEFF), (5,3)], lock := some { pc := 0, count := 3, stores := [(0x100, 0x55#8)] } }
def s19 : State := tileSt x19 i19 0
def i20 : TInst := { op := .sb, rd := 4, ra := 2, imm := 0 }
def x20 : Tile := { tx with store := [(0x100,0x81#8),(0x101,0x92#8),(0x103,0x13#8),(0x107,0xF4#8),(0x1FFFF8,0x77#8)], regs := [(1, 0x1F8), (2, 0x100), (3, 0x40), (4,0x8899AABBCCDDEEFF), (5,3)] }
def s20 : State := tileSt x20 i20 0
def i21 : TInst := { op := .sb, rd := 4, ra := 2, imm := 0 }
def x21 : Tile := { tx with store := [(0x100,0x81#8),(0x101,0x92#8),(0x103,0x13#8),(0x107,0xF4#8),(0x1FFFF8,0x77#8)], regs := [(1, 0x1F8), (2, 0x100), (3, 0x40), (4,0x8899AABBCCDDEEFF), (5,3)], lock := some { pc := 0, count := 3, stores := [(0x100, 0x55#8)] } }
def s21 : State := tileSt x21 i21 0
def i23 : TInst := { op := .st, rd := 4, ra := 2, imm := 0 }
def x23 : Tile := { tx with store := [(0x100,0x81#8),(0x101,0x92#8),(0x103,0x13#8),(0x107,0xF4#8),(0x1FFFF8,0x77#8)], regs := [(1, 0x1F8), (2, 0x100), (3, 0x40), (4,0x8899AABBCCDDEEFF), (5,3)], poison := [(8,true),(9,true)] }
def s23 : State := tileSt x23 i23 0
def i24 : TInst := { op := .vst, vd := 1, ra := 2, fmt := 1 }
def x24 : Tile := { tx with store := [(0x100,0x81#8),(0x101,0x92#8),(0x103,0x13#8),(0x107,0xF4#8),(0x1FFFF8,0x77#8)], regs := [(1, 0x1F8), (2, 0x100), (3, 0x40), (4,0x8899AABBCCDDEEFF), (5,3)], vregs := [(64,0x3F800000),(65,0xC0490FDB),(127,0x7FC00001)] }
def s24 : State := tileSt x24 i24 0
def i29 : TInst := { op := .vst, vd := 1, ra := 2, fmt := 6 }
def x29 : Tile := { tx with store := [(0x100,0x81#8),(0x101,0x92#8),(0x103,0x13#8),(0x107,0xF4#8),(0x1FFFF8,0x77#8)], regs := [(1, 0x1F8), (2, 0x100), (3, 0x40), (4,0x8899AABBCCDDEEFF), (5,3)], vregs := [(64,0x3F800000),(65,0xC0490FDB),(127,0x7FC00001)] }
def s29 : State := tileSt x29 i29 0
def i30 : TInst := { op := .spillw, ra := 1, rb := 2 }
def x30 : Tile := { tx with inTrap := true, regs := [(1, 9), (2,0x100),(24,5),(25,77)] }
def s30 : State := tileSt x30 i30 0
def i31 : TInst := { op := .beq, rd := 1, ra := 2, imm := 0xFF00 }
def x31 : Tile := { tx with regs := [(1, 5), (2, 0xFFFFFFFFFFFFFFFE), (3,5), (4,0x1FFFFC)], pc := 0x400 }
def s31 : State := tileSt x31 i31 0
def i32 : TInst := { op := .beq, rd := 1, ra := 3, imm := 0xFF00 }
def x32 : Tile := { tx with regs := [(1, 5), (2, 0xFFFFFFFFFFFFFFFE), (3,5), (4,0x1FFFFC)], pc := 0x400 }
def s32 : State := tileSt x32 i32 0
def i33 : TInst := { op := .bne, rd := 1, ra := 2, imm := 0xFF00 }
def x33 : Tile := { tx with regs := [(1, 5), (2, 0xFFFFFFFFFFFFFFFE), (3,5), (4,0x1FFFFC)], pc := 0x400 }
def s33 : State := tileSt x33 i33 0
def i34 : TInst := { op := .bne, rd := 1, ra := 3, imm := 0xFF00 }
def x34 : Tile := { tx with regs := [(1, 5), (2, 0xFFFFFFFFFFFFFFFE), (3,5), (4,0x1FFFFC)], pc := 0x400 }
def s34 : State := tileSt x34 i34 0
def i35 : TInst := { op := .blt, rd := 1, ra := 2, imm := 0xFF00 }
def x35 : Tile := { tx with regs := [(1, 5), (2, 0xFFFFFFFFFFFFFFFE), (3,5), (4,0x1FFFFC)], pc := 0x400 }
def s35 : State := tileSt x35 i35 0
def i36 : TInst := { op := .blt, rd := 1, ra := 3, imm := 0xFF00 }
def x36 : Tile := { tx with regs := [(1, 5), (2, 0xFFFFFFFFFFFFFFFE), (3,5), (4,0x1FFFFC)], pc := 0x400 }
def s36 : State := tileSt x36 i36 0
def i37 : TInst := { op := .bge, rd := 1, ra := 2, imm := 0xFF00 }
def x37 : Tile := { tx with regs := [(1, 5), (2, 0xFFFFFFFFFFFFFFFE), (3,5), (4,0x1FFFFC)], pc := 0x400 }
def s37 : State := tileSt x37 i37 0
def i38 : TInst := { op := .bge, rd := 1, ra := 3, imm := 0xFF00 }
def x38 : Tile := { tx with regs := [(1, 5), (2, 0xFFFFFFFFFFFFFFFE), (3,5), (4,0x1FFFFC)], pc := 0x400 }
def s38 : State := tileSt x38 i38 0
def i39 : TInst := { op := .bltu, rd := 1, ra := 2, imm := 0xFF00 }
def x39 : Tile := { tx with regs := [(1, 5), (2, 0xFFFFFFFFFFFFFFFE), (3,5), (4,0x1FFFFC)], pc := 0x400 }
def s39 : State := tileSt x39 i39 0
def i40 : TInst := { op := .bltu, rd := 1, ra := 3, imm := 0xFF00 }
def x40 : Tile := { tx with regs := [(1, 5), (2, 0xFFFFFFFFFFFFFFFE), (3,5), (4,0x1FFFFC)], pc := 0x400 }
def s40 : State := tileSt x40 i40 0
def i41 : TInst := { op := .bgeu, rd := 1, ra := 2, imm := 0xFF00 }
def x41 : Tile := { tx with regs := [(1, 5), (2, 0xFFFFFFFFFFFFFFFE), (3,5), (4,0x1FFFFC)], pc := 0x400 }
def s41 : State := tileSt x41 i41 0
def i42 : TInst := { op := .bgeu, rd := 1, ra := 3, imm := 0xFF00 }
def x42 : Tile := { tx with regs := [(1, 5), (2, 0xFFFFFFFFFFFFFFFE), (3,5), (4,0x1FFFFC)], pc := 0x400 }
def s42 : State := tileSt x42 i42 0
def i43 : TInst := { op := .j, imm := 0x3FFFF00 }
def x43 : Tile := { tx with regs := [(1, 5), (2, 0xFFFFFFFFFFFFFFFE), (3,5), (4,0x1FFFFC)], pc := 0x400 }
def s43 : State := tileSt x43 i43 0
def i44 : TInst := { op := .jr, ra := 4 }
def x44 : Tile := { tx with regs := [(1, 5), (2, 0xFFFFFFFFFFFFFFFE), (3,5), (4,0x1FFFFC)], pc := 0x400 }
def s44 : State := tileSt x44 i44 0
def i45 : TInst := { op := .call, imm := 4 }
def x45 : Tile := { tx with pc := 0x400, depth := 3, low := 1, spillBase := 0x1000, spillBytes := 0x1000, trapVec := 0x2000, regs := [(1,0x800)] }
def s45 : State := tileSt x45 i45 0
def i46 : TInst := { op := .callr, ra := 1 }
def x46 : Tile := { tx with pc := 0x400, depth := 3, low := 1, spillBase := 0x1000, spillBytes := 0x1000, trapVec := 0x2000, regs := [(1,0x800)] }
def s46 : State := tileSt x46 i46 0
def i47 : TInst := { op := .call, imm := 4 }
def x47 : Tile := { tx with pc := 0x400, depth := 8, low := 2, spillBase := 0x1000, spillBytes := 0x1000, trapVec := 0x2000, regs := [(1,0x800)] }
def s47 : State := tileSt x47 i47 0
def i48 : TInst := { op := .callr, ra := 1 }
def x48 : Tile := { tx with pc := 0x400, depth := 8, low := 2, spillBase := 0x1000, spillBytes := 0x1000, trapVec := 0x2000, regs := [(1,0x800)] }
def s48 : State := tileSt x48 i48 0
def i49 : TInst := { op := .ret }
def x49 : Tile := { tx with pc := 0x400, depth := 3, low := 1, spillBase := 0x1000, spillBytes := 0x1000, trapVec := 0x2000, regs := [(1,0x800),(71,0x500)] }
def s49 : State := tileSt x49 i49 0
def i50 : TInst := { op := .ret }
def x50 : Tile := { tx with pc := 0x400, depth := 3, low := 3, spillBase := 0x1000, spillBytes := 0x1000, trapVec := 0x2000, regs := [(1,0x800),(71,0x500)] }
def s50 : State := tileSt x50 i50 0
def i51 : TInst := { op := .tret }
def x51 : Tile := { tx with pc := 0x400, depth := 8, low := 2, spillBase := 0x1000, spillBytes := 0x1000, trapVec := 0x2000, regs := [(1,0x800)], inTrap := true, trapPc := 0x900, trapJump := some 0xA00 }
def s51 : State := tileSt x51 i51 0
def i52 : TInst := { op := .tret }
def x52 : Tile := { tx with pc := 0x400, depth := 3, low := 3, spillBase := 0x1000, spillBytes := 0x1000, trapVec := 0x2000, regs := [(1,0x800),(71,0x500)], inTrap := true, trapPc := 0x900 }
def s52 : State := tileSt x52 i52 0
def i53 : TInst := { op := .vadd, vd := 3, va := 1, vb := 2 }
def x53 : Tile := { tx with vregs := (List.range 64).flatMap (fun k => [(64+k, BitVec.ofNat 32 (0x3F800000 + 7919*k*(k%5)+ 0x80000000*(k%2))), (128+k, BitVec.ofNat 32 (0x40000000 + 104729*k)), (192+k, BitVec.ofNat 32 (0x7F700000+ 0x8000*k))]), regs := [(4,0x8899AABBCCDDEEFF)] }
def s53 : State := tileSt x53 i53 0
def i54 : TInst := { op := .vsub, vd := 3, va := 1, vb := 2 }
def x54 : Tile := { tx with vregs := (List.range 64).flatMap (fun k => [(64+k, BitVec.ofNat 32 (0x3F800000 + 7919*k*(k%5)+ 0x80000000*(k%2))), (128+k, BitVec.ofNat 32 (0x40000000 + 104729*k)), (192+k, BitVec.ofNat 32 (0x7F700000+ 0x8000*k))]), regs := [(4,0x8899AABBCCDDEEFF)] }
def s54 : State := tileSt x54 i54 0
def i55 : TInst := { op := .vmul, vd := 3, va := 1, vb := 2 }
def x55 : Tile := { tx with vregs := (List.range 64).flatMap (fun k => [(64+k, BitVec.ofNat 32 (0x3F800000 + 7919*k*(k%5)+ 0x80000000*(k%2))), (128+k, BitVec.ofNat 32 (0x40000000 + 104729*k)), (192+k, BitVec.ofNat 32 (0x7F700000+ 0x8000*k))]), regs := [(4,0x8899AABBCCDDEEFF)] }
def s55 : State := tileSt x55 i55 0
def i56 : TInst := { op := .vfma, vd := 3, va := 1, vb := 2 }
def x56 : Tile := { tx with vregs := (List.range 64).flatMap (fun k => [(64+k, BitVec.ofNat 32 (0x3F800000 + 7919*k*(k%5)+ 0x80000000*(k%2))), (128+k, BitVec.ofNat 32 (0x40000000 + 104729*k)), (192+k, BitVec.ofNat 32 (0x7F700000+ 0x8000*k))]), regs := [(4,0x8899AABBCCDDEEFF)] }
def s56 : State := tileSt x56 i56 0
def i57 : TInst := { op := .vmax, vd := 3, va := 1, vb := 2 }
def x57 : Tile := { tx with vregs := (List.range 64).flatMap (fun k => [(64+k, BitVec.ofNat 32 (0x3F800000 + 7919*k*(k%5)+ 0x80000000*(k%2))), (128+k, BitVec.ofNat 32 (0x40000000 + 104729*k)), (192+k, BitVec.ofNat 32 (0x7F700000+ 0x8000*k))]), regs := [(4,0x8899AABBCCDDEEFF)] }
def s57 : State := tileSt x57 i57 0
def i58 : TInst := { op := .vmin, vd := 3, va := 1, vb := 2 }
def x58 : Tile := { tx with vregs := (List.range 64).flatMap (fun k => [(64+k, BitVec.ofNat 32 (0x3F800000 + 7919*k*(k%5)+ 0x80000000*(k%2))), (128+k, BitVec.ofNat 32 (0x40000000 + 104729*k)), (192+k, BitVec.ofNat 32 (0x7F700000+ 0x8000*k))]), regs := [(4,0x8899AABBCCDDEEFF)] }
def s58 : State := tileSt x58 i58 0
def i59 : TInst := { op := .vexp, vd := 3, va := 1 }
def x59 : Tile := { tx with vregs := (List.range 64).flatMap (fun k => [(64+k, BitVec.ofNat 32 (0x3F800000 + 7919*k*(k%5)+ 0x80000000*(k%2))), (128+k, BitVec.ofNat 32 (0x40000000 + 104729*k)), (192+k, BitVec.ofNat 32 (0x7F700000+ 0x8000*k))]), regs := [(4,0x8899AABBCCDDEEFF)] }
def s59 : State := tileSt x59 i59 0
def i60 : TInst := { op := .vlog, vd := 3, va := 1 }
def x60 : Tile := { tx with vregs := (List.range 64).flatMap (fun k => [(64+k, BitVec.ofNat 32 (0x3F800000 + 7919*k*(k%5)+ 0x80000000*(k%2))), (128+k, BitVec.ofNat 32 (0x40000000 + 104729*k)), (192+k, BitVec.ofNat 32 (0x7F700000+ 0x8000*k))]), regs := [(4,0x8899AABBCCDDEEFF)] }
def s60 : State := tileSt x60 i60 0
def i61 : TInst := { op := .vrsq, vd := 3, va := 1 }
def x61 : Tile := { tx with vregs := (List.range 64).flatMap (fun k => [(64+k, BitVec.ofNat 32 (0x3F800000 + 7919*k*(k%5)+ 0x80000000*(k%2))), (128+k, BitVec.ofNat 32 (0x40000000 + 104729*k)), (192+k, BitVec.ofNat 32 (0x7F700000+ 0x8000*k))]), regs := [(4,0x8899AABBCCDDEEFF)] }
def s61 : State := tileSt x61 i61 0
def i62 : TInst := { op := .vcvti, vd := 3, va := 1 }
def x62 : Tile := { tx with vregs := (List.range 64).flatMap (fun k => [(64+k, BitVec.ofNat 32 (0x3F800000 + 7919*k*(k%5)+ 0x80000000*(k%2))), (128+k, BitVec.ofNat 32 (0x40000000 + 104729*k)), (192+k, BitVec.ofNat 32 (0x7F700000+ 0x8000*k))]), regs := [(4,0x8899AABBCCDDEEFF)] }
def s62 : State := tileSt x62 i62 0
def i63 : TInst := { op := .vcvtf, vd := 3, va := 1 }
def x63 : Tile := { tx with vregs := (List.range 64).flatMap (fun k => [(64+k, BitVec.ofNat 32 (0x3F800000 + 7919*k*(k%5)+ 0x80000000*(k%2))), (128+k, BitVec.ofNat 32 (0x40000000 + 104729*k)), (192+k, BitVec.ofNat 32 (0x7F700000+ 0x8000*k))]), regs := [(4,0x8899AABBCCDDEEFF)] }
def s63 : State := tileSt x63 i63 0
def i64 : TInst := { op := .vbcast, vd := 3, ra := 4, rd := 4 }
def x64 : Tile := { tx with vregs := (List.range 64).flatMap (fun k => [(64+k, BitVec.ofNat 32 (0x3F800000 + 7919*k*(k%5)+ 0x80000000*(k%2))), (128+k, BitVec.ofNat 32 (0x40000000 + 104729*k)), (192+k, BitVec.ofNat 32 (0x7F700000+ 0x8000*k))]), regs := [(4,0x8899AABBCCDDEEFF)] }
def s64 : State := tileSt x64 i64 0
def i65 : TInst := { op := .vredsum, rd := 2, va := 1, ra := 2 }
def x65 : Tile := { tx with vregs := (List.range 64).flatMap (fun k => [(64+k, BitVec.ofNat 32 (0x3F800000 + 7919*k*(k%5)+ 0x80000000*(k%2))), (128+k, BitVec.ofNat 32 (0x40000000 + 104729*k)), (192+k, BitVec.ofNat 32 (0x7F700000+ 0x8000*k))]), regs := [(4,0x8899AABBCCDDEEFF)] }
def s65 : State := tileSt x65 i65 0
def i66 : TInst := { op := .vredmax, rd := 2, va := 3, ra := 2 }
def x66 : Tile := { tx with vregs := (List.range 64).flatMap (fun k => [(64+k, BitVec.ofNat 32 (0x3F800000 + 7919*k*(k%5)+ 0x80000000*(k%2))), (128+k, BitVec.ofNat 32 (0x40000000 + 104729*k)), (192+k, BitVec.ofNat 32 (0x7F700000+ 0x8000*k))]), regs := [(4,0x8899AABBCCDDEEFF)] }
def s66 : State := tileSt x66 i66 0
def i67 : TInst := { op := .viadd, vd := 3, va := 1, vb := 2 }
def x67 : Tile := { tx with vregs := (List.range 64).flatMap (fun k => [(64+k, BitVec.ofNat 32 (0x3F800000 + 7919*k*(k%5)+ 0x80000000*(k%2))), (128+k, BitVec.ofNat 32 (0x40000000 + 104729*k)), (192+k, BitVec.ofNat 32 (0x7F700000+ 0x8000*k))]), regs := [(4,0x8899AABBCCDDEEFF)] }
def s67 : State := tileSt x67 i67 0
def i68 : TInst := { op := .vimul, vd := 3, va := 1, vb := 2 }
def x68 : Tile := { tx with vregs := (List.range 64).flatMap (fun k => [(64+k, BitVec.ofNat 32 (0x3F800000 + 7919*k*(k%5)+ 0x80000000*(k%2))), (128+k, BitVec.ofNat 32 (0x40000000 + 104729*k)), (192+k, BitVec.ofNat 32 (0x7F700000+ 0x8000*k))]), regs := [(4,0x8899AABBCCDDEEFF)] }
def s68 : State := tileSt x68 i68 0
def i69 : TInst := { op := .nop }
def x69 : Tile := tx
def s69 : State := tileSt x69 i69 0
def i70 : TInst := { op := .sync }
def x70 : Tile := tx
def s70 : State := tileSt x70 i70 0
def i71 : TInst := { op := .sync }
def x71 : Tile := { tx with posted := 1 }
def s71 : State := tileSt x71 i71 0
def i72 : TInst := { op := .waitcyc, ra := 5 }
def x72 : Tile := tx
def s72 : State := tileSt x72 i72 0
def i73 : TInst := { op := .waitcyc, ra := 4 }
def x73 : Tile := tx
def s73 : State := tileSt x73 i73 0
def i74 : TInst := { op := .waitcycS, ra := 5 }
def x74 : Tile := { tx with regs := [(5,5)] }
def s74 : State := tileSt x74 i74 0
def i75 : TInst := { op := .waitcycS, ra := 5 }
def x75 : Tile := { tx with regs := [(5,99)] }
def s75 : State := tileSt x75 i75 0
def i76 : TInst := { op := .rdoff, rd := 1 }
def x76 : Tile := tx
def s76 : State := tileSt x76 i76 0
def i77 : TInst := { op := .rdstep, rd := 1 }
def x77 : Tile := tx
def s77 : State := tileSt x77 i77 0
def i78 : TInst := { op := .rdid, rd := 1 }
def x78 : Tile := tx
def s78 : State := tileSt x78 i78 0
def i79 : TInst := { op := .rdjob, rd := 1 }
def x79 : Tile := tx
def s79 : State := tileSt x79 i79 0
def i80 : TInst := { op := .srr, rd := 1, imm := 0 }
def x80 : Tile := { tx with fpcr := 3, ce := 5, ue := 2, depth := 4, low := 2, loaned := 3, loanJob := 2 }
def s80 : State := tileSt x80 i80 0
def x81 : Tile := { tx with fpcr := 3, ce := 5, ue := 2, depth := 4, low := 2, loaned := 3, loanJob := 2 }
def i91 : TInst := { op := .srr, rd := 1, imm := 11 }
def x91 : Tile := { tx with fpcr := 3, ce := 5, ue := 2, depth := 4, low := 2, loaned := 3, loanJob := 2 }
def s91 : State := tileSt x91 i91 0
def i92 : TInst := { op := .srw, ra := 1, imm := 11 }
def x92 : Tile := { tx with fpcr := 7, regs := [(1,0x12B)] }
def s92 : State := tileSt x92 i92 0
def i93 : TInst := { op := .srw, ra := 1, imm := 11 }
def x93 : Tile := { tx with fpcr := 2, regs := [(1,0x127)] }
def s93 : State := tileSt x93 i93 0
def i94 : TInst := { op := .srw, ra := 1, imm := 0 }
def x94 : Tile := { tx with lockAborted := true, regs := [(1,0x80)] }
def s94 : State := tileSt x94 i94 0
def i95 : TInst := { op := .srw, ra := 1, imm := 0 }
def x95 : Tile := { tx with lockAborted := true, ce := 3, semHeld := 5, regs := [(1,0xFFFF7F)] }
def s95 : State := tileSt x95 i95 0
def x100 : Tile := { tx with lockAborted := true, ce := 3, semHeld := 5, regs := [(1,0xFFFF7F)] }
def x101 : Tile := { tx with lockAborted := true, ce := 3, semHeld := 5, regs := [(1,0xFFFF7F)] }
def x103 : Tile := { tx with lockAborted := true, ce := 3, semHeld := 5, regs := [(1,0xFFFF7F)] }
def i105 : TInst := { op := .srw, ra := 1, imm := 10 }
def x105 : Tile := { tx with lockAborted := true, ce := 3, semHeld := 5, regs := [(1,0xFFFF7F)] }
def s105 : State := tileSt x105 i105 0
def i106 : TInst := { op := .lock }
def x106 : Tile := tx
def s106 : State := tileSt x106 i106 0
def i107 : TInst := { op := .unlock }
def x107 : Tile := { tx with sems := [(3,5),(4,4)], lock := some { pc := 0, count := 3, stores := [(0x100, 0x55#8)], sems := [(3,2),(36,1)] } }
def s107 : State := tileSt x107 i107 0

theorem wit_LoadsReadTheTileStore : Obligations.LoadsReadTheTileStore →
    Ran (.ld 0 Upset.none) s1 ∧
    Ran (.lw 0 Upset.none) s2 ∧
    Ran (.lh 0 Upset.none) s3 ∧
    Ran (.lb 0 Upset.none) s4 ∧
    Ran (.ld 0 Upset.none) s6 ∧
    Ran (.vld 0 Upset.none) s7 ∧
    Ran (.vld 0 Upset.none) s12 ∧
    Ran (.fillw 0 Upset.none) s13 := fun h =>
  ⟨ran ((((h s1 0 i1 (by decide +kernel)).1) (by decide +kernel) (by decide +kernel))),
   ran ((((h s2 0 i2 (by decide +kernel)).2.1) (by decide +kernel) (by decide +kernel))),
   ran ((((h s3 0 i3 (by decide +kernel)).2.2.1) (by decide +kernel) (by decide +kernel))),
   ran ((((h s4 0 i4 (by decide +kernel)).2.2.2.1) (by decide +kernel) (by decide +kernel))),
   ran ((((h s6 0 i6 (by decide +kernel)).1) (by decide +kernel) (by decide +kernel))),
   ran ((((h s7 0 i7 (by decide +kernel)).2.2.2.2.1) (by decide +kernel) (by decide +kernel))),
   ran ((((h s12 0 i12 (by decide +kernel)).2.2.2.2.1) (by decide +kernel) (by decide +kernel))),
   ran ((((h s13 0 i13 (by decide +kernel)).2.2.2.2.2) (by decide +kernel) (by decide +kernel) (by decide +kernel)))⟩

theorem wit_StoresWriteTheTileStore : Obligations.StoresWriteTheTileStore →
    Ran (.st 0 Upset.none) s14 ∧
    Ran (.sw 0 Upset.none) s16 ∧
    Ran (.sw 0 Upset.none) s17 ∧
    Ran (.sh 0 Upset.none) s18 ∧
    Ran (.sh 0 Upset.none) s19 ∧
    Ran (.sb 0 Upset.none) s20 ∧
    Ran (.sb 0 Upset.none) s21 ∧
    Ran (.st 0 Upset.none) s23 ∧
    Ran (.vst 0 Upset.none) s24 ∧
    Ran (.vst 0 Upset.none) s29 ∧
    Ran (.spillw 0 Upset.none) s30 := fun h =>
  ⟨ran ((((h s14 0 i14 (by decide +kernel)).1) (by decide +kernel) (by decide +kernel))),
   ran ((((h s16 0 i16 (by decide +kernel)).2.1) (by decide +kernel) (by decide +kernel))),
   ran ((((h s17 0 i17 (by decide +kernel)).2.1) (by decide +kernel) (by decide +kernel))),
   ran ((((h s18 0 i18 (by decide +kernel)).2.2.1) (by decide +kernel) (by decide +kernel))),
   ran ((((h s19 0 i19 (by decide +kernel)).2.2.1) (by decide +kernel) (by decide +kernel))),
   ran ((((h s20 0 i20 (by decide +kernel)).2.2.2.1) (by decide +kernel) (by decide +kernel))),
   ran ((((h s21 0 i21 (by decide +kernel)).2.2.2.1) (by decide +kernel) (by decide +kernel))),
   ran ((((h s23 0 i23 (by decide +kernel)).1) (by decide +kernel) (by decide +kernel))),
   ran ((((h s24 0 i24 (by decide +kernel)).2.2.2.2.1) (by decide +kernel) (by decide +kernel))),
   ran ((((h s29 0 i29 (by decide +kernel)).2.2.2.2.1) (by decide +kernel) (by decide +kernel))),
   ran ((((h s30 0 i30 (by decide +kernel)).2.2.2.2.2) (by decide +kernel) (by decide +kernel) (by decide +kernel)))⟩

theorem wit_BranchesAndJumps : Obligations.BranchesAndJumps →
    Ran (.beq 0 Upset.none) s31 ∧
    Ran (.beq 0 Upset.none) s32 ∧
    Ran (.bne 0 Upset.none) s33 ∧
    Ran (.bne 0 Upset.none) s34 ∧
    Ran (.blt 0 Upset.none) s35 ∧
    Ran (.blt 0 Upset.none) s36 ∧
    Ran (.bge 0 Upset.none) s37 ∧
    Ran (.bge 0 Upset.none) s38 ∧
    Ran (.bltu 0 Upset.none) s39 ∧
    Ran (.bltu 0 Upset.none) s40 ∧
    Ran (.bgeu 0 Upset.none) s41 ∧
    Ran (.bgeu 0 Upset.none) s42 ∧
    Ran (.j 0 Upset.none) s43 ∧
    Ran (.jr 0 Upset.none) s44 := fun h =>
  ⟨ran ((((((h s31 0 i31 (by decide +kernel)).1) (by decide +kernel)).2) (by decide +kernel))),
   ran ((((((h s32 0 i32 (by decide +kernel)).1) (by decide +kernel)).1) (by decide +kernel) (by decide +kernel))),
   ran ((((((h s33 0 i33 (by decide +kernel)).2.1) (by decide +kernel)).1) (by decide +kernel) (by decide +kernel))),
   ran ((((((h s34 0 i34 (by decide +kernel)).2.1) (by decide +kernel)).2) (by decide +kernel))),
   ran ((((((h s35 0 i35 (by decide +kernel)).2.2.1) (by decide +kernel)).2) (by decide +kernel))),
   ran ((((((h s36 0 i36 (by decide +kernel)).2.2.1) (by decide +kernel)).2) (by decide +kernel))),
   ran ((((((h s37 0 i37 (by decide +kernel)).2.2.2.1) (by decide +kernel)).1) (by decide +kernel) (by decide +kernel))),
   ran ((((((h s38 0 i38 (by decide +kernel)).2.2.2.1) (by decide +kernel)).1) (by decide +kernel) (by decide +kernel))),
   ran ((((((h s39 0 i39 (by decide +kernel)).2.2.2.2.1) (by decide +kernel)).1) (by decide +kernel) (by decide +kernel))),
   ran ((((((h s40 0 i40 (by decide +kernel)).2.2.2.2.1) (by decide +kernel)).2) (by decide +kernel))),
   ran ((((((h s41 0 i41 (by decide +kernel)).2.2.2.2.2.1) (by decide +kernel)).2) (by decide +kernel))),
   ran ((((((h s42 0 i42 (by decide +kernel)).2.2.2.2.2.1) (by decide +kernel)).1) (by decide +kernel) (by decide +kernel))),
   ran ((((h s43 0 i43 (by decide +kernel)).2.2.2.2.2.2.1) (by decide +kernel) (by decide +kernel))),
   ran ((((h s44 0 i44 (by decide +kernel)).2.2.2.2.2.2.2) (by decide +kernel) (by decide +kernel)))⟩

theorem wit_CallsReturnsAndWindowTraps : Obligations.CallsReturnsAndWindowTraps →
    Ran (.call 0 Upset.none) s45 ∧
    Ran (.callr 0 Upset.none) s46 ∧
    Ran (.call 0 Upset.none) s47 ∧
    Ran (.callr 0 Upset.none) s48 ∧
    Ran (.ret 0 Upset.none) s49 ∧
    Ran (.ret 0 Upset.none) s50 ∧
    Ran (.tret 0 Upset.none) s51 ∧
    Ran (.tret 0 Upset.none) s52 := fun h =>
  ⟨ran ((((((h s45 0 i45 (by decide +kernel)).1) (by decide +kernel) (by decide +kernel) (by decide +kernel)).1) (by decide +kernel))),
   ran ((((((h s46 0 i46 (by decide +kernel)).2.1) (by decide +kernel) (by decide +kernel) (by decide +kernel)).1) (by decide +kernel))),
   ran ((((((h s47 0 i47 (by decide +kernel)).1) (by decide +kernel) (by decide +kernel) (by decide +kernel)).2) (by decide +kernel) (by decide +kernel))),
   ran ((((((h s48 0 i48 (by decide +kernel)).2.1) (by decide +kernel) (by decide +kernel) (by decide +kernel)).2) (by decide +kernel) (by decide +kernel))),
   ran ((((((h s49 0 i49 (by decide +kernel)).2.2.1) (by decide +kernel) (by decide +kernel) (by decide +kernel) (by decide +kernel)).1) (by decide +kernel))),
   ran ((((((h s50 0 i50 (by decide +kernel)).2.2.1) (by decide +kernel) (by decide +kernel) (by decide +kernel) (by decide +kernel)).2) (by decide +kernel))),
   ran ((((((h s51 0 i51 (by decide +kernel)).2.2.2) (by decide +kernel) (by decide +kernel)).1) 0xA00 (by decide +kernel))),
   ran ((((((h s52 0 i52 (by decide +kernel)).2.2.2) (by decide +kernel) (by decide +kernel)).2) (by decide +kernel)))⟩

theorem wit_VectorArithmetic : Obligations.VectorArithmetic →
    Ran (.vadd 0 Upset.none) s53 ∧
    Ran (.vsub 0 Upset.none) s54 ∧
    Ran (.vmul 0 Upset.none) s55 ∧
    Ran (.vfma 0 Upset.none) s56 ∧
    Ran (.vmax 0 Upset.none) s57 ∧
    Ran (.vmin 0 Upset.none) s58 ∧
    Ran (.vexp 0 Upset.none) s59 ∧
    Ran (.vlog 0 Upset.none) s60 ∧
    Ran (.vrsq 0 Upset.none) s61 ∧
    Ran (.vcvti 0 Upset.none) s62 ∧
    Ran (.vcvtf 0 Upset.none) s63 ∧
    Ran (.vbcast 0 Upset.none) s64 ∧
    Ran (.vredsum 0 Upset.none) s65 ∧
    Ran (.vredmax 0 Upset.none) s66 ∧
    Ran (.viadd 0 Upset.none) s67 ∧
    Ran (.vimul 0 Upset.none) s68 := fun h =>
  ⟨ran ((((h s53 0 i53 (by decide +kernel)).1) (by decide +kernel))),
   ran ((((h s54 0 i54 (by decide +kernel)).2.1) (by decide +kernel))),
   ran ((((h s55 0 i55 (by decide +kernel)).2.2.1) (by decide +kernel))),
   ran ((((h s56 0 i56 (by decide +kernel)).2.2.2.1) (by decide +kernel))),
   ran ((((h s57 0 i57 (by decide +kernel)).2.2.2.2.1) (by decide +kernel))),
   ran ((((h s58 0 i58 (by decide +kernel)).2.2.2.2.2.1) (by decide +kernel))),
   ran ((((h s59 0 i59 (by decide +kernel)).2.2.2.2.2.2.1) (by decide +kernel))),
   ran ((((h s60 0 i60 (by decide +kernel)).2.2.2.2.2.2.2.1) (by decide +kernel))),
   ran ((((h s61 0 i61 (by decide +kernel)).2.2.2.2.2.2.2.2.1) (by decide +kernel))),
   ran ((((h s62 0 i62 (by decide +kernel)).2.2.2.2.2.2.2.2.2.1) (by decide +kernel))),
   ran ((((h s63 0 i63 (by decide +kernel)).2.2.2.2.2.2.2.2.2.2.1) (by decide +kernel))),
   ran ((((h s64 0 i64 (by decide +kernel)).2.2.2.2.2.2.2.2.2.2.2.1) (by decide +kernel))),
   ran ((((h s65 0 i65 (by decide +kernel)).2.2.2.2.2.2.2.2.2.2.2.2.1) (by decide +kernel))),
   ran ((((h s66 0 i66 (by decide +kernel)).2.2.2.2.2.2.2.2.2.2.2.2.2.1) (by decide +kernel))),
   ran ((((h s67 0 i67 (by decide +kernel)).2.2.2.2.2.2.2.2.2.2.2.2.2.2.1) (by decide +kernel))),
   ran ((((h s68 0 i68 (by decide +kernel)).2.2.2.2.2.2.2.2.2.2.2.2.2.2.2.1) (by decide +kernel)))⟩

theorem wit_ControlAndSpecialInstructions : Obligations.ControlAndSpecialInstructions →
    Ran (.nop 0 Upset.none) s69 ∧
    Ran (.sync 0 Upset.none) s70 ∧
    Ran (.sync 0 Upset.none) s71 ∧
    Ran (.waitcyc 0 Upset.none) s72 ∧
    Ran (.waitcyc 0 Upset.none) s73 ∧
    Ran (.waitcycS 0 Upset.none) s74 ∧
    Ran (.waitcycS 0 Upset.none) s75 ∧
    Ran (.rdoff 0 Upset.none) s76 ∧
    Ran (.rdstep 0 Upset.none) s77 ∧
    Ran (.rdid 0 Upset.none) s78 ∧
    Ran (.rdjob 0 Upset.none) s79 ∧
    Ran (.srr 0 Upset.none) s80 ∧
    Ran (.srr 0 Upset.none) s91 ∧
    Ran (.srw 0 Upset.none) s92 ∧
    Ran (.srw 0 Upset.none) s93 ∧
    Ran (.srw 0 Upset.none) s94 ∧
    Ran (.srw 0 Upset.none) s95 ∧
    Ran (.srw 0 Upset.none) s105 ∧
    Ran (.lock 0 Upset.none) s106 ∧
    Ran (.unlock 0 Upset.none) s107 := fun h =>
  ⟨ran ((((h s69 0 i69 (by decide +kernel)).1) (by decide +kernel))),
   ran ((((((h s70 0 i70 (by decide +kernel)).2.1) (by decide +kernel)).1) (by decide +kernel))),
   ⟨_, (((((h s71 0 i71 (by decide +kernel)).2.1) (by decide +kernel)).2) (by decide +kernel))⟩,
   ran ((((((h s72 0 i72 (by decide +kernel)).2.2.1) (by decide +kernel) (by decide +kernel)).1) (by decide +kernel))),
   ⟨_, (((((h s73 0 i73 (by decide +kernel)).2.2.1) (by decide +kernel) (by decide +kernel)).2) (by decide +kernel))⟩,
   ran ((((((h s74 0 i74 (by decide +kernel)).2.2.2.1) (by decide +kernel) (by decide +kernel)).1) (by decide +kernel))),
   ⟨_, (((((h s75 0 i75 (by decide +kernel)).2.2.2.1) (by decide +kernel) (by decide +kernel)).2) (by decide +kernel))⟩,
   ran ((((h s76 0 i76 (by decide +kernel)).2.2.2.2.1) (by decide +kernel))),
   ran ((((h s77 0 i77 (by decide +kernel)).2.2.2.2.2.1) (by decide +kernel))),
   ran ((((h s78 0 i78 (by decide +kernel)).2.2.2.2.2.2.1) (by decide +kernel))),
   ran ((((h s79 0 i79 (by decide +kernel)).2.2.2.2.2.2.2.1) (by decide +kernel))),
   ran ((((h s80 0 i80 (by decide +kernel)).2.2.2.2.2.2.2.2.1) (by decide +kernel) (by decide +kernel))),
   ran ((((h s91 0 i91 (by decide +kernel)).2.2.2.2.2.2.2.2.1) (by decide +kernel) (by decide +kernel))),
   ran ((((h s92 0 i92 (by decide +kernel)).2.2.2.2.2.2.2.2.2.1) (by decide +kernel) (by decide +kernel) (by decide +kernel))),
   ran ((((h s93 0 i93 (by decide +kernel)).2.2.2.2.2.2.2.2.2.2.1) (by decide +kernel) (by decide +kernel) (by decide +kernel))),
   ran ((((h s94 0 i94 (by decide +kernel)).2.2.2.2.2.2.2.2.2.2.2.1) (by decide +kernel) (by decide +kernel) (by decide +kernel))),
   ran ((((h s95 0 i95 (by decide +kernel)).2.2.2.2.2.2.2.2.2.2.2.2.1) (by decide +kernel) (by decide +kernel) (by decide +kernel))),
   ran ((((h s105 0 i105 (by decide +kernel)).2.2.2.2.2.2.2.2.2.2.2.2.1) (by decide +kernel) (by decide +kernel) (by decide +kernel))),
   ran ((((h s106 0 i106 (by decide +kernel)).2.2.2.2.2.2.2.2.2.2.2.2.2.1) (by decide +kernel) (by decide +kernel))),
   ran ((((h s107 0 i107 (by decide +kernel)).2.2.2.2.2.2.2.2.2.2.2.2.2.2) (by decide +kernel) { pc := 0, count := 3, stores := [(0x100, 0x55#8)], sems := [(3,2),(36,1)], saved := [] } (match ({ s107.tile 0 with lock := none } : Tile).applySems 0 [(3,2),(36,1)] with | .ok y => y | _ => {}) (by decide +kernel) (by decide +kernel)))⟩

end TileInstructions

namespace TileMessages

def i1 : TInst := { op := .semInc, ra := 5, res := 4 }
def x1 : Tile := { tx with sems := [(3,5),(4,0xFFFC)], regs := [(5,3),(6,9)] }
def s1 : State := tileSt x1 i1 0
def i2 : TInst := { op := .semInc, ra := 5, res := 3 }
def x2 : Tile := { tx with sems := [(3,5),(4,0xFFFC)], regs := [(5,3),(6,9)], lock := some { pc := 0, count := 3, sems := [(1,1)] } }
def s2 : State := tileSt x2 i2 0
def i3 : TInst := { op := .semAcq, ra := 5, res := 3 }
def x3 : Tile := { tx with sems := [(3,5),(4,0xFFFC)], regs := [(5,3),(6,9)] }
def s3 : State := tileSt x3 i3 0
def i5 : TInst := { op := .semAcq, ra := 5, res := 3 }
def x5 : Tile := { tx with sems := [(3,5),(4,0xFFFC)], regs := [(5,3),(6,9)], semKind := 8 }
def s5 : State := tileSt x5 i5 0
def i6 : TInst := { op := .semAcq, ra := 6, res := 3 }
def x6 : Tile := { tx with sems := [(3,5),(4,0xFFFC)], regs := [(5,3),(6,9)] }
def s6 : State := tileSt x6 i6 0
def i7 : TInst := { op := .semAcq, ra := 6, res := 3 }
def x7 : Tile := { tx with sems := [(3,5),(4,0xFFFC)], regs := [(5,3),(6,9)], lock := some { pc := 0, count := 3, sems := [(1,1)] } }
def s7 : State := tileSt x7 i7 0
def i8 : TInst := { op := .semTry, rd := 1, ra := 5, res := 3 }
def x8 : Tile := { tx with sems := [(3,5),(4,0xFFFC)], regs := [(5,3),(6,9)] }
def s8 : State := tileSt x8 i8 0
def i9 : TInst := { op := .semTry, rd := 1, ra := 6, res := 3 }
def x9 : Tile := { tx with sems := [(3,5),(4,0xFFFC)], regs := [(5,3),(6,9)] }
def s9 : State := tileSt x9 i9 0
def i10 : TInst := { op := .recv, rd := 1, res := 2 }
def x10 : Tile := { tx with chans := [(2, { conf := true, avail := 3, credits := 4, queue := [(0x100, 5), (0x140, 6)], held := [(0x80,5)] }), (7, { conf := true, avail := 2, credits := 2, borrowed := [(2,1)] })], regs := [(5,2),(6,7)], loaned := 4, loanJob := 3 }
def s10 : State := tileSt x10 i10 0
def i11 : TInst := { op := .credBorrow, ra := 5, res := 7 }
def x11 : Tile := { tx with chans := [(2, { conf := true, avail := 3, credits := 4, queue := [(0x100, 5), (0x140, 6)], held := [(0x80,5)] }), (7, { conf := true, avail := 2, credits := 2, borrowed := [(2,1)] })], regs := [(5,2),(6,7)], loaned := 4, loanJob := 3 }
def s11 : State := tileSt x11 i11 0
def i12 : TInst := { op := .credReturn, ra := 5, res := 7 }
def x12 : Tile := { tx with chans := [(2, { conf := true, avail := 3, lent := 1, credits := 4, queue := [(0x100, 5), (0x140, 6)], held := [(0x80,5)] }), (7, { conf := true, avail := 2, credits := 2, borrowed := [(2,1)] })], regs := [(5,2),(6,7)], loaned := 4, loanJob := 3 }
def s12 : State := tileSt x12 i12 0
def i13 : TInst := { op := .semIncr, rd := 6, ra := 5, res := 3 }
def x13 : Tile := { tx with regs := [(5,17),(6,0x12345)] }
def s13 : State := tileSt x13 i13 0
def qreg : Part := { tq with regs := [(1, { rate := 1, bucket := 100, burst := 1 })] }
def i14 : TInst := { op := .semIncr, rd := 6, ra := 5, res := 3 }
def x14 : Tile := { tx with regs := [(5,17),(6,0x12345)] }
def s14 : State := { tileSt x14 i14 0 with parts := [(0, qreg)] }
def qslot : Part := { tq with season := some { tse with regions := [{ kind := 4, dva := 0x10000, bytes := 640 }] }, l1 := [(0,0x20001)], tables := [(0x4000,0x0F)] }
def i15 : TInst := { op := .pwrite, rd := 6, ra := 5 }
def x15 : Tile := { tx with regs := [(5,9),(6,0x1000)], store := [(0x1001,0x55#8)], poison := [(0x81,true)] }
def s15 : State := { tileSt x15 i15 0 with parts := [(0, qslot)] }
def i16 : TInst := { op := .send, ra := 5, res := 3 }
def x16 : Tile := { tx with regs := [(5,0x1000)], store := [(0x1001,0x55#8)], chans := [(2, { conf := true, avail := 3, credits := 4, flits := 2, dst := 20, dstChan := 4 }), (3, { conf := true, avail := 1, planned := true, flits := 1, dst := 20 }), (4, { conf := true, avail := 1, flits := 1, dst := 769 })] }
def s16 : State := tileSt x16 i16 0
def i17 : TInst := { op := .send, ra := 5, res := 2 }
def x17 : Tile := { tx with regs := [(5,0x1000)], store := [(0x1001,0x55#8)], chans := [(2, { conf := true, avail := 3, credits := 4, flits := 2, dst := 20, dstChan := 4 }), (3, { conf := true, avail := 1, planned := true, flits := 1, dst := 20 }), (4, { conf := true, avail := 1, flits := 1, dst := 769 })] }
def s17 : State := tileSt x17 i17 0
def i18 : TInst := { op := .send, ra := 5, res := 4 }
def x18 : Tile := { tx with regs := [(5,0x1000)], store := [(0x1001,0x55#8)], chans := [(2, { conf := true, avail := 3, credits := 4, flits := 2, dst := 20, dstChan := 4 }), (3, { conf := true, avail := 1, planned := true, flits := 1, dst := 20 }), (4, { conf := true, avail := 1, flits := 1, dst := 769 })] }
def s18 : State := tileSt x18 i18 0
def i19 : TInst := { op := .release, res := 2 }
def x19 : Tile := { tx with chans := [(2, { conf := true, held := [(0x100, 2050)], queue := [(0x80,1)] })] }
def s19 : State := tileSt x19 i19 0
def i20 : TInst := { op := .release, res := 2 }
def x20 : Tile := { tx with chans := [(2, { conf := true, held := [(0x100, 770)], queue := [(0x80,1)] })] }
def s20 : State := tileSt x20 i20 0
def i21 : TInst := { op := .watch, rd := 6, ra := 5, rb := 1 }
def x21 : Tile := { tx with regs := [(5,9),(6,0x1000),(1,0x77)], store := [(0x1001,0x55#8)], poison := [(0x81,true)] }
def s21 : State := { tileSt x21 i21 0 with parts := [(0, qslot)], mem := { State.reset.mem with stack := [(0x10240, 0x77#8)], poison := [] } }
def i22 : TInst := { op := .pread, rd := 6, ra := 5 }
def x22 : Tile := { tx with regs := [(5,9),(6,0x1000),(1,0x77)], store := [(0x1001,0x55#8)], poison := [(0x81,true)] }
def s22 : State := { tileSt x22 i22 0 with parts := [(0, qslot)], mem := { State.reset.mem with stack := [(0x10240, 0x77#8)], poison := [] } }
def i23 : TInst := { op := .pread, rd := 6, ra := 5 }
def x23 : Tile := { tx with regs := [(5,9),(6,0x1000),(1,0x77)], store := [(0x1001,0x55#8)], poison := [(0x81,true)] }
def s23 : State := { tileSt x23 i23 0 with parts := [(0, qslot)], mem := { State.reset.mem with stack := [(0x10240, 0x77#8)], poison := [(0x409,true)] } }
def i24 : TInst := { op := .xfer, ra := 5 }
def x24 : Tile := { tx with regs := [(5,0x1000)], store := [(0x1000,1#8),(0x1009,0x10#8),(0x100C,0x40#8),(0x1011,0x20#8)] }
def s24 : State := tileSt x24 i24 0
def i25 : TInst := { op := .blk, ra := 5 }
def x25 : Tile := { tx with fpcr := 3, regs := [(5,0x1000)], store := Mem.write [] 0x1000 (le 1 4 ++ le 1 0 ++ le 1 2 ++ le 1 0 ++ le 1 1 ++ le 1 0 ++ le 2 20 ++ le 2 64 ++ le 2 0 ++ le 4 0 ++ le 4 0x10000 ++ le 4 0x80 ++ zeros 8 ++ le 4 0x30000 ++ le 4 0x100 ++ zeros 24) }
def s25 : State := tileSt x25 i25 0
def jpost : Job := { tj with occupied := [3] }
def qpost : Part := { tq with season := some { tse with regions := [{ kind := 6, dva := 0, bytes := 0x10000 }] }, svcs := [(0, { sid := 9, maxCpl := 20 })], l1 := [(0,0x20001)], tables := [(0x4000,0x0F)] }
def i26 : TInst := { op := .outboxPost, ra := 5 }
def x26 : Tile := { tx with regs := [(5,0x1000)], store := Mem.write [] 0x1000 (le 2 3 ++ le 2 0 ++ le 1 1 ++ le 1 1 ++ le 2 0 ++ le 4 70 ++ le 4 0 ++ le 8 0x200 ++ zeros 8) }
def s26 : State := { tileSt x26 i26 0 with parts := [(0, qpost)], jobs := [(0, jpost)], seqs := [(3, { stepPkt := 44 })] }
def i27 : TInst := { op := .sync }
def x27 : Tile := tx
def s27 : State := tileSt x27 i27 1
def i28 : TInst := { op := .semAcq, ra := 5, res := 3 }
def x28 : Tile := { tx with sems := [(3,5),(4,0xFFFC)], regs := [(5,3),(6,9)] }
def s28 : State := tileSt x28 i28 1
def i29 : TInst := { op := .watch, rd := 6, ra := 5, rb := 1 }
def x29 : Tile := { tx with regs := [(5,9),(6,0x1000),(1,0x77)], store := [(0x1001,0x55#8)], poison := [(0x81,true)], watch := some 9 }
def s29 : State := { tileSt x29 i29 1 with parts := [(0, qslot)], mem := { State.reset.mem with stack := [(0x10240, 0x77#8)], poison := [] } }
def xb : Tile := { tx with inBlk := true, rowsDone := 16, rowsTotal := 20, descAddr := 0x1000, blkFpcr := 1, store := (Mem.write [(0x10001,0x3F#8),(0x11200,0x80#8),(0x11201,0x3F#8),(0x20002,0x80#8),(0x20003,0x3F#8)] 0x1000 (le 1 4 ++ le 1 0 ++ le 1 2 ++ le 1 0 ++ le 1 1 ++ le 1 0 ++ le 2 20 ++ le 2 64 ++ le 2 0 ++ le 4 0 ++ le 4 0x10000 ++ le 4 0x80 ++ zeros 8 ++ le 4 0x30000 ++ le 4 0x100 ++ zeros 24)) }
def xb2 : Tile := { xb with rowsDone := 0 }
def sb1 : State := { tileSt tx { op := .nop } 0 with tiles := [(0, xb)] }
def sb2 : State := { tileSt tx { op := .nop } 0 with tiles := [(0, xb2)] }

theorem wit_SemaphoresAndCredits : Obligations.SemaphoresAndCredits →
    Ran (.semInc 0 Upset.none) s1 ∧
    Ran (.semInc 0 Upset.none) s2 ∧
    Ran (.semAcq 0 Upset.none) s3 ∧
    Ran (.semAcq 0 Upset.none) s5 ∧
    Ran (.semAcq 0 Upset.none) s6 ∧
    Ran (.semAcq 0 Upset.none) s7 ∧
    Ran (.semTry 0 Upset.none) s8 ∧
    Ran (.semTry 0 Upset.none) s9 ∧
    Ran (.recv 0 Upset.none) s10 ∧
    Ran (.credBorrow 0 Upset.none) s11 ∧
    Ran (.credReturn 0 Upset.none) s12 := fun h =>
  ⟨ran ((((h s1 0 i1 (by decide +kernel)).1) (by decide +kernel) (by decide +kernel))),
   ran ((((h s2 0 i2 (by decide +kernel)).1) (by decide +kernel) (by decide +kernel))),
   ran ((((h s3 0 i3 (by decide +kernel)).2.1) (by decide +kernel) (by decide +kernel))),
   ran ((((h s5 0 i5 (by decide +kernel)).2.1) (by decide +kernel) (by decide +kernel))),
   ⟨_, (((h s6 0 i6 (by decide +kernel)).2.2.1) (by decide +kernel) (by decide +kernel))⟩,
   ⟨_, (((h s7 0 i7 (by decide +kernel)).2.2.1) (by decide +kernel) (by decide +kernel))⟩,
   ran ((((((h s8 0 i8 (by decide +kernel)).2.2.2.1) (by decide +kernel)).1) (by decide +kernel))),
   ran ((((((h s9 0 i9 (by decide +kernel)).2.2.2.1) (by decide +kernel)).2) (by decide +kernel))),
   ran ((((h s10 0 i10 (by decide +kernel)).2.2.2.2.1) (by decide +kernel) (by decide +kernel) (by decide +kernel) (0x100,5) [(0x140,6)] (by decide +kernel))),
   ran ((((h s11 0 i11 (by decide +kernel)).2.2.2.2.2.1) (by decide +kernel) (by decide +kernel) (by decide +kernel) (by decide +kernel) (by decide +kernel))),
   ran ((((h s12 0 i12 (by decide +kernel)).2.2.2.2.2.2) (by decide +kernel) (by decide +kernel) (by decide +kernel) (by decide +kernel) (by decide +kernel)))⟩

theorem wit_TilesSendMessages : Obligations.TilesSendMessages →
    Ran (.semIncr 0 Upset.none) s13 ∧
    Ran (.semIncr 0 Upset.none) s14 ∧
    Ran (.pwrite 0 Upset.none) s15 ∧
    Ran (.send 0 Upset.none) s16 ∧
    Ran (.send 0 Upset.none) s17 ∧
    Ran (.send 0 Upset.none) s18 ∧
    Ran (.release 0 Upset.none) s19 ∧
    Ran (.release 0 Upset.none) s20 := fun h =>
  ⟨ran ((((h s13 0 i13 (by decide +kernel)).1) (by decide +kernel) (by decide +kernel) s13 (by decide +kernel))),
   ran ((((h s14 0 i14 (by decide +kernel)).1) (by decide +kernel) (by decide +kernel) ((takeTokens 0 1 64 s14).getD {}) (by decide +kernel))),
   ran ((((h s15 0 i15 (by decide +kernel)).2.1) (by decide +kernel) (by decide +kernel) (by decide +kernel) (by decide +kernel) s15 (by decide +kernel))),
   ran ((((((h s16 0 i16 (by decide +kernel)).2.2.1) (by decide +kernel) (by decide +kernel) (by decide +kernel) (by decide +kernel) (by decide +kernel)).1) (by decide +kernel))),
   ran ((((((h s17 0 i17 (by decide +kernel)).2.2.1) (by decide +kernel) (by decide +kernel) (by decide +kernel) (by decide +kernel) (by decide +kernel)).2) (by decide +kernel) s17 (by decide +kernel))),
   ran ((((((h s18 0 i18 (by decide +kernel)).2.2.1) (by decide +kernel) (by decide +kernel) (by decide +kernel) (by decide +kernel) (by decide +kernel)).2) (by decide +kernel) s18 (by decide +kernel))),
   ran ((((((h s19 0 i19 (by decide +kernel)).2.2.2) (by decide +kernel) (by decide +kernel) (0x100,2050) [] (by decide +kernel)).1) (by decide +kernel))),
   ran ((((((h s20 0 i20 (by decide +kernel)).2.2.2) (by decide +kernel) (by decide +kernel) (0x100,770) [] (by decide +kernel)).2.1) (by decide +kernel) (by decide +kernel)))⟩

theorem wit_SlotsTransfersAndBlocks : Obligations.SlotsTransfersAndBlocks →
    Ran (.watch 0 Upset.none) s21 ∧
    Ran (.pread 0 Upset.none) s22 ∧
    Ran (.pread 0 Upset.none) s23 ∧
    Ran (.xfer 0 Upset.none) s24 ∧
    Ran (.blk 0 Upset.none) s25 ∧
    Ran (.outboxPost 0 Upset.none) s26 := fun h =>
  ⟨ran ((((h s21 0 i21 (by decide +kernel)).1) (by decide +kernel) (by decide +kernel) (State.reset.mem.stack.read 0 0 ++ [0x77#8] ++ zeros 63) false (by decide +kernel) (by decide +kernel))),
   ran ((((h s22 0 i22 (by decide +kernel)).2.1) (by decide +kernel) (by decide +kernel) ([0x77#8] ++ zeros 63) false false (by decide +kernel))),
   ran ((((h s23 0 i23 (by decide +kernel)).2.1) (by decide +kernel) (by decide +kernel) ([0x77#8] ++ zeros 63) true true (by decide +kernel))),
   ran ((((h s24 0 i24 (by decide +kernel)).2.2.1) (by decide +kernel) (by decide +kernel) (by decide +kernel) ((s24.freeTag 0 false 0).getD 0) (by decide +kernel))),
   ran ((((h s25 0 i25 (by decide +kernel)).2.2.2.1) (by decide +kernel) (by decide +kernel) (by decide +kernel))),
   ran ((((h s26 0 i26 (by decide +kernel)).2.2.2.2) (by decide +kernel) (by decide +kernel) (by decide +kernel) (by decide +kernel) (by decide +kernel) (by decide +kernel) (zeros 70) (by decide +kernel)))⟩

theorem wit_WaitsEndAndRowGroupsEnd : Obligations.WaitsEndAndRowGroupsEnd →
    Ran (.waitConditionMet 0 Upset.none) s27 ∧
    Ran (.waitConditionMet 0 Upset.none) s28 ∧
    Ran (.watchReread 0) s29 ∧
    Ran (.rowGroupEnd 0 Upset.none) sb1 ∧
    Ran (.rowGroupEnd 0 Upset.none) sb2 := fun h =>
  ⟨ran ((((((h s27 0).1) i27 (by decide +kernel)).1) (by decide +kernel) (by decide +kernel))),
   ran ((((((h s28 0).1) i28 (by decide +kernel)).2.1) (by decide +kernel) (by decide +kernel) (by decide +kernel))),
   ⟨_, (((((h s29 0).1) i29 (by decide +kernel)).2.2) (by decide +kernel) (by decide +kernel) (by decide +kernel))⟩,
   ran ((((h sb1 0).2) (by decide +kernel) (by decide +kernel) (by decide +kernel) (by decide +kernel) (by decide +kernel) (by decide +kernel) (by decide +kernel) (each2 0 ((sb1.parts.val 0 {})) (by decide +kernel) (by decide +kernel) (by decide +kernel)))),
   ran ((((h sb2 0).2) (by decide +kernel) (by decide +kernel) (by decide +kernel) (by decide +kernel) (by decide +kernel) (by decide +kernel) (by decide +kernel) (each2 0 ((sb2.parts.val 0 {})) (by decide +kernel) (by decide +kernel) (by decide +kernel))))⟩

end TileMessages

namespace StartUp

def lowp : State := { busy with pins := { perst := false, pwrgd := false, refclkLost := true } }
def rl : State := { busy with pins := { perst := false, pwrgd := true, refclkLost := true } }
def aoff : State := { r0 with pins := { aon := false } }
def st0 : State := { r0 with pins := { perst := false, pwrgd := true }, start := { running := true } }
def st1 : State := { st0 with start := { running := true, romDone := true, stage := 1 }, sec := { State.reset.sec with fw := [(0, { level := 1 }), (1, { level := 1, svn := 2 })] } }
def st1b : State := { st1 with sec := { State.reset.sec with fw := [(0, { present := false }), (1, { level := 1, svn := 2 })], activeFw := 1 } }
def st2 : State := { st1 with start := { running := true, romDone := true, stage := 2 }, pwr := { State.reset.pwr with cpClock := true } }
def stc : State := { rdy with start := { State.reset.start with stage := 6, nextCol := 47 }, pwr := { state := 1, cpClock := true }, clk := { tick := 2000 } }
def st2t : State := { st2 with start := { running := true, romDone := true, stage := 3, nextStack := 2, stackTries := 1 } }
def sti : State := { st2 with start := { running := true, romDone := true, stage := 3, nextStack := 8 }, mem := { stack := [(5,7)], poison := [(1,true)] } }
def stif : State := { sti with start := { running := true, romDone := true, stage := 3, nextStack := 8, stacksFailed := [0] } }
def strd : State := { rdy with start := { running := true, stage := 5, cfgReady := true, stacksDone := true, nextStack := 8, nextCol := 48 }, pwr := { rdy.pwr with ready := false, state := 1 } }
def strdp : State := { strd with start := { running := true, stage := 5, cfgReady := true, stacksDone := true, nextStack := 8, nextCol := 48, pendingActive := some 1, failedCols := [3] }, sec := { State.reset.sec with fw := [(0,{}),(1,{svn := 3})] } }
def stl : State := { rdy with start := { stage := 6, cfgReady := true }, clk := { tick := 100000 }, ports := [(1, { disabled := true })] }
def stf : State := { busy with ladder := { flush := some 1 } }
def wa : State := { rdy with pwr := { rdy.pwr with state := 3, winterOp := some (5, .pf 0) } }
def wal : State := { wa with alm := { State.reset.alm with state := 3, domain := 4 } }
def ww : State := { rdy with pwr := { state := 0 }, start := { rdy.start with nextCol := 48 } }
def wsp : State := { rdy with pwr := { rdy.pwr with state := 1, ready := false } }
def seW : Season := { tse with wakes := [{ tile := 0x0000, action := 1, offset := 5 }, { tile := 1, action := 2 }, { tile := 2, action := 2 }, { tile := 160, action := 3, offset := 0 }, { tile := 192, action := 4 }] }
def tp : State := { busy with parts := [(0, { tq with season := some seW })], tiles := [(0, { power := 0 }), (1, { power := 1 }), (2, { power := 1, job := some 0 })], pwr := { rdy.pwr with cols := cols2.put 5 0 } }
def tp2 : State := { busy with pwr := { rdy.pwr with cols := (cols2.put 47 1).put 3 3, colSince := [(47, 2900000), (3, 2990000)] }, start := { rdy.start with running := true }, tiles := [(17*47+16, { power := 2, store := [(3,4)] }), (51, { power := 0 })] }
def tp3 : State := { busy with tiles := [(7, { power := 0, waking := true, ucWoken := some 2997000 }), (8, { power := 1, ucWoken := some 2999744 })] }
def qdu : Part := { tq with cols := [3], resetDue := some (true, none) }
def tp5 : State := { tp2 with parts := [(0, qdu)], jobs := [], pwr := { rdy.pwr with cols := cols2.put 3 1 } }
def qwt : Part := { tq with cols := [3] }
def jwt : Job := { tj with state := 4, killAt := 1000 }
def tp6 : State := { tp2 with parts := [(0, qwt)], jobs := [(2, jwt)], clk := { rdy.clk with tick := 51000 } }
def th : State := { busy with pwr := { rdy.pwr with alerts := [2], temps := [(2, 120)], state := 1 }, parts := [(0, { tq with regs := [(1, { rate := 700, burst := 1, bucket := 500 }), (2, { rate := 3, burst := 4 })] })] }

theorem wit_PinsAndResets : Obligations.PinsAndResets →
    Ran (.perstRelease true 63) r0 ∧
    Ran (.perstRelease true 42) lowp ∧
    Ran .perstAssert busy ∧
    Ran .perstAssert lowp ∧
    Ran .pwrgdDeassert busy ∧
    Ran .refclkLost busy ∧
    Ran .refclkReturn rl ∧
    Ran .powerCycle busy ∧
    Ran .powerCycle r0 ∧
    Ran .powerOn aoff := fun h =>
  ⟨ran ((((h r0).1) true 0x3F (by decide +kernel) (by decide +kernel))),
   ran ((((h lowp).1) true 0x2A (by decide +kernel) (by decide +kernel))),
   ran ((((h busy).2.1) (by decide +kernel) (by decide +kernel))),
   ran ((((h lowp).2.1) (by decide +kernel) (by decide +kernel))),
   ran ((((h busy).2.2.1) (by decide +kernel) (by decide +kernel) (by decide +kernel))),
   ran ((((h busy).2.2.2.1) (by decide +kernel) (by decide +kernel))),
   ran ((((h rl).2.2.2.2.1) (by decide +kernel))),
   ran (((h busy).2.2.2.2.2.1)),
   ran (((h r0).2.2.2.2.2.1)),
   ⟨_, (((h aoff).2.2.2.2.2.2) (by decide +kernel))⟩⟩

theorem wit_StartSequence : Obligations.StartSequence →
    Ran .romBootEnd st0 ∧
    Ran (.fwVerified { }) st1 ∧
    Ran (.fwVerified { }) st1b ∧
    Ran (.fwVerified { ok1 := false }) st1b ∧
    Ran .configurationReady st2 ∧
    Ran .columnPowerUp stc ∧
    Ran (.stackTraining true) st2 ∧
    Ran (.stackTraining false) st2 ∧
    Ran (.stackTraining false) st2t ∧
    Ran .stackInitialisation sti ∧
    Ran .stackInitialisation stif ∧
    Ran .readiness strd ∧
    Ran .readiness strdp ∧
    Ran (.startFailed 2) st2 ∧
    Ran (.startFailed 4) st2 ∧
    Ran .listenStart stl ∧
    Ran .flushPhaseEnd stf := fun h =>
  ⟨ran ((((h st0).1) (by decide +kernel) (by decide +kernel) (by decide +kernel))),
   ran ((((((h st1).2.1) {} (by decide +kernel) (by decide +kernel)).1) (by decide +kernel))),
   ran ((((((h st1b).2.1) {} (by decide +kernel) (by decide +kernel)).1) (by decide +kernel))),
   ran ((((((h st1b).2.1) { ok1 := false } (by decide +kernel) (by decide +kernel)).2) (by decide +kernel) (by decide +kernel))),
   ⟨_, (((h st2).2.2.1) (by decide +kernel) (by decide +kernel))⟩,
   ran ((((h stc).2.2.2.1) (by decide +kernel) (by decide +kernel) (by decide +kernel) (by decide +kernel) (by decide +kernel) (by decide +kernel))),
   ran (((((h st2).2.2.2.2.1) ((st2.stackNext).getD 99) (by decide +kernel) (by decide +kernel) (by decide +kernel) (by decide +kernel)).1)),
   ran ((((((h st2).2.2.2.2.1) ((st2.stackNext).getD 99) (by decide +kernel) (by decide +kernel) (by decide +kernel) (by decide +kernel)).2.1) (by decide +kernel))),
   ran ((((((h st2t).2.2.2.2.1) ((st2t.stackNext).getD 99) (by decide +kernel) (by decide +kernel) (by decide +kernel) (by decide +kernel)).2.2) (by decide +kernel))),
   ran ((((h sti).2.2.2.2.2.1) (by decide +kernel) (by decide +kernel) (by decide +kernel) (by decide +kernel) (by decide +kernel))),
   ran ((((h stif).2.2.2.2.2.1) (by decide +kernel) (by decide +kernel) (by decide +kernel) (by decide +kernel) (by decide +kernel))),
   ((((h strd).2.2.2.2.2.2.1) (by decide +kernel) (by decide +kernel))).elim fun _ a => ⟨_, a.1⟩,
   ((((h strdp).2.2.2.2.2.2.1) (by decide +kernel) (by decide +kernel))).elim fun _ a => ⟨_, a.1⟩,
   ran ((((h st2).2.2.2.2.2.2.2.1) 2 (by decide +kernel) (by decide +kernel) (by decide +kernel) (by decide +kernel))),
   ran ((((h st2).2.2.2.2.2.2.2.1) 4 (by decide +kernel) (by decide +kernel) (by decide +kernel) (by decide +kernel))),
   ran ((((h stl).2.2.2.2.2.2.2.2.1) (by decide +kernel) (by decide +kernel) (by decide +kernel))),
   ran ((((h stf).2.2.2.2.2.2.2.2.2) 1 (by decide +kernel) (by decide +kernel)))⟩

theorem wit_WinterAndSpring : Obligations.WinterAndSpring →
    Ran .winterEntry wa ∧
    Ran .winterEntry wal ∧
    Ran .l12Exit ww ∧
    Ran .l12Exit wa ∧
    Ran (.summerReached []) wsp := fun h =>
  ⟨ran ((((h wa).1) (by decide +kernel) (by decide +kernel) (by decide +kernel) (by decide +kernel) (by decide +kernel))),
   ⟨_, (((h wal).2.1) (by decide +kernel) (by decide +kernel) (by decide +kernel) (by decide +kernel) (by decide +kernel))⟩,
   ran ((((h ww).2.2.1) (by decide +kernel))),
   ran ((((h wa).2.2.2.1) (by decide +kernel))),
   ran ((((h wsp).2.2.2.2) (by decide +kernel) (by decide +kernel) (by decide +kernel) (by decide +kernel) (by decide +kernel)))⟩

theorem wit_TileAndColumnPower : Obligations.TileAndColumnPower →
    Ran (.wake 0 0) tp ∧
    Ran (.gate 0 1) tp ∧
    Ran (.gate 0 2) tp ∧
    Ran (.columnOn 0 3) tp ∧
    Ran (.columnOff 0 4) tp ∧
    Ran (.columnPowerGood 47) tp2 ∧
    Ran (.columnPowerGoodTimeout 47) tp2 ∧
    Ran (.quietLate 3) tp2 ∧
    Ran (.powerDomainOff (PowerDomain.column 3) true) tp2 ∧
    Ran (.tileAwake 7) tp3 ∧
    Ran (.unplannedWakeIdle 8) tp3 ∧
    Ran (.columnPowerGood 3) tp5 ∧
    Ran (.killEscalation 2) tp6 := fun h =>
  ⟨ran ((((h tp).1) 0 0 tj seW (seW.wakes.getD 0 {}) false 0 (by decide +kernel) (by decide +kernel) (by decide +kernel))),
   ran ((((((h tp).2.1) 0 1 tj seW (seW.wakes.getD 1 {}) false 1 (by decide +kernel) (by decide +kernel) (by decide +kernel)).1) (by decide +kernel))),
   ran ((((((h tp).2.1) 0 2 tj seW (seW.wakes.getD 2 {}) false 2 (by decide +kernel) (by decide +kernel) (by decide +kernel)).2) (by decide +kernel) (by decide +kernel))),
   ran ((((h tp).2.2.1) 0 3 tj seW (seW.wakes.getD 3 {}) (by decide +kernel) (by decide +kernel))),
   ran ((((h tp).2.2.2.1) 0 4 tj seW (seW.wakes.getD 4 {}) (by decide +kernel) (by decide +kernel))),
   ran ((((h tp2).2.2.2.2.1) 47 (by decide +kernel) (by decide +kernel) (by decide +kernel) (by decide +kernel))),
   ran ((((h tp2).2.2.2.2.2.1) 47 (by decide +kernel) (by decide +kernel) (by decide +kernel))),
   ran ((((h tp2).2.2.2.2.2.2.1) 3 (by decide +kernel) (by decide +kernel) (by decide +kernel))),
   ran ((((h tp2).2.2.2.2.2.2.2.1) 3 (by decide +kernel) (by decide +kernel) (by decide +kernel) (by decide +kernel) (by decide +kernel))),
   ran ((((h tp3).2.2.2.2.2.2.2.2.1) 7 2997000 (by decide +kernel) (by decide +kernel) (by decide +kernel) (by decide +kernel) (by decide +kernel))),
   ran ((((h tp3).2.2.2.2.2.2.2.2.2.1) 8 2999744 (by decide +kernel) (by decide +kernel) (by decide +kernel) (by decide +kernel))),
   ran ((((((h tp5).2.2.2.2.2.2.2.2.2.2) 0 qdu 3 (true, none) (by decide +kernel) (by decide +kernel) (by decide +kernel) (by decide +kernel)).1) (by decide +kernel) (by decide +kernel) (by decide +kernel) (by decide +kernel))),
   ran ((((((h tp6).2.2.2.2.2.2.2.2.2.2) 0 qwt 3 (true, none) (by decide +kernel) (by decide +kernel) (by decide +kernel) (by decide +kernel)).2) 2 jwt (by decide +kernel) (by decide +kernel) (by decide +kernel) (by decide +kernel) (by decide +kernel) (by decide +kernel) (by decide +kernel)))⟩

theorem wit_TemperaturesRailsRegulators : Obligations.TemperaturesRailsRegulators →
    Ran (.thermalAlert 0 (alertTemp 0)) th ∧
    Ran (.thermalAlert 15 (alertTemp 15)) th ∧
    Ran (.thermalAlertEnd 2 (alertTemp 2 - 1)) th ∧
    Ran (.thermalTrip 0 (tripTemp 0)) th ∧
    Ran (.thermalTrip 8 (tripTemp 8)) th ∧
    Ran (.railExcursion 0) th ∧
    Ran (.railExcursion 7) th ∧
    Ran (.regulatorRefill 0 1) th ∧
    Ran (.regulatorRefill 0 2) th := fun h =>
  ⟨ran ((((h th).1) 0 (alertTemp 0) (by decide +kernel) (by decide +kernel) (by decide +kernel))),
   ran ((((h th).1) 15 (alertTemp 15) (by decide +kernel) (by decide +kernel) (by decide +kernel))),
   ran ((((h th).2.1) 2 (alertTemp 2 - 1) (by decide +kernel) (by decide +kernel) (by decide +kernel))),
   ran ((((h th).2.2.1) 0 (tripTemp 0) (by decide +kernel) (by decide +kernel))),
   ran ((((h th).2.2.1) 8 (tripTemp 8) (by decide +kernel) (by decide +kernel))),
   ran ((((h th).2.2.2.1) 0 (by decide +kernel) (by decide +kernel) (by decide +kernel) (by decide +kernel))),
   ran ((((h th).2.2.2.1) 7 (by decide +kernel) (by decide +kernel) (by decide +kernel) (by decide +kernel))),
   ran ((((h th).2.2.2.2) 0 1 (th.parts.val 0 {}) ((th.parts.val 0 {}).regs.val 1 {}) (by decide +kernel) (by decide +kernel) (by decide +kernel))),
   ran ((((h th).2.2.2.2) 0 2 (th.parts.val 0 {}) ((th.parts.val 0 {}).regs.val 2 {}) (by decide +kernel) (by decide +kernel) (by decide +kernel)))⟩

end StartUp

namespace Functions

def rs : State := { busy with fns := [(3, { state := 3, gen := 4, deferred := some { qp := 3 }, resetAt := some 1 }), (4, { state := 3 })], outbox := [{ qp := 48 }], clk := { rdy.clk with tick := 70000 }, fslots := [(130, { qp := 64, tick := 0 })] }
def rs4 : State := { rs with fslots := [] }
def nov : State := { busy with cfg := {}, fns := [(3, { gen := 9 })] }
def mx : State := { busy with fns := [(3, { state := 2, msixEnable := true, vecPending := [1,2] })] }
def q1 : QueuePair := { state := 1, sqLog := 6, cqLog := 6, cqTail := 5, cqHead := 60 }
def db : State := { busy with qps := [(49, q1)] }
def q2 : QueuePair := { state := 1, unsig := 3, unsigTick := 100, modCount := 9, modTime := 7 }
def db2 : State := { busy with qps := [(49, q2)] }
def db3 : State := { State.reset with qps := [(49, q1)] }
def qf : QueuePair := { lc := true, qfe := 2, state := 1, sqTail := 70, sqLog := 7, fetchPos := 60, sqBase := 0x4000 }
def qb : QueuePair := { lc := false, qfe := 2, state := 1, sqTail := 5, sqLog := 7, fetchPos := 100, sqBase := 0x4000 }
def fe : State := { busy with qps := [(49, qf), (64, { qfe := 2, state := 1 })], fns := [(3, { state := 2, quotas := { qp := 2, fetch := 4 } })], fslots := [(256, { qp := 49, count := 1 })] }
def fb : State := { fe with qps := [(49, qb)] }
def rd : State := { busy with qps := [(49, qf)], fns := [(3, { state := 2, quotas := { qp := 2, fetch := 4 } })], fslots := [(257, { qp := 49, first := 127, count := 3 })] }
def hdr1 : Bytes := ph 1 0 1 0 0 0 []
def hg : State := { rd with clk := { rdy.clk with tick := 100000 } }
def atr : State := { rd with fns := [(3, { state := 2, ats := true, pri := true, quotas := { qp := 2, fetch := 4 } })], xlat := [(3, 9), (4, 4)], qps := [(49, qf), (50, { qf with parked := some 7 })], preqs := [(7, { fn := 3, qp := 50, page := 4, sent := true, tick := 0 })], fslots := [], clk := { rdy.clk with tick := 1000000 } }
def at2 : State := { atr with fns := [(3, { state := 2, ats := true, pri := false })] }
def at3 : State := { at2 with outbox := [{ qp := 49 }] }
def rc : Record := { pkt := 5, qp := 49, status := 0, result := zeros 40, notify := none }
def qc : QueuePair := { state := 1, cqLog := 6, cqTail := 63, cqHead := 10 }
def cw : State := { busy with qps := [(49, qc)], fns := [(3, { state := 2, quotas := { qp := 2, tag := 4 } })], outbox := [{ qp := 9 }, rc, { rc with pkt := 6 }] }
def qc2 : QueuePair := { state := 1, cqLog := 6, cqTail := 63, cqHead := 0 }
def cw2 : State := { cw with qps := [(49, qc2)] }
def qc3 : QueuePair := { state := 1, cqLog := 1, cqTail := 0, cqHead := 0 }
def cw3 : State := { cw with qps := [(49, qc3)] }
def nt : State := { cw with outbox := [{ qp := 49, notify := some 1000 }, rc] }
def sg : State := { cw with alm := { State.reset.alm with sigs := [(8, { fn := 3, target := 2, tick := 1000 })] }, fns := [(3, { state := 2, targets := [(2, { kind := 1, lostN := 4 })] })] }
def qra : QueuePair := { q1 with state := 3 }
def sra : State := { busy with qps := [(49, qra)] }
def qrc : QueuePair := { q1 with state := 3, deleting := true }
def src : State := { busy with qps := [(49, qrc)] }

theorem wit_FunctionsAndConfiguration : Obligations.FunctionsAndConfiguration →
    Ran (.configRequest 512 0) busy ∧
    Ran (.configRequest 3 0) busy ∧
    Ran (.configRequest 0 0) State.reset ∧
    Ran .pcieLinkDown busy ∧
    Ran (.flr 3) busy ∧
    Ran (.flr 512) busy ∧
    Ran (.vfResetComplete 3) rs ∧
    Ran (.vfResetComplete 4) rs4 ∧
    Ran (.vfResetTimeout 3) rs ∧
    Ran (.vfEnableSet 0) nov ∧
    Ran (.vfEnableSet 512) nov ∧
    Ran .vfEnableClear busy ∧
    Ran (.msixMaskChange 3 (MsixChange.vector 1 true)) mx ∧
    Ran (.msixMaskChange 3 (MsixChange.vector 1 false)) mx ∧
    Ran (.msixMaskChange 3 (MsixChange.function true)) mx ∧
    Ran (.msixMaskChange 3 (MsixChange.function false)) mx := fun h =>
  ⟨ran ((((h busy).1) 512 (by decide +kernel) (by decide +kernel) (by decide +kernel) (by decide +kernel))),
   ran ((((h busy).1) 3 (by decide +kernel) (by decide +kernel) (by decide +kernel) (by decide +kernel))),
   ⟨_, (((h State.reset).2.1) 0 0 (by decide +kernel))⟩,
   ran (((h busy).2.2.1)),
   ran ((((h busy).2.2.2.1) 3 (by decide +kernel) (by decide +kernel))),
   ran (((h busy).2.2.2.2.1)),
   ran ((((h rs).2.2.2.2.2.1) 3 (by decide +kernel) (by decide +kernel) (by decide +kernel) (by decide +kernel))),
   ran ((((h rs4).2.2.2.2.2.1) 4 (by decide +kernel) (by decide +kernel) (by decide +kernel) (by decide +kernel))),
   ran ((((h rs).2.2.2.2.2.2.1) 3 1 (by decide +kernel) (by decide +kernel) (by decide +kernel) (by decide +kernel))),
   ran ((((h nov).2.2.2.2.2.2.2.1) 0 (by decide +kernel) (by decide +kernel) (by decide +kernel))),
   ran ((((h nov).2.2.2.2.2.2.2.1) 512 (by decide +kernel) (by decide +kernel) (by decide +kernel))),
   ran ((((h busy).2.2.2.2.2.2.2.2.1) (by decide +kernel))),
   ran (((((h mx).2.2.2.2.2.2.2.2.2.1) 3 1).1)),
   ran ((((((h mx).2.2.2.2.2.2.2.2.2.1) 3 1).2) (by decide +kernel) (by decide +kernel) (by decide +kernel))),
   ran (((((h mx).2.2.2.2.2.2.2.2.2.2) 3 true)).1),
   ran (((((h mx).2.2.2.2.2.2.2.2.2.2) 3 false)).1)⟩

theorem wit_DoorbellsAndModeration : Obligations.DoorbellsAndModeration →
    Ran (.lqiSqTail 3 1 0) db ∧
    Ran (.lqiSqTail 3 1 65541) db ∧
    Ran (.lqiSqTail 3 1 64) db ∧
    Ran (.lqiSqTail 3 1 65535) db ∧
    Ran (.lqiCqHead 3 1 60) db ∧
    Ran (.lqiCqHead 3 1 5) db ∧
    Ran (.lqiCqHead 3 1 6) db ∧
    Ran (.lqiCqHead 3 1 64) db ∧
    Ran (.lqiCqMod 3 1 196609) db ∧
    Ran (.lqiCqMod 3 1 255) db2 ∧
    Ran (.lqiCqMod 3 1 196611) db2 ∧
    Ran (.cqModTimer 3 1) db2 ∧
    Ran (.lqiSqTail 3 1 5) db3 ∧
    Ran (.lqiCqHead 3 1 5) db3 ∧
    Ran (.lqiCqMod 3 1 5) db3 := fun h =>
  ⟨⟨_, (((((h db 3 1 0 q1 (by decide +kernel)).1) (by decide +kernel) (by decide +kernel)).1) (by decide +kernel))⟩,
   ⟨_, (((((h db 3 1 65541 q1 (by decide +kernel)).1) (by decide +kernel) (by decide +kernel)).1) (by decide +kernel))⟩,
   ran ((((((h db 3 1 64 q1 (by decide +kernel)).1) (by decide +kernel) (by decide +kernel)).2) (by decide +kernel))),
   ran ((((((h db 3 1 65535 q1 (by decide +kernel)).1) (by decide +kernel) (by decide +kernel)).2) (by decide +kernel))),
   ⟨_, (((h db 3 1 60 q1 (by decide +kernel)).2.1) (by decide +kernel) (by decide +kernel) (by decide +kernel) (by decide +kernel))⟩,
   ⟨_, (((h db 3 1 5 q1 (by decide +kernel)).2.1) (by decide +kernel) (by decide +kernel) (by decide +kernel) (by decide +kernel))⟩,
   ran ((((h db 3 1 6 q1 (by decide +kernel)).2.2.1) (by decide +kernel) (by decide +kernel) (by decide +kernel))),
   ran ((((h db 3 1 64 q1 (by decide +kernel)).2.2.1) (by decide +kernel) (by decide +kernel) (by decide +kernel))),
   ⟨_, (((h db 3 1 196609 q1 (by decide +kernel)).2.2.2.1) (by decide +kernel) (by decide +kernel) (by decide +kernel))⟩,
   ran ((((h db2 3 1 255 q2 (by decide +kernel)).2.2.2.2.1) (by decide +kernel) (by decide +kernel) (by decide +kernel) (by decide +kernel))),
   ran ((((h db2 3 1 196611 q2 (by decide +kernel)).2.2.2.2.1) (by decide +kernel) (by decide +kernel) (by decide +kernel) (by decide +kernel))),
   ran ((((h db2 3 1 0 q2 (by decide +kernel)).2.2.2.2.2.1) (by decide +kernel) (by decide +kernel) (by decide +kernel))),
   ⟨_, ((((h db3 3 1 5 q1 (by decide +kernel)).2.2.2.2.2.2) (by decide +kernel)).1)⟩,
   ⟨_, ((((h db3 3 1 5 q1 (by decide +kernel)).2.2.2.2.2.2) (by decide +kernel)).2.1)⟩,
   ⟨_, ((((h db3 3 1 5 q1 (by decide +kernel)).2.2.2.2.2.2) (by decide +kernel)).2.2)⟩⟩

theorem wit_FetchEngines : Obligations.FetchEngines →
    Ran (.fetchGrant 2) fe ∧
    Ran (.fetchGrant 2) fb ∧
    Ran (.ringReadCompletion 2 1 (ReadResult.data (zeros 100))) rd ∧
    Ran (.ringReadCompletion 2 1 (ReadResult.data (hdr1 ++ hdr1 ++ hdr1))) rd ∧
    Ran (.ringReadCompletion 2 1 ReadResult.poisoned) rd ∧
    Ran (.ringReadCompletion 2 1 ReadResult.refused) rd ∧
    Ran (.ringReadTimeout 2 1) rd ∧
    Ran (.qfeHang 2) hg := fun h =>
  ⟨ran ((((h fe 2).1) 49 qf 1 true (by decide +kernel) (by decide +kernel) (by decide +kernel) (by decide +kernel) (by decide +kernel) (by decide +kernel) (by decide +kernel) (by decide +kernel) (by decide +kernel) (by decide +kernel) (by decide +kernel))),
   ran ((((h fb 2).1) 49 qb 1 false (by decide +kernel) (by decide +kernel) (by decide +kernel) (by decide +kernel) (by decide +kernel) (by decide +kernel) (by decide +kernel) (by decide +kernel) (by decide +kernel) (by decide +kernel) (by decide +kernel))),
   ran ((((((h rd 2).2.1) 1 { qp := 49, first := 127, count := 3 } qf (by decide +kernel) (by decide +kernel) (by decide +kernel) (by decide +kernel)).1) (zeros 100) (by decide +kernel))),
   ran ((((((h rd 2).2.1) 1 { qp := 49, first := 127, count := 3 } qf (by decide +kernel) (by decide +kernel) (by decide +kernel) (by decide +kernel)).1) (hdr1 ++ hdr1 ++ hdr1) (by decide +kernel))),
   ran (((((((h rd 2).2.1) 1 { qp := 49, first := 127, count := 3 } qf (by decide +kernel) (by decide +kernel) (by decide +kernel) (by decide +kernel)).2) (by decide +kernel)).1)),
   ran (((((((h rd 2).2.1) 1 { qp := 49, first := 127, count := 3 } qf (by decide +kernel) (by decide +kernel) (by decide +kernel) (by decide +kernel)).2) (by decide +kernel)).2.1)),
   ran (((((((h rd 2).2.1) 1 { qp := 49, first := 127, count := 3 } qf (by decide +kernel) (by decide +kernel) (by decide +kernel) (by decide +kernel)).2) (by decide +kernel)).2.2)),
   ran ((((h hg 2).2.2) (by decide +kernel) (by decide +kernel) (by decide +kernel) (by decide +kernel)))⟩

theorem wit_TranslationsAndPages : Obligations.TranslationsAndPages →
    Ran (.atsTranslationCompletion 3 1 4 true) atr ∧
    Ran (.atsTranslationCompletion 3 1 4 true) at2 ∧
    Ran (.atsTranslationCompletion 3 1 4 false) atr ∧
    Ran (.atsTranslationCompletion 3 1 4 false) at2 ∧
    Ran (.atsTranslationCompletion 3 1 0 false) at3 ∧
    Ran (.pageRequestResponse 3 7 true) atr ∧
    Ran (.pageRequestResponse 3 7 false) atr ∧
    Ran (.pageRequestTimeout 3 7) atr ∧
    Ran (.atsInvalidation 3 9) atr ∧
    Ran (.atsInvalidation 3 9) rd := fun h =>
  ⟨⟨_, ((((h atr 3 4).1) 1 qf false (by decide +kernel) (by decide +kernel) (by decide +kernel) (by decide +kernel) (by decide +kernel)).1)⟩,
   ⟨_, ((((h at2 3 4).1) 1 qf false (by decide +kernel) (by decide +kernel) (by decide +kernel) (by decide +kernel) (by decide +kernel)).1)⟩,
   ran ((((((h atr 3 4).1) 1 qf false (by decide +kernel) (by decide +kernel) (by decide +kernel) (by decide +kernel) (by decide +kernel)).2.1) (by decide +kernel))),
   ran ((((((h at2 3 4).1) 1 qf false (by decide +kernel) (by decide +kernel) (by decide +kernel) (by decide +kernel) (by decide +kernel)).2.2) (by decide +kernel))),
   ran ((((((h at3 3 0).1) 1 qf true (by decide +kernel) (by decide +kernel) (by decide +kernel) (by decide +kernel) (by decide +kernel)).2.2) (by decide +kernel))),
   ran (((((h atr 3 0).2.1) 7 { fn := 3, qp := 50, page := 4, sent := true, tick := 0 } { qf with parked := some 7 } (by decide +kernel) (by decide +kernel) (by decide +kernel) (by decide +kernel) (by decide +kernel)).1)),
   ran (((((((h atr 3 0).2.1) 7 { fn := 3, qp := 50, page := 4, sent := true, tick := 0 } { qf with parked := some 7 } (by decide +kernel) (by decide +kernel) (by decide +kernel) (by decide +kernel) (by decide +kernel)).2) (by decide +kernel)).1)),
   ran ((((((((h atr 3 0).2.1) 7 { fn := 3, qp := 50, page := 4, sent := true, tick := 0 } { qf with parked := some 7 } (by decide +kernel) (by decide +kernel) (by decide +kernel) (by decide +kernel) (by decide +kernel)).2) (by decide +kernel)).2) (by decide +kernel))),
   ran (((h atr 3 9).2.2)),
   ran (((h rd 3 9).2.2))⟩

theorem wit_CompletionsAndQueueResets : Obligations.CompletionsAndQueueResets →
    Ran (.cqRecordWrite 3 1) cw ∧
    Ran (.cqRecordWrite 3 1) cw2 ∧
    Ran (.cqRecordWrite 3 1) cw3 ∧
    Ran (.notifyRecordTimeout 3 1) nt ∧
    Ran (.signalAckTimeout 8) sg ∧
    Ran (.queueResetComplete 3 1) sra ∧
    Ran (.queueResetComplete 3 1) src := fun h =>
  ⟨ran ((((((h cw 3 1).1) qc rc (by decide +kernel) (by decide +kernel) (by decide +kernel) (by decide +kernel) (by decide +kernel) (by decide +kernel) (by decide +kernel) (by decide +kernel) (by decide +kernel)).1) (by decide +kernel) (by decide +kernel) (by decide +kernel))),
   ⟨_, (((((h cw2 3 1).1) qc2 rc (by decide +kernel) (by decide +kernel) (by decide +kernel) (by decide +kernel) (by decide +kernel) (by decide +kernel) (by decide +kernel) (by decide +kernel) (by decide +kernel)).2.1) (by decide +kernel) (by decide +kernel))⟩,
   ran ((((((h cw3 3 1).1) qc3 rc (by decide +kernel) (by decide +kernel) (by decide +kernel) (by decide +kernel) (by decide +kernel) (by decide +kernel) (by decide +kernel) (by decide +kernel) (by decide +kernel)).2.2) (by decide +kernel))),
   ran ((((h nt 3 1).2.1) { qp := 49, notify := some 1000 } 1000 (by decide +kernel) (by decide +kernel) (by decide +kernel))),
   ran ((((h sg 3 1).2.2.1) 8 { fn := 3, target := 2, tick := 1000 } (by decide +kernel) (by decide +kernel) (by decide +kernel) (by decide +kernel))),
   ran ((((h sra 3 1).2.2.2) qra (by decide +kernel) (by decide +kernel) (by decide +kernel))),
   ran ((((h src 3 1).2.2.2) qrc (by decide +kernel) (by decide +kernel) (by decide +kernel)))⟩

end Functions

namespace Packets

def hpNop : Bytes := ph 1 0 1 0 0 0 []
def qpNop : QueuePair := { state := 1, sqLog := 6, cqLog := 6, placePos := 63, slots := [(63, hpNop)] }
def pNop : State := { pkA with qps := [(49, qpNop)] }
def hpFence : Bytes := ph 2 0 1 0 0 0 []
def qpFence : QueuePair := { state := 1, sqLog := 6, cqLog := 6, placePos := 63, slots := [(63, hpFence)] }
def pFence : State := { pkA with qps := [(49, qpFence)] }
def hpOpen0 : Bytes := ph 0x10 0 1 9 0 0 []
def qpOpen0 : QueuePair := { state := 1, sqLog := 6, cqLog := 6, placePos := 63, slots := [(63, hpOpen0)] }
def pOpen0 : State := { pkA with qps := [(49, qpOpen0)] }
def qSpot : Part := { qA with season := some { seA with regions := [{ kind := 5, entry := 0, dva := 0x20000, bytes := 64 }] } }
def hpOpen1 : Bytes := ph 0x10 0 2 9 0 5 []
def qpOpen1 : QueuePair := { state := 1, sqLog := 6, cqLog := 6, placePos := 63, slots := [(63, hpOpen1), (0, [1,2,3,4,5,6])] }
def pOpen1 : State := { pkA with qps := [(49, qpOpen1)], parts := [(0, qSpot)] }
def pOpen1s1 : State := (match pOpen1.writeVa qSpot 0x20000 [1,2,3,4,5] false with | .ok s => s | _ => pOpen1)
def hpPw : Bytes := ph 0x30 0 2 9 0 64 (le 4 1 ++ le 2 1)
def qpPw : QueuePair := { state := 1, sqLog := 6, cqLog := 6, placePos := 63, slots := [(63, hpPw), (0, zeros 64)] }
def pPw : State := { pkA with qps := [(49, qpPw)] }
def hm2 : Bytes := ph 1 0 0 0 0 0 []
def qm2 : QueuePair := { state := 1, sqLog := 6, cqLog := 6, placePos := 63, slots := [(63, hm2)] }
def m2 : State := { pkA with qps := [(49, qm2)] }
def hmB : Bytes := ph 0x50 0 1 0 0 0 []
def qmB : QueuePair := { state := 1, sqLog := 6, cqLog := 1, placePos := 63, slots := [(63, hmB)] }
def mB : State := { pkA with qps := [(49, qmB)] }
def hmR : Bytes := ph 3 0 1 0 0 0 []
def qmR : QueuePair := { state := 1, sqLog := 6, cqLog := 6, placePos := 63, slots := [(63, hmR)] }
def mR : State := { pkA with qps := [(49, qmR)] }
def hmRm : Bytes := ph 3 4 1 0 0 0 []
def qmRm : QueuePair := { state := 1, sqLog := 6, cqLog := 6, placePos := 63, slots := [(63, hmRm)] }
def mRm : State := { pkA with qps := [(49, qmRm)] }
def hunk : Bytes := ph 0x10 0 1 99 0 0 []
def qunk : QueuePair := { state := 1, sqLog := 6, cqLog := 6, placePos := 63, slots := [(63, hunk)] }
def unk : State := { pkA with qps := [(49, qunk)] }
def hden : Bytes := ph 0x60 0 1 0 0 0 []
def qden : QueuePair := { state := 1, sqLog := 6, cqLog := 6, placePos := 63, slots := [(63, hden)] }
def den : State := { pkA with qps := [(49, qden)] }
def hden5 : Bytes := ph 0x41 0 1 0 5 0 (le 2 1)
def qden5 : QueuePair := { state := 1, sqLog := 6, cqLog := 6, placePos := 63, slots := [(63, hden5)] }
def den5 : State := { pkA with qps := [(49, qden5)] }
def hdr : Bytes := ph 0x10 0 1 9 0 0 []
def qdr : QueuePair := { state := 1, sqLog := 6, cqLog := 6, placePos := 63, slots := [(63, hdr)] }
def dr : State := { pkA with qps := [(49, qdr)], pwr := { rdy.pwr with state := 3 } }
def pnop : Packet := { qp := 49, gen := 4, hdr := ph 1 0 1 0 0 0 [], placed := 1500, timer := some 1500 }
def qnop : QueuePair := { state := 1, sqLog := 6, cqLog := 6 }
def nop : State := { pkA with qps := [(49, qnop)], pkts := [(4, { qp := 49, taken := true, gen := 4 }), (7, pnop)], nextPkt := 8 }
def pfen : Packet := { qp := 49, gen := 4, hdr := ph 2 0 1 0 0 0 [], placed := 1500, timer := some 1500 }
def qfen : QueuePair := { state := 1, sqLog := 6, cqLog := 6 }
def fen : State := { pkA with qps := [(49, qfen)], pkts := [(4, { qp := 49, taken := true, gen := 4 }), (7, pfen)], nextPkt := 8 }
def pfenr : Packet := { qp := 49, gen := 4, hdr := ph 2 0 1 0 0 0 [], placed := 1500, timer := some 1500, taken := true }
def qfenr : QueuePair := { state := 1, hold := some 7 }
def fenr : State := { pkA with qps := [(49, qfenr)], pkts := [(4, { qp := 49, taken := true, gen := 4 }), (7, pfenr)], nextPkt := 8 }
def fenr2 : State := { fenr with pkts := [(4, { qp := 50 }), (7, pfenr), (9, { qp := 49, gen := 4 })] }
def pwait0 : Packet := { qp := 49, gen := 4, hdr := ph 0x41 0 1 0 0 0 (zeros 8 ++ le 8 6), placed := 1500, timer := some 1500 }
def qwait0 : QueuePair := { state := 1, sqLog := 6, cqLog := 6 }
def wait0 : State := { pkA with qps := [(49, qwait0)], pkts := [(4, { qp := 49, taken := true, gen := 4 }), (7, pwait0)], nextPkt := 8 }
def pwait1 : Packet := { qp := 49, gen := 4, hdr := ph 0x41 0 1 0 0 0 (zeros 8 ++ le 8 6), placed := 1500, timer := some 1500 }
def qwait1 : QueuePair := { state := 1, sqLog := 6, cqLog := 6 }
def wait1 : State := { pkA with qps := [(49, qwait1)], pkts := [(4, { qp := 49, taken := true, gen := 4 }), (7, pwait1)], nextPkt := 8, alm := { State.reset.alm with sems := [(2053, 6)] } }
def psig : Packet := { qp := 49, gen := 4, hdr := ph 0x40 0 1 0 0 0 (le 2 0 ++ le 2 500), placed := 1500, timer := some 1500 }
def qsig : QueuePair := { state := 1, sqLog := 6, cqLog := 6 }
def sig : State := { pkA with qps := [(49, qsig)], pkts := [(4, { qp := 49, taken := true, gen := 4 }), (7, psig)], nextPkt := 8 }
def psign : Packet := { qp := 49, gen := 4, hdr := ph 0x40 0 1 0 0 0 (le 2 1 ++ le 2 500), placed := 1500, timer := some 1500 }
def qsign : QueuePair := { state := 1, sqLog := 6, cqLog := 6 }
def sign : State := { pkA with qps := [(49, qsign)], pkts := [(4, { qp := 49, taken := true, gen := 4 }), (7, psign)], nextPkt := 8 }
def psigh : Packet := { qp := 49, gen := 4, hdr := ph 0x40 0 1 0 0 0 (le 2 0 ++ le 2 500), placed := 1500, timer := some 1500 }
def qsigh : QueuePair := { state := 1, sqLog := 6, cqLog := 6 }
def sigh : State := { pkA with qps := [(49, qsigh)], pkts := [(4, { qp := 49, taken := true, gen := 4 }), (7, psigh)], nextPkt := 8, alm := { State.reset.alm with heldSigs := [{ fn := 3, target := 0, gen := 4 }] } }
def psigr : Packet := { qp := 49, gen := 4, hdr := ph 0x40 0 1 0 0 0 (le 2 0 ++ le 2 500), placed := 1500, timer := some 1500 }
def qsigr : QueuePair := { state := 1, sqLog := 6, cqLog := 6 }
def sigr : State := { pkA with qps := [(49, qsigr)], pkts := [(4, { qp := 49, taken := true, gen := 4 }), (7, psigr)], nextPkt := 8, fns := [(3, { vA with targets := [(0, { kind := 1, device := 9, sem := 5 })] })], ports := [(3, { state := 4, peer := 9 })], alm := { State.reset.alm with sigs := [(44, { fn := 3, target := 0, gen := 4, port := 5 })] } }
def pq0 : Packet := { qp := 49, gen := 4, hdr := ph 0x50 0 1 0 (32 + 16384 * 5) 0 (le 1 0), placed := 1500, timer := some 1500 }
def qq0 : QueuePair := { state := 1, sqLog := 6, cqLog := 6 }
def q0 : State := { pkA with qps := [(49, qq0)], pkts := [(4, { qp := 49, taken := true, gen := 4 }), (7, pq0)], nextPkt := 8, seqs := [(32, { state := 1, reuse := 5, fn := 3, gen := 4, sid := 9, tokens := 3 })] }
def pq1 : Packet := { qp := 49, gen := 4, hdr := ph 0x50 0 1 0 (32 + 16384 * 5) 0 (le 1 1), placed := 1500, timer := some 1500 }
def qq1 : QueuePair := { state := 1, sqLog := 6, cqLog := 6 }
def q1 : State := { pkA with qps := [(49, qq1)], pkts := [(4, { qp := 49, taken := true, gen := 4 }), (7, pq1)], nextPkt := 8, seqs := [(32, { state := 1, reuse := 5, fn := 3, gen := 4, sid := 9, tokens := 3 })] }
def pq2 : Packet := { qp := 49, gen := 4, hdr := ph 0x50 0 1 0 (32 + 16384 * 5) 0 (le 1 2), placed := 1500, timer := some 1500 }
def qq2 : QueuePair := { state := 1, sqLog := 6, cqLog := 6 }
def q2 : State := { pkA with qps := [(49, qq2)], pkts := [(4, { qp := 49, taken := true, gen := 4 }), (7, pq2)], nextPkt := 8, seqs := [(32, { state := 1, reuse := 5, fn := 3, gen := 4, sid := 9, tokens := 3 })] }
def ppr : Packet := { qp := 49, gen := 4, hdr := ph 0x31 0 1 9 0 0 (le 4 1 ++ le 2 2), placed := 1500, timer := some 1500 }
def qpr : QueuePair := { state := 1, sqLog := 6, cqLog := 6 }
def pr : State := { pkA with qps := [(49, qpr)], pkts := [(4, { qp := 49, taken := true, gen := 4 }), (7, ppr)], nextPkt := 8, mem := { stack := [(0x100C0, 0x66#8)], watches := [(0,4,9),(0,3,8)] } }
def pprp : Packet := { qp := 49, gen := 4, hdr := ph 0x31 0 1 9 0 0 (le 4 1 ++ le 2 2), placed := 1500, timer := some 1500 }
def qprp : QueuePair := { state := 1, sqLog := 6, cqLog := 6 }
def prp : State := { pkA with qps := [(49, qprp)], pkts := [(4, { qp := 49, taken := true, gen := 4 }), (7, pprp)], nextPkt := 8, mem := { stack := [(0x100C0, 0x66#8)], poison := [(0x404,true)], watches := [(0,4,9),(0,3,8)] } }
def ppw : Packet := { qp := 49, gen := 4, hdr := ph 0x30 0 2 9 0 64 (le 4 2 ++ le 2 1), placed := 1500, timer := some 1500, payload := zeros 63 ++ [9#8], part := some 0 }
def qpw : QueuePair := { state := 1, sqLog := 6, cqLog := 6 }
def pw : State := { pkA with qps := [(49, qpw)], pkts := [(4, { qp := 49, taken := true, gen := 4 }), (7, ppw)], nextPkt := 8, mem := { stack := [(0x100C0, 0x66#8)], watches := [(0,4,9),(0,3,8)] } }
def pw2 : State := (match (pw.modPkt 7 (fun x => { x with taken := true })).writeVa qA (qA.slotVa 4) (fit 64 ppw.payload) false with | .ok s => s | _ => pw)
def ldA : Load := { part := 0, bytes := 200, op := 3, nextOff := 64, got := [0], img := [(0,1#8)] }
def pwc : Packet := { qp := 50, gen := 4, hdr := ph 0x60 0 2 0 0 64 (le 4 5 ++ zeros 4 ++ le 8 64), placed := 1500, timer := some 1500, payload := zeros 63 ++ [9#8] }
def qwc : QueuePair := { state := 1, bulk := true }
def wc : State := { pkA with qps := [(50, qwc)], pkts := [(4, { qp := 49, taken := true, gen := 4 }), (7, pwc)], nextPkt := 8, loads := [(5, ldA)] }
def pwcb : Packet := { qp := 50, gen := 4, hdr := ph 0x60 0 2 0 0 64 (le 4 5 ++ zeros 4 ++ le 8 192), placed := 1500, timer := some 1500, payload := zeros 63 ++ [9#8] }
def qwcb : QueuePair := { state := 1, bulk := true }
def wcb : State := { pkA with qps := [(50, qwcb)], pkts := [(4, { qp := 49, taken := true, gen := 4 }), (7, pwcb)], nextPkt := 8, loads := [(5, ldA)] }
def pwce : Packet := { qp := 50, gen := 4, hdr := ph 0x60 0 2 0 0 64 (le 4 5 ++ zeros 4 ++ le 8 192), placed := 1500, timer := some 1500, payload := zeros 7 ++ [9#8] }
def qwce : QueuePair := { state := 1, bulk := true }
def wce : State := { pkA with qps := [(50, qwce)], pkts := [(4, { qp := 49, taken := true, gen := 4 }), (7, pwce)], nextPkt := 8, loads := [(5, ldA)] }
def pop : Packet := { qp := 49, gen := 4, hdr := ph 0x10 0 1 9 0 0 (le 4 33), placed := 1500, timer := some 1500 }
def qop : QueuePair := { state := 1, sqLog := 6, cqLog := 6 }
def op : State := { pkA with qps := [(49, qop)], pkts := [(4, { qp := 49, taken := true, gen := 4 }), (7, pop)], nextPkt := 8, seqs := [(32, { state := 1 }), (33, { state := 0, reuse := 0x3FFFF })] }
def pop0 : Packet := { qp := 8192, gen := 1, hdr := ph 0x10 0 1 9 0 0 [], placed := 1500, timer := some 1500 }
def qop0 : QueuePair := { state := 1, lc := true }
def op0 : State := { pkA with qps := [(8192, qop0)], pkts := [(4, { qp := 49, taken := true, gen := 4 }), (7, pop0)], nextPkt := 8 }
def popq : Packet := { qp := 49, gen := 4, hdr := ph 0x10 0 1 9 0 0 [], placed := 1500, timer := some 1500 }
def qopq : QueuePair := { state := 1, sqLog := 6, cqLog := 6 }
def opq : State := { pkA with qps := [(49, qopq)], pkts := [(4, { qp := 49, taken := true, gen := 4 }), (7, popq)], nextPkt := 8, fns := [(3, { vA with quotas := { seq := 0 } })] }
def pfe1 : Packet := { qp := 49, gen := 4, hdr := ph 0x11 0 1 9 (33 + 16384 * 5) 8 (le 2 1 ++ zeros 2 ++ le 4 2), placed := 1500, timer := some 1500 }
def qfe1 : QueuePair := { state := 1, sqLog := 6, cqLog := 6 }
def fe1 : State := { pkA with qps := [(49, qfe1)], pkts := [(4, { qp := 49, taken := true, gen := 4 }), (7, pfe1)], nextPkt := 8, seqs := [(33, { state := 1, reuse := 5, fn := 3, gen := 4, sid := 9, positions := 10, maxTok := 50, part := 0 }), (34, { state := 1 })] }
def pfe0 : Packet := { qp := 49, gen := 4, hdr := ph 0x11 0 1 9 (33 + 16384 * 5) 0 (le 2 1 ++ zeros 2 ++ le 4 0), placed := 1500, timer := some 1500 }
def qfe0 : QueuePair := { state := 1, sqLog := 6, cqLog := 6 }
def fe0 : State := { pkA with qps := [(49, qfe0)], pkts := [(4, { qp := 49, taken := true, gen := 4 }), (7, pfe0)], nextPkt := 8, seqs := [(33, { state := 1, reuse := 5, fn := 3, gen := 4, sid := 9, positions := 10, maxTok := 50, part := 0 }), (34, { state := 1 })] }
def pfe3 : Packet := { qp := 49, gen := 4, hdr := ph 0x11 0 1 9 (33 + 16384 * 5) 8 (le 2 1 ++ zeros 2 ++ le 4 2), placed := 1500, timer := some 1500 }
def qfe3 : QueuePair := { state := 1, sqLog := 6, cqLog := 6 }
def fe3 : State := { pkA with qps := [(49, qfe3)], pkts := [(4, { qp := 49, taken := true, gen := 4 }), (7, pfe3)], nextPkt := 8, seqs := [(33, { state := 3, reuse := 5, fn := 3, gen := 4, sid := 9, positions := 10, maxTok := 50, part := 0, ops := [{ pkt := 4, kind := 0x12 }], stepPkt := 4 }), (34, { state := 1 })] }
def ps1 : Packet := { qp := 49, gen := 4, hdr := ph 0x12 0 1 9 (33 + 16384 * 5) 0 (le 2 3), placed := 1500, timer := some 1500 }
def qs1 : QueuePair := { state := 1, sqLog := 6, cqLog := 6 }
def s1 : State := { pkA with qps := [(49, qs1)], pkts := [(4, { qp := 49, taken := true, gen := 4 }), (7, ps1)], nextPkt := 8, seqs := [(33, { state := 1, reuse := 5, fn := 3, gen := 4, sid := 9, positions := 10, maxTok := 50, part := 0 }), (34, { state := 1 })] }
def ps2 : Packet := { qp := 49, gen := 4, hdr := ph 0x12 0 1 9 (33 + 16384 * 5) 0 (le 2 3), placed := 1500, timer := some 1500 }
def qs2 : QueuePair := { state := 1, sqLog := 6, cqLog := 6 }
def s2 : State := { pkA with qps := [(49, qs2)], pkts := [(4, { qp := 49, taken := true, gen := 4 }), (7, ps2)], nextPkt := 8, seqs := [(33, { state := 1, reuse := 5, fn := 3, gen := 4, sid := 9, positions := 50, maxTok := 50, part := 0 }), (34, { state := 1 })] }
def ps3 : Packet := { qp := 49, gen := 4, hdr := ph 0x12 0 1 9 (33 + 16384 * 5) 0 (le 2 3), placed := 1500, timer := some 1500 }
def qs3 : QueuePair := { state := 1, sqLog := 6, cqLog := 6 }
def s3 : State := { pkA with qps := [(49, qs3)], pkts := [(4, { qp := 49, taken := true, gen := 4 }), (7, ps3)], nextPkt := 8, seqs := [(33, { state := 3, reuse := 5, fn := 3, gen := 4, sid := 9, positions := 10, maxTok := 50, part := 0, ops := [{ pkt := 4, kind := 0x12 }], stepPkt := 4 }), (34, { state := 1 })] }
def ps4 : Packet := { qp := 49, gen := 4, hdr := ph 0x12 0 1 9 (33 + 16384 * 5) 0 (le 2 3), placed := 1500, timer := some 1500 }
def qs4 : QueuePair := { state := 1, sqLog := 6, cqLog := 6 }
def s4 : State := { pkA with qps := [(49, qs4)], pkts := [(4, { qp := 49, taken := true, gen := 4 }), (7, ps4)], nextPkt := 8, seqs := [(33, { state := 4, endStatus := 7, endDetail := 3, reuse := 5, fn := 3, gen := 4, sid := 9, positions := 10, maxTok := 50, part := 0 }), (34, { state := 1 })] }
def ps5 : Packet := { qp := 49, gen := 4, hdr := ph 0x12 0 1 9 (33 + 16384 * 5) 0 (le 2 3), placed := 1500, timer := some 1500 }
def qs5 : QueuePair := { state := 1, sqLog := 6, cqLog := 6 }
def s5 : State := { pkA with qps := [(49, qs5)], pkts := [(4, { qp := 49, taken := true, gen := 4 }), (7, ps5)], nextPkt := 8, seqs := [(33, { state := 1, reuse := 5, fn := 3, gen := 4, sid := 9, positions := 10, maxTok := 50, part := 0 }), (34, { state := 1 })], fns := [(3, { vA with quotas := { seq := 3 } })] }
def psp : Packet := { qp := 49, gen := 4, hdr := ph 0x12 0 1 10 0 0 (le 2 1), placed := 1500, timer := some 1500 }
def qsp : QueuePair := { state := 1, sqLog := 6, cqLog := 6 }
def sp : State := { pkA with qps := [(49, qsp)], pkts := [(4, { qp := 49, taken := true, gen := 4 }), (7, psp)], nextPkt := 8 }
def pc1 : Packet := { qp := 49, gen := 4, hdr := ph 0x13 0 1 9 (33 + 16384 * 5) 0 [], placed := 1500, timer := some 1500 }
def qc1 : QueuePair := { state := 1, sqLog := 6, cqLog := 6 }
def c1 : State := { pkA with qps := [(49, qc1)], pkts := [(4, { qp := 49, taken := true, gen := 4 }), (7, pc1)], nextPkt := 8, seqs := [(33, { state := 1, reuse := 5, fn := 3, gen := 4, sid := 9, positions := 10, maxTok := 50, part := 0, closing := true, tokens := 6, pages := [0x400000] }), (34, { state := 1 })] }
def pc4 : Packet := { qp := 49, gen := 4, hdr := ph 0x13 0 1 9 (33 + 16384 * 5) 0 [], placed := 1500, timer := some 1500 }
def qc4 : QueuePair := { state := 1, sqLog := 6, cqLog := 6 }
def c4 : State := { pkA with qps := [(49, qc4)], pkts := [(4, { qp := 49, taken := true, gen := 4 }), (7, pc4)], nextPkt := 8, seqs := [(33, { state := 4, reuse := 5, fn := 3, gen := 4, sid := 9, positions := 10, maxTok := 50, part := 0, closing := true }), (34, { state := 1 })] }
def pc3 : Packet := { qp := 49, gen := 4, hdr := ph 0x13 0 1 9 (33 + 16384 * 5) 0 [], placed := 1500, timer := some 1500 }
def qc3 : QueuePair := { state := 1, sqLog := 6, cqLog := 6 }
def c3 : State := { pkA with qps := [(49, qc3)], pkts := [(4, { qp := 49, taken := true, gen := 4 }), (7, pc3)], nextPkt := 8, seqs := [(33, { state := 3, reuse := 5, fn := 3, gen := 4, sid := 9, positions := 10, maxTok := 50, part := 0, ops := [{ pkt := 4, kind := 0x12 }], stepPkt := 4, closing := true }), (34, { state := 1 })] }
def pss : Packet := { qp := 49, gen := 4, hdr := ph 0x20 0 2 11 0 64 (le 2 1), placed := 1500, timer := some 1500, payload := zeros 64 }
def qss : QueuePair := { state := 1, sqLog := 6, cqLog := 6 }
def ss : State := { pkA with qps := [(49, qss)], pkts := [(4, { qp := 49, taken := true, gen := 4 }), (7, pss)], nextPkt := 8 }
def pde : Packet := { qp := 49, gen := 4, hdr := ph 0x21 0 1 11 5 0 (le 1 1), placed := 1500, timer := some 1500 }
def qde : QueuePair := { state := 1, sqLog := 6, cqLog := 6 }
def de : State := { pkA with qps := [(49, qde)], pkts := [(4, { qp := 49, taken := true, gen := 4 }), (7, pde)], nextPkt := 8 }
def jd1 : State := { pkA with jobs := [(5, { part := 0, entry := 2, solver := true })], solvers := [(0, { skels := [(3, { used := true, reuse := 7, fn := 3, gen := 4, sid := 11, part := 0 })] })] }
def pd1 : Packet := { qp := 49, gen := 4, hdr := ph 0x21 0 1 11 (3 + 16384*7) 0 (le 1 1 ++ zeros 3 ++ le 4 0), placed := 1500, timer := some 1500 }
def qd1 : QueuePair := { state := 1, sqLog := 6, cqLog := 6 }
def d1 : State := { jd1 with qps := [(49, qd1)], pkts := [(4, { qp := 49, taken := true, gen := 4 }), (7, pd1)], nextPkt := 8 }
def jd2 : State := { pkA with jobs := [(5, { part := 0, entry := 2, solver := true })], solvers := [(0, { skels := [(3, { used := true, reuse := 7, fn := 3, gen := 4, sid := 11, part := 0 })] })] }
def pd2 : Packet := { qp := 49, gen := 4, hdr := ph 0x21 0 1 11 (3 + 16384*7) 0 (le 1 1 ++ zeros 3 ++ le 4 100), placed := 1500, timer := some 1500 }
def qd2 : QueuePair := { state := 1, sqLog := 6, cqLog := 6 }
def d2 : State := { jd2 with qps := [(49, qd2)], pkts := [(4, { qp := 49, taken := true, gen := 4 }), (7, pd2)], nextPkt := 8 }
def jd3 : State := { pkA with jobs := [(5, { part := 0, entry := 2, solver := true })], solvers := [(0, { skels := [(3, { used := true, reuse := 7, fn := 3, gen := 4, sid := 11, part := 0, queue := List.replicate 8 {} })] })] }
def pd3 : Packet := { qp := 49, gen := 4, hdr := ph 0x21 0 1 11 (3 + 16384*7) 0 (le 1 1 ++ zeros 3 ++ le 4 0), placed := 1500, timer := some 1500 }
def qd3 : QueuePair := { state := 1, sqLog := 6, cqLog := 6 }
def d3 : State := { jd3 with qps := [(49, qd3)], pkts := [(4, { qp := 49, taken := true, gen := 4 }), (7, pd3)], nextPkt := 8 }
def jd4 : State := { pkA with solvers := [(0, { skels := [(3, { used := true, reuse := 7, fn := 3, gen := 4, sid := 11, part := 0 })] })] }
def pd4 : Packet := { qp := 49, gen := 4, hdr := ph 0x21 0 1 11 (3 + 16384*7) 0 (le 1 1 ++ zeros 3 ++ le 4 0), placed := 1500, timer := some 1500 }
def qd4 : QueuePair := { state := 1, sqLog := 6, cqLog := 6 }
def d4 : State := { jd4 with qps := [(49, qd4)], pkts := [(4, { qp := 49, taken := true, gen := 4 }), (7, pd4)], nextPkt := 8 }
def jd : State := { pkA with solvers := [(0, { skels := [(3, { used := true, reuse := 7, fn := 3, gen := 4, sid := 11, part := 0, dropping := some 7 }), (4, { used := true })] })] }
def pdd : Packet := { qp := 49, gen := 4, hdr := ph 0x22 0 1 11 (3 + 16384*7) 0 [], placed := 1500, timer := some 1500 }
def qdd : QueuePair := { state := 1, sqLog := 6, cqLog := 6 }
def dd : State := { jd with qps := [(49, qdd)], pkts := [(4, { qp := 49, taken := true, gen := 4 }), (7, pdd)], nextPkt := 8 }
def ptox : Packet := { qp := 49, gen := 4, hdr := ph 0x12 0 1 9 (33 + 16384 * 5) 0 (le 2 3), placed := 1500, timer := some 1500 }
def qtox : QueuePair := { state := 1, sqLog := 6, cqLog := 6 }
def tox : State := { pkA with qps := [(49, qtox)], pkts := [(4, { qp := 49, taken := true, gen := 4 }), (7, ptox)], nextPkt := 8, seqs := [(33, { state := 1, reuse := 5, fn := 3, gen := 4, sid := 9, positions := 10, maxTok := 50, part := 0 }), (34, { state := 1 })], clk := { rdy.clk with tick := 1001500 } }
def ptow : Packet := { qp := 49, gen := 4, hdr := ph 0x41 0 1 0 0 0 (zeros 8 ++ le 8 6), placed := 1500, timer := some 1500 }
def qtow : QueuePair := { state := 1, sqLog := 6, cqLog := 6 }
def tow : State := { pkA with qps := [(49, qtow)], pkts := [(4, { qp := 49, taken := true, gen := 4 }), (7, ptow)], nextPkt := 8, clk := { rdy.clk with tick := 1001500 } }
def ptow2 : Packet := { qp := 49, gen := 4, hdr := ph 0x41 0 1 0 0 0 (zeros 8 ++ le 8 6), placed := 1500, timer := some 1500, taken := true }
def qtow2 : QueuePair := { state := 1, hold := some 7 }
def tow2 : State := { pkA with qps := [(49, qtow2)], pkts := [(4, { qp := 49, taken := true, gen := 4 }), (7, ptow2)], nextPkt := 8, clk := { rdy.clk with tick := 1001500 }, alm := { State.reset.alm with sems := [(2053, 6)] } }
def ptoo : Packet := { qp := 49, gen := 4, hdr := ph 0x12 0 1 9 (33 + 16384 * 5) 0 (le 2 3), placed := 1500, timer := some 1500, taken := true }
def qtoo : QueuePair := { state := 1, sqLog := 6, cqLog := 6 }
def too : State := { pkA with qps := [(49, qtoo)], pkts := [(4, { qp := 49, taken := true, gen := 4 }), (7, ptoo)], nextPkt := 8, seqs := [(33, { state := 2, reuse := 5, fn := 3, gen := 4, sid := 9, positions := 10, maxTok := 50, part := 0, ops := [{ pkt := 7, kind := 0x12, left := 3 }] }), (34, { state := 1 })], clk := { rdy.clk with tick := 1001500 } }
def sl : State := { pkA with jobs := [(0, { tj with stepStart := some 5 })], clk := { rdy.clk with tick := 2000005 } }
def slv : State := { pkA with jobs := [(5, { part := 0, entry := 2, solver := true, state := 2 })], solvers := [(1, { ctxs := [(9, { skel := 3, startTick := 5 })], skels := [(3, { used := true, reuse := 7, fn := 3, gen := 4, sid := 11, part := 0 })] })], clk := { rdy.clk with tick := 2000005 } }

theorem wit_PacketsArePlacedOrRefused : Obligations.PacketsArePlacedOrRefused →
    Ran (.packetPlacement 3 1) pNop ∧
    Ran (.packetPlacement 3 1) pFence ∧
    Ran (.packetPlacement 3 1) pOpen0 ∧
    Ran (.packetPlacement 3 1) pOpen1 ∧
    Ran (.packetPlacement 3 1) pPw ∧
    Ran (.packetPlacement 3 1) m2 ∧
    Ran (.packetPlacement 3 1) mB ∧
    Ran (.reservedOpcodePacket 3 1) mR ∧
    Ran (.reservedOpcodePacket 3 1) mRm ∧
    Ran (.packetPlacement 3 1) unk ∧
    Ran (.packetPlacement 3 1) den ∧
    Ran (.packetPlacement 3 1) den5 ∧
    Ran (.packetPlacement 3 1) dr := fun h =>
  ⟨ran ((((((h pNop 3 1 qpNop hpNop (by decide +kernel) (by decide +kernel) (by decide +kernel) (by decide +kernel) (by decide +kernel)).1) (by decide +kernel) (by decide +kernel) (by decide +kernel) (by decide +kernel) (by decide +kernel) (by decide +kernel)).1) (by decide +kernel))),
   ran ((((((h pFence 3 1 qpFence hpFence (by decide +kernel) (by decide +kernel) (by decide +kernel) (by decide +kernel) (by decide +kernel)).1) (by decide +kernel) (by decide +kernel) (by decide +kernel) (by decide +kernel) (by decide +kernel) (by decide +kernel)).1) (by decide +kernel))),
   ran ((((((((h pOpen0 3 1 qpOpen0 hpOpen0 (by decide +kernel) (by decide +kernel) (by decide +kernel) (by decide +kernel) (by decide +kernel)).1) (by decide +kernel) (by decide +kernel) (by decide +kernel) (by decide +kernel) (by decide +kernel) (by decide +kernel)).2) 0 0 svcA pOpen0 (by decide +kernel) (by decide +kernel) (by decide +kernel) (by decide +kernel)).1) (by decide +kernel))),
   ran ((((((((h pOpen1 3 1 qpOpen1 hpOpen1 (by decide +kernel) (by decide +kernel) (by decide +kernel) (by decide +kernel) (by decide +kernel)).1) (by decide +kernel) (by decide +kernel) (by decide +kernel) (by decide +kernel) (by decide +kernel) (by decide +kernel)).2) 0 0 svcA pOpen1 (by decide +kernel) (by decide +kernel) (by decide +kernel) (by decide +kernel)).2) 0x20000 qSpot pOpen1s1 (by decide +kernel) (by decide +kernel) (by unfold State.inboxSpot; simp only [show pOpen1.parts.look 0 = some qSpot by decide +kernel, show qSpot.season = some { seA with regions := [{ kind := 5, entry := 0, dva := 0x20000, bytes := 64 }] } from rfl, show ({ seA with regions := [{ kind := 5, entry := 0, dva := 0x20000, bytes := 64 }] } : Season).region 5 0 = some { kind := 5, entry := 0, dva := 0x20000, bytes := 64 } by decide +kernel, show max 1 (64 / 64) = 1 from rfl, Nat.mod_one]; decide +kernel) (by decide +kernel) (by decide +kernel))),
   ran ((((((((h pPw 3 1 qpPw hpPw (by decide +kernel) (by decide +kernel) (by decide +kernel) (by decide +kernel) (by decide +kernel)).1) (by decide +kernel) (by decide +kernel) (by decide +kernel) (by decide +kernel) (by decide +kernel) (by decide +kernel)).2) 0 0 svcA pPw (by decide +kernel) (by decide +kernel) (by decide +kernel) (by decide +kernel)).1) (by decide +kernel))),
   ran ((((((h m2 3 1 qm2 hm2 (by decide +kernel) (by decide +kernel) (by decide +kernel) (by decide +kernel) (by decide +kernel)).2.1) (by decide +kernel)).1) 2 (by decide +kernel) (by decide +kernel))),
   ran ((((((h mB 3 1 qmB hmB (by decide +kernel) (by decide +kernel) (by decide +kernel) (by decide +kernel) (by decide +kernel)).2.1) (by decide +kernel)).1) 11 (by decide +kernel) (by decide +kernel))),
   ran ((((((h mR 3 1 qmR hmR (by decide +kernel) (by decide +kernel) (by decide +kernel) (by decide +kernel) (by decide +kernel)).2.1) (by decide +kernel)).2) (by decide +kernel))),
   ran ((((((h mRm 3 1 qmRm hmRm (by decide +kernel) (by decide +kernel) (by decide +kernel) (by decide +kernel) (by decide +kernel)).2.1) (by decide +kernel)).2) (by decide +kernel))),
   ran ((((((h unk 3 1 qunk hunk (by decide +kernel) (by decide +kernel) (by decide +kernel) (by decide +kernel) (by decide +kernel)).2.2) (by decide +kernel) (by decide +kernel) (by decide +kernel)).1) (by decide +kernel))),
   ran ((((((h den 3 1 qden hden (by decide +kernel) (by decide +kernel) (by decide +kernel) (by decide +kernel) (by decide +kernel)).2.2) (by decide +kernel) (by decide +kernel) (by decide +kernel)).2.1) 1 (by decide +kernel) (by decide +kernel))),
   ran ((((((h den5 3 1 qden5 hden5 (by decide +kernel) (by decide +kernel) (by decide +kernel) (by decide +kernel) (by decide +kernel)).2.2) (by decide +kernel) (by decide +kernel) (by decide +kernel)).2.1) 5 (by decide +kernel) (by decide +kernel))),
   ran ((((((h dr 3 1 qdr hdr (by decide +kernel) (by decide +kernel) (by decide +kernel) (by decide +kernel) (by decide +kernel)).2.2) (by decide +kernel) (by decide +kernel) (by decide +kernel)).2.2) (by decide +kernel) (by decide +kernel) (by decide +kernel) (by decide +kernel)))⟩

theorem wit_QueuePacketsComplete : Obligations.QueuePacketsComplete →
    Ran (.pktNop 7) nop ∧
    Ran (.fence 7) fen ∧
    Ran (.fenceRelease 3 1) fenr2 ∧
    Ran (.wait 7) wait0 ∧
    Ran (.wait 7) wait1 ∧
    Ran (.signal 7) sig ∧
    Ran (.signal 7) sign ∧
    Ran (.signal 7) sigh ∧
    Ran (.signal 7) sigr ∧
    Ran (.queryQueueAccounting 7) q0 ∧
    Ran (.querySequence 7) q1 ∧
    Ran (.queryQuotaUse 7) q2 := fun h =>
  ⟨ran ((((h nop 7 pnop qnop).1) (tk (by decide +kernel)) (by decide +kernel))),
   ran ((((h fen 7 pfen qfen).2.1) (tk (by decide +kernel)))),
   ran ((((h fenr2 7 pfenr qfenr).2.2.1) 3 1 (by decide +kernel) (by decide +kernel) (by decide +kernel) (by decide +kernel) (by decide +kernel) (by decide +kernel) (by decide +kernel) (by decide +kernel) (by decide +kernel))),
   ran ((((((h wait0 7 pwait0 qwait0).2.2.2.1) (tk (by decide +kernel))).1) (by decide +kernel))),
   ran ((((((h wait1 7 pwait1 qwait1).2.2.2.1) (tk (by decide +kernel))).2) 6#64 (by decide +kernel) (by decide +kernel))),
   ran ((((((h sig 7 psig qsig).2.2.2.2.1) (tk (by decide +kernel)) (by decide +kernel) (by decide +kernel)).1) (by decide +kernel) (by decide +kernel))),
   ran ((((((h sign 7 psign qsign).2.2.2.2.1) (tk (by decide +kernel)) (by decide +kernel) (by decide +kernel)).2.1) (by decide +kernel))),
   ran ((((((h sigh 7 psigh qsigh).2.2.2.2.1) (tk (by decide +kernel)) (by decide +kernel) (by decide +kernel)).2.2) (by decide +kernel) (by decide +kernel))),
   ran ((((((h sigr 7 psigr qsigr).2.2.2.2.1) (tk (by decide +kernel)) (by decide +kernel) (by decide +kernel)).2.2) (by decide +kernel) (by decide +kernel))),
   ran ((((((h q0 7 pq0 qq0).2.2.2.2.2) (tk (by decide +kernel)) (by decide +kernel)).1) (by decide +kernel))),
   ran ((((((h q1 7 pq1 qq1).2.2.2.2.2) (tk (by decide +kernel)) (by decide +kernel)).2.1) (by decide +kernel))),
   ran ((((((h q2 7 pq2 qq2).2.2.2.2.2) (tk (by decide +kernel)) (by decide +kernel)).2.2) (by decide +kernel)))⟩

theorem wit_ParametersAndWeightChunks : Obligations.ParametersAndWeightChunks →
    Ran (.paramRead 7) pr ∧
    Ran (.paramRead 7) prp ∧
    Ran (.paramWrite 7) pw ∧
    Ran (.weightChunk 7) wc ∧
    Ran (.weightChunk 7) wcb ∧
    Ran (.weightChunk 7) wce := fun h =>
  ⟨ran ((((h pr 7 ppr qpr (by decide +kernel)).1) 0 0 svcA qA (zeros 0 ++ [0x66#8] ++ zeros 127) false (tk (by decide +kernel)) (by decide +kernel) (by decide +kernel) (by decide +kernel))),
   ran ((((h prp 7 pprp qprp (by decide +kernel)).1) 0 0 svcA qA ([0x66#8] ++ zeros 127) true (tk (by decide +kernel)) (by decide +kernel) (by decide +kernel) (by decide +kernel))),
   ⟨_, (((h pw 7 ppw qpw (by decide +kernel)).2.1) 0 0 svcA qA pw2 (tk (by decide +kernel)) (by decide +kernel) (by decide +kernel) (by decide +kernel) (by decide +kernel))⟩,
   ran ((((((h wc 7 pwc qwc (by decide +kernel)).2.2) ldA qA (tk (by decide +kernel)) (by decide +kernel) (by decide +kernel) (by decide +kernel) (by decide +kernel)).1) (by decide +kernel) (by decide +kernel))),
   ran ((((((h wcb 7 pwcb qwcb (by decide +kernel)).2.2) ldA qA (tk (by decide +kernel)) (by decide +kernel) (by decide +kernel) (by decide +kernel) (by decide +kernel)).2) (by decide +kernel))),
   ran ((((((h wce 7 pwce qwce (by decide +kernel)).2.2) ldA qA (tk (by decide +kernel)) (by decide +kernel) (by decide +kernel) (by decide +kernel) (by decide +kernel)).1) (by decide +kernel) (by decide +kernel)))⟩

theorem wit_SequencesOpenFeedStepClose : Obligations.SequencesOpenFeedStepClose →
    Ran (.seqOpen 7) op ∧
    Ran (.seqOpen 7) op0 ∧
    Ran (.seqOpen 7) opq ∧
    Ran (.seqFeed 7) fe1 ∧
    Ran (.seqFeed 7) fe0 ∧
    Ran (.seqFeed 7) fe3 ∧
    Ran (.seqStep 7) s1 ∧
    Ran (.seqStep 7) s2 ∧
    Ran (.seqStep 7) s3 ∧
    Ran (.seqStep 7) s4 ∧
    Ran (.seqStep 7) s5 ∧
    Ran (.seqStep 7) sp ∧
    Ran (.seqClose 7) c1 ∧
    Ran (.seqClose 7) c4 ∧
    Ran (.seqClose 7) c3 := fun h =>
  ⟨ran ((((((h op 7 pop qop (by decide +kernel)).1) 0 0 svcA (tk (by decide +kernel)) (by decide +kernel)).1) 33 (by decide +kernel) (by decide +kernel))),
   ran ((((((h op0 7 pop0 qop0 (by decide +kernel)).1) 0 0 svcA (tk (by decide +kernel)) (by decide +kernel)).1) 32 (by decide +kernel) (by decide +kernel))),
   ran ((((((h opq 7 popq qopq (by decide +kernel)).1) 0 0 svcA (tk (by decide +kernel)) (by decide +kernel)).2) (stQuota, 1) (by decide +kernel))),
   ran ((((((((h fe1 7 pfe1 qfe1 (by decide +kernel)).2.1) 0 0 svcA (tk (by decide +kernel)) (by decide +kernel) (by decide +kernel) (by decide +kernel) (by decide +kernel)).1) (by decide +kernel) (by decide +kernel) (by decide +kernel) (by decide +kernel)).1) (by decide +kernel))),
   ran ((((((((h fe0 7 pfe0 qfe0 (by decide +kernel)).2.1) 0 0 svcA (tk (by decide +kernel)) (by decide +kernel) (by decide +kernel) (by decide +kernel) (by decide +kernel)).1) (by decide +kernel) (by decide +kernel) (by decide +kernel) (by decide +kernel)).2) (by decide +kernel))),
   ran ((((((h fe3 7 pfe3 qfe3 (by decide +kernel)).2.1) 0 0 svcA (tk (by decide +kernel)) (by decide +kernel) (by decide +kernel) (by decide +kernel) (by decide +kernel)).2) (by decide +kernel))),
   ran ((((((((((h s1 7 ps1 qs1 (by decide +kernel)).2.2.1) 0 0 svcA (tk (by decide +kernel)) (by decide +kernel) (by decide +kernel)).1) (by decide +kernel)).1) (by decide +kernel) (by decide +kernel) (by decide +kernel) (by decide +kernel) (by decide +kernel)).1) (by decide +kernel))),
   ran ((((((((((h s2 7 ps2 qs2 (by decide +kernel)).2.2.1) 0 0 svcA (tk (by decide +kernel)) (by decide +kernel) (by decide +kernel)).1) (by decide +kernel)).1) (by decide +kernel) (by decide +kernel) (by decide +kernel) (by decide +kernel) (by decide +kernel)).2) (by decide +kernel))),
   ran ((((((((h s3 7 ps3 qs3 (by decide +kernel)).2.2.1) 0 0 svcA (tk (by decide +kernel)) (by decide +kernel) (by decide +kernel)).1) (by decide +kernel)).2) (by decide +kernel))),
   ran ((((((h s4 7 ps4 qs4 (by decide +kernel)).2.2.1) 0 0 svcA (tk (by decide +kernel)) (by decide +kernel) (by decide +kernel)).2) (7,3) (by decide +kernel))),
   ran ((((((h s5 7 ps5 qs5 (by decide +kernel)).2.2.1) 0 0 svcA (tk (by decide +kernel)) (by decide +kernel) (by decide +kernel)).2) (stQuota, 2) (by decide +kernel))),
   ran ((((h sp 7 psp qsp (by decide +kernel)).2.2.2.1) 0 1 svcB 32 (tk (by decide +kernel)) (by decide +kernel) (by decide +kernel) (by decide +kernel) (by decide +kernel))),
   ran ((((((h c1 7 pc1 qc1 (by decide +kernel)).2.2.2.2) (tk (by decide +kernel))).1) (by decide +kernel) (by decide +kernel) (by decide +kernel) (by decide +kernel) (by decide +kernel))),
   ran ((((((h c4 7 pc4 qc4 (by decide +kernel)).2.2.2.2) (tk (by decide +kernel))).1) (by decide +kernel) (by decide +kernel) (by decide +kernel) (by decide +kernel) (by decide +kernel))),
   ran ((((((h c3 7 pc3 qc3 (by decide +kernel)).2.2.2.2) (tk (by decide +kernel))).2) (by decide +kernel) (by decide +kernel)))⟩

theorem wit_SolverPackets : Obligations.SolverPackets →
    Ran (.solveSet 7) ss ∧
    Ran (.solveDelta 7) de ∧
    Ran (.solveDelta 7) d1 ∧
    Ran (.solveDelta 7) d2 ∧
    Ran (.solveDelta 7) d3 ∧
    Ran (.solveDelta 7) d4 ∧
    Ran (.solveDrop 7) dd := fun h =>
  ⟨ran ((((h ss 7 pss qss (by decide +kernel)).1) 0 2 svcC 0 (tk (by decide +kernel)) (by decide +kernel) (by decide +kernel) (by decide +kernel) (by decide +kernel) (by decide +kernel) (by decide +kernel) (by decide +kernel))),
   ran ((((h de 7 pde qde (by decide +kernel)).2.1) (tk (by decide +kernel)) (by decide +kernel))),
   ran ((((((h d1 7 pd1 qd1 (by decide +kernel)).2.2.1) 0 3 (tk (by decide +kernel)) (by decide +kernel) (by decide +kernel)).1) (by decide +kernel) (by decide +kernel))),
   ran ((((((h d2 7 pd2 qd2 (by decide +kernel)).2.2.1) 0 3 (tk (by decide +kernel)) (by decide +kernel) (by decide +kernel)).1) (by decide +kernel) (by decide +kernel))),
   ran ((((((h d3 7 pd3 qd3 (by decide +kernel)).2.2.1) 0 3 (tk (by decide +kernel)) (by decide +kernel) (by decide +kernel)).2.1) (by decide +kernel) (by decide +kernel))),
   ran ((((((h d4 7 pd4 qd4 (by decide +kernel)).2.2.1) 0 3 (tk (by decide +kernel)) (by decide +kernel) (by decide +kernel)).2.2) (by decide +kernel))),
   ran ((((h dd 7 pdd qdd (by decide +kernel)).2.2.2) (tk (by decide +kernel)) (by decide +kernel) (by decide +kernel) (by decide +kernel) (by decide +kernel)))⟩

theorem wit_PacketsAndStepsTimeOut : Obligations.PacketsAndStepsTimeOut →
    Ran (.packetTimeout 7) tox ∧
    Ran (.packetTimeout 7) tow ∧
    Ran (.packetTimeout 7) tow2 ∧
    Ran (.packetTimeout 7) too ∧
    Ran (.stepLimitExpiry 0) sl ∧
    Ran (.stepLimitExpiry 5) slv := fun h =>
  ⟨ran ((((((((h tox).1) 7 ptox qtox 1500 (by decide +kernel) (by decide +kernel) (by decide +kernel) (by decide +kernel) (by decide +kernel) (by decide +kernel) (by decide +kernel) (by decide +kernel)).1) (by decide +kernel) (by decide +kernel)).1) (by decide +kernel))),
   ran ((((((((h tow).1) 7 ptow qtow 1500 (by decide +kernel) (by decide +kernel) (by decide +kernel) (by decide +kernel) (by decide +kernel) (by decide +kernel) (by decide +kernel) (by decide +kernel)).1) (by decide +kernel) (by decide +kernel)).2.1) (by decide +kernel) (by decide +kernel))),
   ran ((((((((h tow2).1) 7 ptow2 qtow2 1500 (by decide +kernel) (by decide +kernel) (by decide +kernel) (by decide +kernel) (by decide +kernel) (by decide +kernel) (by decide +kernel) (by decide +kernel)).1) (by decide +kernel) (by decide +kernel)).2.2) 6#64 (by decide +kernel) (by decide +kernel) (by decide +kernel) (by decide +kernel))),
   ran ((((((h too).1) 7 ptoo qtoo 1500 (by decide +kernel) (by decide +kernel) (by decide +kernel) (by decide +kernel) (by decide +kernel) (by decide +kernel) (by decide +kernel) (by decide +kernel)).2) 33 { pkt := 7, kind := 0x12, left := 3 } (by decide +kernel) (by decide +kernel))),
   ran ((((h sl).2.1) 0 { tj with stepStart := some 5 } 5 (by decide +kernel) (by decide +kernel) (by decide +kernel) (by decide +kernel) (by decide +kernel))),
   ran ((((h slv).2.2) 5 { part := 0, entry := 2, solver := true, state := 2 } 1 9 { skel := 3, startTick := 5 } (by decide +kernel) (by decide +kernel) (by decide +kernel) (by decide +kernel) (by decide +kernel) (by decide +kernel) (by decide +kernel) (by decide +kernel)))⟩

end Packets

namespace Steps

def b0 : Job := { tj with offset := 80 }
def ac : State := { pkA with jobs := [(0, b0), (3, { part := 0, entry := 1 })] }
def qAd : Part := { qA with draining := true }
def acd : State := { pkA with jobs := [(0, b0)], parts := [(0, qAd)], seqs := [(33, { state := 2, part := 0, sid := 9, fn := 3, gen := 4, ops := [{ pkt := 7, kind := 0x12, left := 3, closed := true }] })], pkts := [(7, { qp := 49, gen := 4, hdr := ph 0x12 0 1 9 (33+16384*5) 0 (le 2 3), taken := true })] }
def adS : State := { pkA with jobs := [(0, b0)], seqs := [(33, { state := 2, part := 0, sid := 9, fn := 512, gen := 1, positions := 64, maxTok := 200, pages := [0x400000], ops := [{ pkt := 7, kind := 18, left := 3, closed := true, placedAt := 3 }] })], pkts := [(7, { qp := 8192, gen := 1, hdr := ph 0x12 0 1 9 (33+16384*5) 0 (le 2 3), taken := true })], nextPkt := 8 }
def adF : State := { pkA with jobs := [(0, b0)], seqs := [(33, { state := 2, part := 0, sid := 9, fn := 512, gen := 1, positions := 64, maxTok := 200, pages := [0x400000], ops := [{ pkt := 7, kind := 17, left := 7, closed := true, placedAt := 3 }] })], pkts := [(7, { qp := 8192, gen := 1, hdr := ph 0x11 0 1 9 (33+16384*5) 28 (le 2 1 ++ zeros 2 ++ le 4 7), taken := true })], nextPkt := 8 }
def bwl : Job := { tj with build := some 2999000, admitted := [33], lcAdm := 1 }
def qwl : Part := { qA with svcs := [(0, { svcA with worklist := 2 })] }
def wl : State := { adS with jobs := [(0, bwl)], parts := [(0, qwl)] }
def qwf : Part := { qwl with l1 := [] }
def wlf : State := { wl with parts := [(0, qwf)] }
def wlh : State := { wl with clk := { rdy.clk with cycle := 4000000 } }
def bl : Job := { tj with offset := 50, layer := 0 }
def lb : State := { pkA with jobs := [(0, bl), (3, { part := 0, entry := 1 })], tiles := [(0, { power := 1, job := some 0, digest := [(0, 99), (16, 3)] }), (60, { digest := [(0, 5)] })] }
def b3 : Job := { part := 0, entry := 1, state := 3, prio := 2, readyAt := some 3 }
def lbpre : State := { lb with jobs := [(0, bl), (3, b3)], tiles := [(0, { power := 1, job := some 0 })] }
def lbseam : State := { lb with jobs := [(0, bl), (3, b3)], tiles := [(0, { power := 1, job := some 0, semHeld := 4, semJob := 0 })] }
def lbloan : State := { lb with jobs := [(0, bl), (3, b3)], tiles := [(0, { power := 1, job := some 0, loaned := 4, loanJob := 0 })] }
def blh : Job := { bl with heldSeam := true }
def lbh : State := { lbseam with jobs := [(0, blh), (3, b3)] }
def ble : Job := { tj with offset := 100, layer := 1, admitted := [33], occupied := [34], closed := true }
def lbe : State := { lb with jobs := [(0, ble)], seqs := [(33, { state := 3, part := 0, sid := 9, fn := 512, gen := 1, ops := [{ pkt := 7, kind := 0x12, left := 3, closed := true, admAt := some 3 }], nextOpPkt := 7, nextItems := 1 }), (34, { state := 3, part := 0, sid := 9, fn := 512, gen := 1, stepPkt := 8, stepItems := 1, ops := [{ pkt := 8, kind := 0x12, left := 1, closed := true, admAt := some 3 }] })], pkts := [(7, { qp := 8192, gen := 1, hdr := ph 0x12 0 1 9 (33+16384*5) 0 (le 2 3), taken := true })], nextPkt := 8 }
def qsw : Part := { qA with runJob := none, switch := some (0, 2999990) }
def bsa : Job := { tj with state := 3, waited := 4, readyAt := some 3 }
def swa : State := { lb with jobs := [(0, bsa)], parts := [(0, qsw)] }
def bsb : Job := { tj with state := 3, waited := 4, readyAt := some 3, stepStart := none, offset := 0, admitted := [] }
def swb : State := { lb with jobs := [(0, bsb)], parts := [(0, qsw)] }
def seW : Season := { seA with wakes := [{ offset := 5, tile := 0, action := 1 }, { offset := 9, tile := 1, action := 1 }, { offset := 20, tile := 1, action := 2 }] }
def qsW : Part := { qsw with season := some seW }
def bsW : Job := { bsa with offset := 20 }
def swW : State := { swa with jobs := [(0, bsW)], parts := [(0, qsW)], tiles := [(0, { power := 0 }), (1, { power := 1 })] }
def lbo : State := { lb with tiles := [(0, { power := 1, job := some 0, depth := 1 })] }
def bp : Job := { tj with offset := 50 }
def pl : State := { pkA with jobs := [(0, bp)], parts := [(0, { qA with season := some { seA with transfers := [{ offset := 50, tile := 33, kind := 1, bytes := 64, localAddr := 0x100 }] } })], tiles := [(17, { power := 1 }), (34, { power := 1 }), (18, { chans := [(2, { conf := true, planned := true, dst := 16, dstChan := 4, wire := [([1,2],[]), ([3],[])] })], posted := 2, power := 1, job := some 0 })], hl := { state := 2, ttAvail := [(0, 1919), (1, 1920)] } }
def plx : State := { pl with fresh := 0 }
def plxn : State := { pl with fresh := 0, mem := { xfers := (List.range 32).map (fun i => (32*17+i, {})) } }
def xrq1 : Xfer := { part := 0, job := 0, tile := some 17, kind := 1, localAddr := 0x200, bytes := 128, remote := 0x10000, done := 64, issued := 64 }
def rq1 : State := { pkA with mem := { State.reset.mem with stack := [(0x10041, 0x66#8)], poison := [(0x402,true)], xfers := [(545, xrq1)] }, tiles := [(18, { power := 1, job := some 0, sems := [(3,7)] })], jobs := [(0, tj)] }
def xrq2 : Xfer := { part := 0, job := 0, tile := some 17, kind := 2, localAddr := 0x200, bytes := 128, remote := 0x10000, done := 64, issued := 64 }
def rq2 : State := { pkA with mem := { State.reset.mem with stack := [(0x10041, 0x66#8)], poison := [(0x402,true)], xfers := [(545, xrq2)] }, tiles := [(18, { power := 1, job := some 0, sems := [(3,7)] })], jobs := [(0, tj)] }
def xrq3 : Xfer := { part := 0, job := 0, tile := some 17, kind := 3, localAddr := 0x200, bytes := 128, remote := 0x10000, done := 64, issued := 64 }
def rq3 : State := { pkA with mem := { State.reset.mem with stack := [(0x10041, 0x66#8)], poison := [(0x402,true)], xfers := [(545, xrq3)] }, tiles := [(18, { power := 1, job := some 0, sems := [(3,7)] })], jobs := [(0, tj)] }
def xrqf : Xfer := { part := 0, job := 0, tile := some 17, kind := 1, localAddr := 0x200, bytes := 128, remote := 0x20000, done := 64, issued := 64 }
def rqf : State := { pkA with mem := { State.reset.mem with stack := [(0x10041, 0x66#8)], poison := [(0x402,true)], xfers := [(545, xrqf)] }, tiles := [(18, { power := 1, job := some 0, sems := [(3,7)] })], jobs := [(0, tj)], parts := [(0, { qA with tables := [] })] }
def xrqt : Xfer := { part := 0, job := 0, tile := some 17, kind := 1, localAddr := 0x200, bytes := 128, remote := 0x20000, done := 64, issued := 64 }
def rqt : State := { pkA with mem := { State.reset.mem with stack := [(0x10041, 0x66#8)], poison := [(0x402,true)], xfers := [(545, xrqt)] }, tiles := [(18, { power := 1, job := some 0, sems := [(3,7)] })], jobs := [(0, tj)], parts := [(0, { qA with tables := [(0x4000, 0x2F)] })] }
def xrqp : Xfer := { part := 0, job := 0, tile := some 17, kind := 2, localAddr := 0x200, bytes := 128, remote := 0x20000, done := 64, issued := 64 }
def rqp : State := { pkA with mem := { State.reset.mem with stack := [(0x10041, 0x66#8)], poison := [(0x402,true)], xfers := [(545, xrqp)] }, tiles := [(18, { power := 1, job := some 0, sems := [(3,7)] })], jobs := [(0, tj)], parts := [(0, { qA with tables := [(0x4000, 0x07)] })] }
def xrs1 : Xfer := { part := 0, job := 0, tile := some 17, kind := 1, localAddr := 0x200, bytes := 192, remote := 0x10000, done := 64, issued := 128, dpa := 0x10040 }
def rs1 : State := { pkA with mem := { State.reset.mem with stack := [(0x10041, 0x66#8)], poison := [(0x402,true)], xfers := [(545, xrs1)] }, tiles := [(18, { power := 1, job := some 0, sems := [(3,7)] })], jobs := [(0, tj)] }
def xrs2 : Xfer := { part := 0, job := 0, tile := some 17, kind := 1, localAddr := 0x200, bytes := 128, remote := 0x10000, done := 64, issued := 128, dpa := 0x10040 }
def rs2 : State := { pkA with mem := { State.reset.mem with stack := [(0x10041, 0x66#8)], poison := [(0x402,true)], xfers := [(545, xrs2)] }, tiles := [(18, { power := 1, job := some 0, sems := [(3,7)] })], jobs := [(0, tj)] }
def xrs3 : Xfer := { part := 0, job := 0, tile := some 17, kind := 1, flags := 1, sem := 3, localAddr := 0x200, bytes := 128, remote := 0x10000, done := 64, issued := 128, dpa := 0x10080, planned := true }
def rs3 : State := { pkA with mem := { State.reset.mem with stack := [(0x10041, 0x66#8)], poison := [(0x402,true)], xfers := [(545, xrs3)] }, tiles := [(18, { power := 1, job := some 0, sems := [(3,7)] })], jobs := [(0, tj)] }
def qh : Part := { qA with hold := some 2000000, faulted := [545], maxTicks := 3 }
def hr : State := { rq1 with parts := [(0, qh)] }
def qhl : Part := { qA with hold := some 2000000, faulted := [545], tables := [] }
def hlm : State := { rq1 with parts := [(0, qhl)], clk := { rdy.clk with cycle := 17000000 } }
def hce : State := { busy with clk := { rdy.clk with tick := 1000 + 2 * dayTicks }, health := [(3, { storeCe := 4 })] }
def uc : State := { pkA with parts := [(0, { qA with cols := [1] })], tiles := [(18, { power := 1, store := [(0x103,5)], sems := [(3,0xFFF0)], chans := [(5, { conf := true, slotBase := 0x400, slotCount := 4, credits := 4, avail := 1, returning := 1, queue := [(0x400, 3)] })] })] }
def ucd : State := { pkA with tiles := [(18, { power := 2 })] }
def ucx : State := { uc with ladder := { spares := [(1, { state := 5 })] } }
def ur : State := { pkA with tiles := [(18, { power := 1, posted := 3 })], hl := { state := 2, reqs := [(5, { tile := 18, pkt := { typ := 1, src := 0x280, tag := 5 } })], resps := [{ typ := 7, tag := 4 }, { typ := 7, tag := 5, src := 0x280 }, { typ := 3, tag := 5, src := 0x298, data := [1] }, { typ := 0xB, tag := 6, src := 0x298 }, { typ := 8, tag := 5, src := 0x280, part := 0, nack := 1 }, { typ := 8, tag := 9, src := 0x200, job := 0, nack := 1 }] } }

theorem wit_AdmissionClosesAndWorkLists : Obligations.AdmissionClosesAndWorkLists →
    Ran (.admissionClose 0) ac ∧
    Ran (.admissionClose 0) acd ∧
    Ran (.admissionClose 0) adS ∧
    Ran (.admissionClose 0) adF ∧
    Ran (.workListBuilt 0) wl ∧
    Ran (.workListBuilt 0) wlf ∧
    Ran (.stepBuilderBoundMissed 0) wlh := fun h =>
  ⟨ran (((((h ac 0 b0 qA (by decide +kernel) (by decide +kernel)).1) seA (by decide +kernel) (by decide +kernel) (by decide +kernel)).1)),
   ran (((((h acd 0 b0 qAd (by decide +kernel) (by decide +kernel)).1) seA (by decide +kernel) (by decide +kernel) (by decide +kernel)).1)),
   ran ((((((h adS 0 b0 qA (by decide +kernel) (by decide +kernel)).1) seA (by decide +kernel) (by decide +kernel) (by decide +kernel)).2) 33 { e := 33, op := { pkt := 7, kind := 18, left := 3, closed := true, placedAt := 3 }, cont := false, lc := true } (by decide +kernel) (by decide +kernel) (by decide +kernel) (by decide +kernel) (by decide +kernel) (by decide +kernel) (by decide +kernel) (by decide +kernel) (by decide +kernel))),
   ran ((((((h adF 0 b0 qA (by decide +kernel) (by decide +kernel)).1) seA (by decide +kernel) (by decide +kernel) (by decide +kernel)).2) 33 { e := 33, op := { pkt := 7, kind := 17, left := 7, closed := true, placedAt := 3 }, cont := false, lc := true } (by decide +kernel) (by decide +kernel) (by decide +kernel) (by decide +kernel) (by decide +kernel) (by decide +kernel) (by decide +kernel) (by decide +kernel) (by decide +kernel))),
   ⟨_, (((((h wl 0 bwl qwl (by decide +kernel) (by decide +kernel)).2) 2999000 (by decide +kernel) (by decide +kernel)).1) (match wl.workList bwl qwl with | .ok s => s | _ => wl) (by decide +kernel))⟩,
   ⟨_, (((((h wlf 0 bwl qwf (by decide +kernel) (by decide +kernel)).2) 2999000 (by decide +kernel) (by decide +kernel)).2.1) 1 (match wlf.workList bwl qwf with | .error e => e.2 | _ => 0) (by decide +kernel) (by decide +kernel))⟩,
   ran ((((((h wlh 0 bwl qwl (by decide +kernel) (by decide +kernel)).2) 2999000 (by decide +kernel) (by decide +kernel)).2.2) (by decide +kernel) (by decide +kernel)))⟩

theorem wit_LayerBoundariesAndSwitches : Obligations.LayerBoundariesAndSwitches →
    Ran (.layerBoundary 0) lb ∧
    Ran (.layerBoundary 0) lbpre ∧
    Ran (.layerBoundary 0) lbseam ∧
    Ran (.layerBoundary 0) lbloan ∧
    Ran (.layerBoundary 0) lbh ∧
    Ran (.layerBoundary 0) lbe ∧
    Ran (.jobSwitchDone 0) swa ∧
    Ran (.jobSwitchDone 0) swb ∧
    Ran (.jobSwitchDone 0) swW ∧
    Ran (.jobSwitchDone 0) swW ∧
    Ran (.layerBoundary 0) lbo := fun h =>
  ⟨ran ((((((((h lb 0 bl qA (by decide +kernel) (by decide +kernel)).2.1) seA (by decide +kernel) (by decide +kernel) (by decide +kernel) (by decide +kernel) (by decide +kernel) (by decide +kernel) (by decide +kernel) (by decide +kernel) (by decide +kernel) (by decide +kernel) (by decide +kernel)).1) (by decide +kernel) (by decide +kernel)).1) (by decide +kernel))),
   ran ((((((((((h lbpre 0 bl qA (by decide +kernel) (by decide +kernel)).2.1) seA (by decide +kernel) (by decide +kernel) (by decide +kernel) (by decide +kernel) (by decide +kernel) (by decide +kernel) (by decide +kernel) (by decide +kernel) (by decide +kernel) (by decide +kernel) (by decide +kernel)).1) (by decide +kernel) (by decide +kernel)).2) 3 2 (by decide +kernel) (by decide +kernel)).1) (by decide +kernel))),
   ran ((((((((((h lbseam 0 bl qA (by decide +kernel) (by decide +kernel)).2.1) seA (by decide +kernel) (by decide +kernel) (by decide +kernel) (by decide +kernel) (by decide +kernel) (by decide +kernel) (by decide +kernel) (by decide +kernel) (by decide +kernel) (by decide +kernel) (by decide +kernel)).1) (by decide +kernel) (by decide +kernel)).2) 3 2 (by decide +kernel) (by decide +kernel)).2.1) (by decide +kernel) (by decide +kernel))),
   ran ((((((((((h lbloan 0 bl qA (by decide +kernel) (by decide +kernel)).2.1) seA (by decide +kernel) (by decide +kernel) (by decide +kernel) (by decide +kernel) (by decide +kernel) (by decide +kernel) (by decide +kernel) (by decide +kernel) (by decide +kernel) (by decide +kernel) (by decide +kernel)).1) (by decide +kernel) (by decide +kernel)).2) 3 2 (by decide +kernel) (by decide +kernel)).2.1) (by decide +kernel) (by decide +kernel))),
   ran ((((((((((h lbh 0 blh qA (by decide +kernel) (by decide +kernel)).2.1) seA (by decide +kernel) (by decide +kernel) (by decide +kernel) (by decide +kernel) (by decide +kernel) (by decide +kernel) (by decide +kernel) (by decide +kernel) (by decide +kernel) (by decide +kernel) (by decide +kernel)).1) (by decide +kernel) (by decide +kernel)).2) 3 2 (by decide +kernel) (by decide +kernel)).2.2) (by decide +kernel) (by decide +kernel))),
   ran ((((((h lbe 0 ble qA (by decide +kernel) (by decide +kernel)).2.1) seA (by decide +kernel) (by decide +kernel) (by decide +kernel) (by decide +kernel) (by decide +kernel) (by decide +kernel) (by decide +kernel) (by decide +kernel) (by decide +kernel) (by decide +kernel) (by decide +kernel)).2) (by decide +kernel) (by decide +kernel) (by decide +kernel) (by decide +kernel))),
   ran (((((h swa 0 bsa qsw (by decide +kernel) (by decide +kernel)).2.2) 2999990 (by decide +kernel) (by decide +kernel) (by decide +kernel)).1)),
   ran (((((h swb 0 bsb qsw (by decide +kernel) (by decide +kernel)).2.2) 2999990 (by decide +kernel) (by decide +kernel) (by decide +kernel)).1)),
   ran ((((((h swW 0 bsW qsW (by decide +kernel) (by decide +kernel)).2.2) 2999990 (by decide +kernel) (by decide +kernel) (by decide +kernel)).2) seW 0 0 (by decide +kernel) (by decide +kernel) (by decide +kernel) (by decide +kernel) (by decide +kernel) (by decide +kernel))),
   ran ((((((h swW 0 bsW qsW (by decide +kernel) (by decide +kernel)).2.2) 2999990 (by decide +kernel) (by decide +kernel) (by decide +kernel)).2) seW 1 1 (by decide +kernel) (by decide +kernel) (by decide +kernel) (by decide +kernel) (by decide +kernel) (by decide +kernel))),
   ran ((((h lbo 0 bl qA (by decide +kernel) (by decide +kernel)).1) seA (by decide +kernel) (by decide +kernel) (by decide +kernel) (by decide +kernel) (by decide +kernel) (by decide +kernel) (by decide +kernel) (by decide +kernel)))⟩

theorem wit_PlannedActions : Obligations.PlannedActions →
    Ran (.plannedAction 0 (PlannedAction.flit { dst := 32, addr := 64, data := zeros 63 ++ [9#8], poison := [1] })) pl ∧
    Ran (.plannedAction 0 (PlannedAction.flit { lane := some (0, 3), onLink := true })) pl ∧
    Ran (.plannedAction 0 (PlannedAction.flit { lane := some (1, 3), onLink := true })) pl ∧
    Ran (.plannedAction 0 (PlannedAction.message 18 2)) pl ∧
    Ran (.plannedAction 0 PlannedAction.stray) pl ∧
    Ran (.plannedAction 0 (PlannedAction.missed 7)) pl ∧
    Ran (.plannedTransferStart 0 0) plx ∧
    Ran (.plannedTransferStart 0 0) plxn := fun h =>
  ⟨ran ((((((h pl 0 bp (by decide +kernel)).1) (by decide +kernel)).1) { dst := 32, addr := 0x40, data := zeros 63 ++ [9#8], poison := [1] } (by decide +kernel) (by decide +kernel) (by decide +kernel))),
   ⟨_, (((((((h pl 0 bp (by decide +kernel)).1) (by decide +kernel)).2.1) { lane := some (0,3), onLink := true } 0 3 (by decide +kernel) (by decide +kernel)).1) (by decide +kernel))⟩,
   ran ((((((((h pl 0 bp (by decide +kernel)).1) (by decide +kernel)).2.1) { lane := some (1,3), onLink := true } 1 3 (by decide +kernel) (by decide +kernel)).2) (by decide +kernel))),
   ran ((((((h pl 0 bp (by decide +kernel)).1) (by decide +kernel)).2.2.1) 18 2 ([1,2],[]) [([3],[])] (by decide +kernel) (by decide +kernel))),
   ran (((((h pl 0 bp (by decide +kernel)).1) (by decide +kernel)).2.2.2.1)),
   ran ((((((h pl 0 bp (by decide +kernel)).1) (by decide +kernel)).2.2.2.2) 7)),
   ran ((((((h plx 0 bp (by decide +kernel)).2) (pl.parts.val 0 {}) { seA with transfers := [{ offset := 50, tile := 33, kind := 1, bytes := 64, localAddr := 0x100 }] } 0 { offset := 50, tile := 33, kind := 1, bytes := 64, localAddr := 0x100 } 17 (by decide +kernel) (by decide +kernel) (by decide +kernel) (by decide +kernel) (by decide +kernel) (by decide +kernel) (by decide +kernel) (by decide +kernel) (by decide +kernel) (by decide +kernel)).1) 544 (by decide +kernel))),
   ran ((((((h plxn 0 bp (by decide +kernel)).2) (pl.parts.val 0 {}) { seA with transfers := [{ offset := 50, tile := 33, kind := 1, bytes := 64, localAddr := 0x100 }] } 0 { offset := 50, tile := 33, kind := 1, bytes := 64, localAddr := 0x100 } 17 (by decide +kernel) (by decide +kernel) (by decide +kernel) (by decide +kernel) (by decide +kernel) (by decide +kernel) (by decide +kernel) (by decide +kernel) (by decide +kernel) (by decide +kernel)).2) (by decide +kernel)))⟩

theorem wit_TransfersRequestAndRespond : Obligations.TransfersRequestAndRespond →
    Ran (.transferRequest 545 false) rq1 ∧
    Ran (.transferRequest 545 false) rq2 ∧
    Ran (.transferRequest 545 false) rq3 ∧
    Ran (.transferRequest 545 false) rqf ∧
    Ran (.transferRequest 545 false) rqt ∧
    Ran (.transferRequest 545 false) rqp ∧
    Ran (.transferResponse 545 XferResult.done) rs1 ∧
    Ran (.transferResponse 545 XferResult.done) rs2 ∧
    Ran (.transferResponse 545 XferResult.done) rs3 ∧
    Ran (.transferResponse 545 XferResult.nackReset) rs3 ∧
    Ran (.transferResponse 545 XferResult.nackRoute) rs3 ∧
    Ran (.transferResponse 545 XferResult.nackDark) rs3 ∧
    Ran (.transferNoResponse 545) rs3 := fun h =>
  ⟨⟨_, (((((h rq1 545 xrq1 17 (by decide +kernel) (by decide +kernel)).1) qA (by decide +kernel) (by decide +kernel) (by decide +kernel) (by decide +kernel) (by decide +kernel) (by decide +kernel) (by decide +kernel)).1) 0x10040 false (by decide +kernel) (by decide +kernel))⟩,
   ⟨_, (((((h rq2 545 xrq2 17 (by decide +kernel) (by decide +kernel)).1) qA (by decide +kernel) (by decide +kernel) (by decide +kernel) (by decide +kernel) (by decide +kernel) (by decide +kernel) (by decide +kernel)).1) 0x10040 false (by decide +kernel) (by decide +kernel))⟩,
   ⟨_, (((((h rq3 545 xrq3 17 (by decide +kernel) (by decide +kernel)).1) qA (by decide +kernel) (by decide +kernel) (by decide +kernel) (by decide +kernel) (by decide +kernel) (by decide +kernel) (by decide +kernel)).2.1) (by decide +kernel))⟩,
   ran ((((((h rqf 545 xrqf 17 (by decide +kernel) (by decide +kernel)).1) (rqf.parts.val 0 {}) (by decide +kernel) (by decide +kernel) (by decide +kernel) (by decide +kernel) (by decide +kernel) (by decide +kernel) (by decide +kernel)).2.2.1) 1 (by decide +kernel) (by decide +kernel) (by decide +kernel) (by decide +kernel))),
   ran ((((((h rqt 545 xrqt 17 (by decide +kernel) (by decide +kernel)).1) (rqt.parts.val 0 {}) (by decide +kernel) (by decide +kernel) (by decide +kernel) (by decide +kernel) (by decide +kernel) (by decide +kernel) (by decide +kernel)).2.2.1) 2 (by decide +kernel) (by decide +kernel) (by decide +kernel) (by decide +kernel))),
   ran ((((((h rqp 545 xrqp 17 (by decide +kernel) (by decide +kernel)).1) (rqp.parts.val 0 {}) (by decide +kernel) (by decide +kernel) (by decide +kernel) (by decide +kernel) (by decide +kernel) (by decide +kernel) (by decide +kernel)).2.2.2) tj (by decide +kernel) (by decide +kernel) (by decide +kernel) (by decide +kernel))),
   ran ((((((((h rs1 545 xrs1 17 (by decide +kernel) (by decide +kernel)).2) (by decide +kernel)).1) (by decide +kernel) (by decide +kernel) (by decide +kernel) (by decide +kernel) ([0#8,0x66#8] ++ zeros 62) false false (by decide +kernel)).1) (by decide +kernel))),
   ran ((((((((h rs2 545 xrs2 17 (by decide +kernel) (by decide +kernel)).2) (by decide +kernel)).1) (by decide +kernel) (by decide +kernel) (by decide +kernel) (by decide +kernel) ([0#8,0x66#8] ++ zeros 62) false false (by decide +kernel)).2.1) (by decide +kernel) (by decide +kernel) (by decide +kernel))),
   ran ((((((((h rs3 545 xrs3 17 (by decide +kernel) (by decide +kernel)).2) (by decide +kernel)).1) (by decide +kernel) (by decide +kernel) (by decide +kernel) (by decide +kernel) (zeros 64) true true (by decide +kernel)).2.2) (by decide +kernel) (by decide +kernel) (by decide +kernel) (by decide +kernel))),
   ran (((((h rs3 545 xrs3 17 (by decide +kernel) (by decide +kernel)).2) (by decide +kernel)).2.1)),
   ran (((((((h rs3 545 xrs3 17 (by decide +kernel) (by decide +kernel)).2) (by decide +kernel)).2.2) tj (by decide +kernel) (by decide +kernel)).1)),
   ran (((((((h rs3 545 xrs3 17 (by decide +kernel) (by decide +kernel)).2) (by decide +kernel)).2.2) tj (by decide +kernel) (by decide +kernel)).2.1)),
   ran ((((((((h rs3 545 xrs3 17 (by decide +kernel) (by decide +kernel)).2) (by decide +kernel)).2.2) tj (by decide +kernel) (by decide +kernel)).2.2) (by decide +kernel)))⟩

theorem wit_HoldsPagesAndStackEvents : Obligations.HoldsPagesAndStackEvents →
    Ran (.pageTableUpdate 0 131072 15#64) pkA ∧
    Ran (.pageTableUpdate 0 131072 0#64) pkA ∧
    Ran (.holdRepaired 0) hr ∧
    Ran (.holdLimit 0) hlm ∧
    Ran (.stackChannelFail 0) busy ∧
    Ran (.stackChannelFail 127) busy ∧
    Ran (.stackRefresh 0) busy ∧
    Ran (.stackRefresh 127) busy ∧
    Ran (.storeCePeriodEnd 3) hce := fun h =>
  ⟨⟨_, (((h pkA).1) 0 qA 0x20000 0x4000 0x0F#64 (by decide +kernel) (by decide +kernel) (by decide +kernel) (by decide +kernel))⟩,
   ⟨_, (((h pkA).1) 0 qA 0x20000 0x4000 0#64 (by decide +kernel) (by decide +kernel) (by decide +kernel) (by decide +kernel))⟩,
   ran ((((h hr).2.1) 0 qh 2000000 (by decide +kernel) (by decide +kernel) (by decide +kernel) (by decide +kernel))),
   ran ((((h hlm).2.2.1) 0 qhl 2000000 (by decide +kernel) (by decide +kernel) (by decide +kernel))),
   ran ((((h busy).2.2.2.1) 0 (by decide +kernel) (by decide +kernel) (by decide +kernel))),
   ran ((((h busy).2.2.2.1) 127 (by decide +kernel) (by decide +kernel) (by decide +kernel))),
   ⟨_, (((h busy).2.2.2.2.1) 0 (by decide +kernel) (by decide +kernel) (by decide +kernel))⟩,
   ⟨_, (((h busy).2.2.2.2.1) 127 (by decide +kernel) (by decide +kernel) (by decide +kernel))⟩,
   ⟨_, (((h hce).2.2.2.2.2) 3 (by decide +kernel))⟩⟩

theorem wit_UnplannedRequestsAtTiles : Obligations.UnplannedRequestsAtTiles →
    Ran (.ucWrite { dest := 33, src := 664, tag := 77, addr := 256, data := [1, 2, 3, 4, 5], poison := [8] }) uc ∧
    Ran (.ucWrite { dest := 33, src := 664, tag := 77, addr := 2097150, data := [1, 2] }) uc ∧
    Ran (.ucRead { dest := 33, src := 512, tag := 77, part := 0, addr := 256, count := 8 }) uc ∧
    Ran (.ucRead { dest := 33, src := 664, tag := 77, addr := 256, count := 8 }) uc ∧
    Ran (.ucSemInc { dest := 33, src := 656, tag := 77, addr := 3, count := 15 }) uc ∧
    Ran (.ucChanMsg { dest := 33, src := 658, tag := 77, addr := 5, data := zeros 64 }) uc ∧
    Ran (.ucChanCredit { dest := 33, src := 658, tag := 77, addr := 5 }) uc ∧
    Ran (.ucCfgRead { dest := 33, src := 664, tag := 77, addr := 88 }) uc ∧
    Ran (.ucCfgWrite { dest := 33, src := 664, tag := 77, addr := 88, inl := [3, 0, 0, 0] }) uc ∧
    Ran (.ucWrite { dest := 33, src := 673, tag := 77, addr := 256, data := [1] }) uc ∧
    Ran (.ucWrite { dest := 33, src := 664, tag := 77, addr := 8, count := 1, inl := [1, 0, 0, 0] }) ucd ∧
    Ran (.ucRead { dest := 33, src := 664, tag := 77, addr := 8, count := 1, inl := [1, 0, 0, 0] }) ucd ∧
    Ran (.ucSemInc { dest := 33, src := 664, tag := 77, addr := 8, count := 1, inl := [1, 0, 0, 0] }) ucd ∧
    Ran (.ucChanCredit { dest := 33, src := 664, tag := 77, addr := 8, count := 1, inl := [1, 0, 0, 0] }) ucd ∧
    Ran (.ucCfgRead { dest := 33, src := 664, tag := 77, addr := 8, count := 1, inl := [1, 0, 0, 0] }) ucd ∧
    Ran (.ucCfgWrite { dest := 33, src := 664, tag := 77, addr := 8, count := 1, inl := [1, 0, 0, 0] }) ucd ∧
    Ran (.ucWrite { dest := 33, src := 664, tag := 77, addr := 8, count := 1, inl := [1, 0, 0, 0] }) ucx ∧
    Ran (.ucRead { dest := 33, src := 664, tag := 77, addr := 8, count := 1, inl := [1, 0, 0, 0] }) ucx ∧
    Ran (.ucSemInc { dest := 33, src := 664, tag := 77, addr := 8, count := 1, inl := [1, 0, 0, 0] }) ucx ∧
    Ran (.ucChanCredit { dest := 33, src := 664, tag := 77, addr := 8, count := 1, inl := [1, 0, 0, 0] }) ucx ∧
    Ran (.ucCfgRead { dest := 33, src := 664, tag := 77, addr := 8, count := 1, inl := [1, 0, 0, 0] }) ucx ∧
    Ran (.ucCfgWrite { dest := 33, src := 664, tag := 77, addr := 8, count := 1, inl := [1, 0, 0, 0] }) ucx := fun h =>
  ⟨ran ((((((h uc { dest := 33, tag := 77, src := 0x298, addr := 0x100, data := [1,2,3,4,5], poison := [8] } 17 (by decide +kernel) (by decide +kernel) (by decide +kernel) (by decide +kernel) (by decide +kernel) (by decide +kernel)).1) (by decide +kernel) (by decide +kernel)).1) (by decide +kernel) (by decide +kernel))),
   ran ((((((h uc { dest := 33, tag := 77, src := 0x298, addr := 0x1FFFFE, data := [1,2] } 17 (by decide +kernel) (by decide +kernel) (by decide +kernel) (by decide +kernel) (by decide +kernel) (by decide +kernel)).1) (by decide +kernel) (by decide +kernel)).1) (by decide +kernel) (by decide +kernel))),
   ran ((((((h uc { dest := 33, tag := 77, src := 0x200, part := 0, addr := 0x100, count := 8 } 17 (by decide +kernel) (by decide +kernel) (by decide +kernel) (by decide +kernel) (by decide +kernel) (by decide +kernel)).1) (by decide +kernel) (by decide +kernel)).2.1) (by decide +kernel) (by decide +kernel))),
   ran ((((((h uc { dest := 33, tag := 77, src := 0x298, addr := 0x100, count := 8 } 17 (by decide +kernel) (by decide +kernel) (by decide +kernel) (by decide +kernel) (by decide +kernel) (by decide +kernel)).1) (by decide +kernel) (by decide +kernel)).2.1) (by decide +kernel) (by decide +kernel))),
   ran ((((((h uc { dest := 33, tag := 77, src := 0x290, addr := 3, count := 15 } 17 (by decide +kernel) (by decide +kernel) (by decide +kernel) (by decide +kernel) (by decide +kernel) (by decide +kernel)).1) (by decide +kernel) (by decide +kernel)).2.2.1) (by decide +kernel) (by decide +kernel) (by decide +kernel))),
   ran ((((((h uc { dest := 33, tag := 77, src := 0x292, addr := 5, data := zeros 64 } 17 (by decide +kernel) (by decide +kernel) (by decide +kernel) (by decide +kernel) (by decide +kernel) (by decide +kernel)).1) (by decide +kernel) (by decide +kernel)).2.2.2.1) (by decide +kernel) (by decide +kernel) (by decide +kernel))),
   ran ((((((h uc { dest := 33, tag := 77, src := 0x292, addr := 5 } 17 (by decide +kernel) (by decide +kernel) (by decide +kernel) (by decide +kernel) (by decide +kernel) (by decide +kernel)).1) (by decide +kernel) (by decide +kernel)).2.2.2.2.1) { conf := true, slotBase := 0x400, slotCount := 4, credits := 4, avail := 1, returning := 1, queue := [(0x400, 3)] } (by decide +kernel))),
   ran ((((((h uc { dest := 33, tag := 77, src := 0x298, addr := 88 } 17 (by decide +kernel) (by decide +kernel) (by decide +kernel) (by decide +kernel) (by decide +kernel) (by decide +kernel)).1) (by decide +kernel) (by decide +kernel)).2.2.2.2.2.1) (by decide +kernel))),
   ran ((((((h uc { dest := 33, tag := 77, src := 0x298, addr := 88, inl := [3,0,0,0] } 17 (by decide +kernel) (by decide +kernel) (by decide +kernel) (by decide +kernel) (by decide +kernel) (by decide +kernel)).1) (by decide +kernel) (by decide +kernel)).2.2.2.2.2.2.1) (by decide +kernel))),
   ran ((((((h uc { dest := 33, tag := 77, src := 0x2A1, addr := 0x100, data := [1] } 17 (by decide +kernel) (by decide +kernel) (by decide +kernel) (by decide +kernel) (by decide +kernel) (by decide +kernel)).1) (by decide +kernel) (by decide +kernel)).2.2.2.2.2.2.2) (by decide +kernel))),
   ran (((((h ucd { dest := 33, tag := 77, src := 0x298, addr := 8, count := 1, inl := [1,0,0,0] } 17 (by decide +kernel) (by decide +kernel) (by decide +kernel) (by decide +kernel) (by decide +kernel) (by decide +kernel)).2) (by decide +kernel)).1)),
   ran (((((h ucd { dest := 33, tag := 77, src := 0x298, addr := 8, count := 1, inl := [1,0,0,0] } 17 (by decide +kernel) (by decide +kernel) (by decide +kernel) (by decide +kernel) (by decide +kernel) (by decide +kernel)).2) (by decide +kernel)).2.1)),
   ran (((((h ucd { dest := 33, tag := 77, src := 0x298, addr := 8, count := 1, inl := [1,0,0,0] } 17 (by decide +kernel) (by decide +kernel) (by decide +kernel) (by decide +kernel) (by decide +kernel) (by decide +kernel)).2) (by decide +kernel)).2.2.1)),
   ran (((((h ucd { dest := 33, tag := 77, src := 0x298, addr := 8, count := 1, inl := [1,0,0,0] } 17 (by decide +kernel) (by decide +kernel) (by decide +kernel) (by decide +kernel) (by decide +kernel) (by decide +kernel)).2) (by decide +kernel)).2.2.2.1)),
   ran (((((h ucd { dest := 33, tag := 77, src := 0x298, addr := 8, count := 1, inl := [1,0,0,0] } 17 (by decide +kernel) (by decide +kernel) (by decide +kernel) (by decide +kernel) (by decide +kernel) (by decide +kernel)).2) (by decide +kernel)).2.2.2.2.1)),
   ran (((((h ucd { dest := 33, tag := 77, src := 0x298, addr := 8, count := 1, inl := [1,0,0,0] } 17 (by decide +kernel) (by decide +kernel) (by decide +kernel) (by decide +kernel) (by decide +kernel) (by decide +kernel)).2) (by decide +kernel)).2.2.2.2.2)),
   ran (((((h ucx { dest := 33, tag := 77, src := 0x298, addr := 8, count := 1, inl := [1,0,0,0] } 17 (by decide +kernel) (by decide +kernel) (by decide +kernel) (by decide +kernel) (by decide +kernel) (by decide +kernel)).2) (by decide +kernel)).1)),
   ran (((((h ucx { dest := 33, tag := 77, src := 0x298, addr := 8, count := 1, inl := [1,0,0,0] } 17 (by decide +kernel) (by decide +kernel) (by decide +kernel) (by decide +kernel) (by decide +kernel) (by decide +kernel)).2) (by decide +kernel)).2.1)),
   ran (((((h ucx { dest := 33, tag := 77, src := 0x298, addr := 8, count := 1, inl := [1,0,0,0] } 17 (by decide +kernel) (by decide +kernel) (by decide +kernel) (by decide +kernel) (by decide +kernel) (by decide +kernel)).2) (by decide +kernel)).2.2.1)),
   ran (((((h ucx { dest := 33, tag := 77, src := 0x298, addr := 8, count := 1, inl := [1,0,0,0] } 17 (by decide +kernel) (by decide +kernel) (by decide +kernel) (by decide +kernel) (by decide +kernel) (by decide +kernel)).2) (by decide +kernel)).2.2.2.1)),
   ran (((((h ucx { dest := 33, tag := 77, src := 0x298, addr := 8, count := 1, inl := [1,0,0,0] } 17 (by decide +kernel) (by decide +kernel) (by decide +kernel) (by decide +kernel) (by decide +kernel) (by decide +kernel)).2) (by decide +kernel)).2.2.2.2.1)),
   ran (((((h ucx { dest := 33, tag := 77, src := 0x298, addr := 8, count := 1, inl := [1,0,0,0] } 17 (by decide +kernel) (by decide +kernel) (by decide +kernel) (by decide +kernel) (by decide +kernel) (by decide +kernel)).2) (by decide +kernel)).2.2.2.2.2))⟩

theorem wit_UnplannedResponses : Obligations.UnplannedResponses →
    Ran (.ucAck { tag := 5 }) ur ∧
    Ran (.ucReadData { tag := 5 }) ur ∧
    Ran (.ucCfgData { tag := 6 }) ur ∧
    Ran (.ucNack { tag := 5 }) ur ∧
    Ran (.ucNack { tag := 9 }) ur ∧
    Ran .halfLinkDown ur := fun h =>
  ⟨ran ((((h ur { tag := 5 }).1) { typ := 7, tag := 5, src := 0x280 } { tile := 18, pkt := { typ := 1, src := 0x280, tag := 5 } } (by decide +kernel) (by decide +kernel) (by decide +kernel) (by decide +kernel))),
   ran ((((h ur { tag := 5 }).2.1) { typ := 3, tag := 5, src := 0x298, data := [1] } (by decide +kernel))),
   ran ((((h ur { tag := 6 }).2.2.1) { typ := 0xB, tag := 6, src := 0x298 } (by decide +kernel))),
   ran ((((h ur { tag := 5 }).2.2.2.1) { typ := 8, tag := 5, src := 0x280, part := 0, nack := 1 } qA (by decide +kernel) (by decide +kernel) (by decide +kernel) (by decide +kernel) (by decide +kernel))),
   ran ((((h ur { tag := 9 }).2.2.2.2.1) { typ := 8, tag := 9, src := 0x200, job := 0, nack := 1 } { tj with state := 1 } (by decide +kernel) (by decide +kernel) (by decide +kernel) (by decide +kernel) (by decide +kernel))),
   ran ((((h ur { tag := 9 }).2.2.2.2.2) (by decide +kernel) (by decide +kernel)))⟩

end Steps

namespace FabricAndSolvers

def fsb : State := { rdy with clk := { rdy.clk with phase := 605 }, fresh := 0 }
def fidle : State := { fsb with ports := [(3, { state := 3, owed := 130, slot := 10 })] }
def fidleM : State := { fsb with ports := [(3, { state := 4, owed := 5 })] }
def fr1 : Frame := { typ := 6, src := 1 }
def fframe : State := { fsb with ports := [(3, { state := 3, owed := 130, credits := 1, queue := [(8, fr1)] })] }
def fpaid : State := { fsb with ports := [(3, { state := 3, owed := 3, credits := 4, queue := [(0, fr1)] })], parts := [(0, { qA with regs := [(3, { rate := 4, burst := 1, bucket := 32 })] })] }
def funpaid : State := { fsb with ports := [(3, { state := 3, owed := 3, credits := 4, queue := [(0, fr1)] })], parts := [(0, { qA with regs := [(3, { rate := 4, burst := 1, bucket := 31 })] })] }
def fsilent : State := { fsb with ports := [(3, { state := 4 })], parts := [(0, { qA with season := some { seA with flags := 2, own := [{ month := 0, first := 9, slots := 3, port := 3, flow := 7, bytes := 4100, dva := 0x100 }, { month := 0, first := 500, slots := 2, port := 3, recv := true, flow := 9, bytes := 4100, dva := 0x100 }], monthsPerStep := 2, lags := [] } })], jobs := [(0, { tj with state := 3 })] }
def fplanned : State := { fsb with ports := [(3, { state := 4 })], parts := [(0, { qA with season := some { seA with flags := 2, own := [{ month := 0, first := 9, slots := 3, port := 3, flow := 7, bytes := 4100, dva := 0x100 }, { month := 0, first := 500, slots := 2, port := 3, recv := true, flow := 9, bytes := 4100, dva := 0x100 }], monthsPerStep := 2, lags := [] } })], jobs := [(0, tj)] }
def frcv : State := { fsb with ports := [(3, { state := 3, credits := 500, sentUncred := 7, ce := 0xFFFE })] }
def frp : State := { fsb with ports := [(3, { state := 4, sentUncred := 7 })], parts := [(0, { qA with season := some { seA with flags := 2, own := [{ month := 0, first := 9, slots := 3, port := 3, flow := 7, bytes := 4100, dva := 0x100 }, { month := 0, first := 500, slots := 2, port := 3, recv := true, flow := 9, bytes := 4100, dva := 0x100 }], monthsPerStep := 2, lags := [] } })], jobs := [(0, tj)] }
def almA : Alm := { state := 2, device := 5, domain := 77, root := true, upstream := 15, members := [5], sems := [(2051, 8)], grants := [(2051, { device := 9, signal := true, read := true }), (2052, { any := true, read := true })], sigs := [(44, { fn := 3, target := 2, tag := 8, gen := 4 })] }
def fa : State := { pkA with qps := [], alm := almA, ports := [(3, { state := 4, peer := 9, chanDelay := some 2000000 })], fns := [(3, { vA with targets := [(2, { kind := 1, acked := 5 })] })] }
def fa3 : State := { fa with ports := [(3, { state := 3, peer := 9, chanDelay := some 2000000 })] }
def ain200 : State := { pkA with alm := { state := 2, upstream := 3, hops := 5, domain := 77, skewMax := 9 }, ports := [(3, { state := 4, peerDomain := some 77, hops := 4 }), (4, { state := 4, peerDomain := some 77, hops := 2 })], clk := { rdy.clk with months := 2000 } }
def ain201 : State := { pkA with alm := { state := 2, upstream := 3, hops := 5, domain := 77, skewMax := 9 }, ports := [(3, { state := 4, peerDomain := some 77, hops := 4 }), (4, { state := 4, peerDomain := some 77, hops := 2 })], clk := { rdy.clk with months := 2000 }, parts := [(0, { qA with season := some { seA with flags := 2 } })] }
def aback : State := { pkA with alm := { state := 3, upstream := 3, hops := 5, domain := 77, skewMax := 9 }, ports := [(3, { state := 4, peerDomain := some 77, hops := 4 }), (4, { state := 4, peerDomain := some 77, hops := 2 })], clk := { rdy.clk with months := 2000 } }
def aalign : State := { pkA with alm := { state := 1, numbered := true, locked := true, joinOp := some (9, 1990), upstream := 3, hops := 5, domain := 77, skewMax := 9 }, ports := [(3, { state := 4, peerDomain := some 77, hops := 4 }), (4, { state := 4, peerDomain := some 77, hops := 2 })], clk := { rdy.clk with months := 2000 }, mail := { State.reset.mail with ops := [{ op := 9, opcode := 0x903 }] } }
def amiss : State := { pkA with alm := { state := 2, upstream := 3, hops := 5, domain := 77, skewMax := 9, lastEq := 1488 }, ports := [(3, { state := 4, peerDomain := some 77, hops := 4 }), (4, { state := 4, peerDomain := some 77, hops := 2 })], clk := { rdy.clk with months := 2000 } }
def aadr : State := { pkA with alm := { state := 2, upstream := 3, hops := 5, domain := 77, skewMax := 9, lastEq := 976 }, ports := [(3, { state := 4, peerDomain := some 77, hops := 4 }), (4, { state := 4, peerDomain := some 77, hops := 2 })], clk := { rdy.clk with months := 2000 }, parts := [(0, { qA with season := some { seA with flags := 2 } })] }
def alock : State := { pkA with alm := { state := 1, numbered := true, upstream := 3, hops := 5, domain := 77, skewMax := 9 }, ports := [(3, { state := 4, peerDomain := some 77, hops := 4 }), (4, { state := 4, peerDomain := some 77, hops := 2 })], clk := { rdy.clk with months := 2000 } }
def amb : State := { pkA with clk := { rdy.clk with phase := 61440 } }
def pocall : State := { rdy with ports := [(3, { state := 1 }), (4, { state := 3 })], clk := { rdy.clk with tick := 100000 + 8000*3 + 96000 } }
def pocall5 : State := { rdy with ports := [(3, { state := 5, call := true }), (4, { state := 3 })], clk := { rdy.clk with tick := 100000 + 8000*3 + 96000 } }
def ponowin : State := { rdy with ports := [(3, { state := 1 }), (4, { state := 3 })] }
def potto : State := { rdy with ports := [(3, { state := 2, trainAt := 1000 }), (4, { state := 3 })], clk := { rdy.clk with tick := 501000 } }
def poup : State := { rdy with ports := [(3, { state := 2, credits := 3 }), (4, { state := 3 })], clk := { rdy.clk with tick := 100000 + 8000*3 + 96000 } }
def podown : State := { rdy with ports := [(3, { state := 4, peerDomain := some 3 }), (4, { state := 3 })], clk := { rdy.clk with tick := 100000 + 8000*3 + 96000 } }
def podown2 : State := { rdy with ports := [(3, { state := 2 }), (4, { state := 3 })], clk := { rdy.clk with tick := 100000 + 8000*3 + 96000 } }
def skI : Bytes := fit 64 (le 2 1 ++ le 1 1 ++ le 1 0 ++ le 2 1) ++ fit 96 (le 1 0xFF ++ le 1 1 ++ le 1 1) ++ zeros 32
def skA : Skeleton := { used := true, reuse := 7, fn := 3, gen := 4, sid := 11, part := 0, blocks := 1, image := skI }
def rq0 : UcPacket := { typ := 5, dest := 0x8041, src := 0x280, tag := 5, part := 0, job := 5, addr := 0, data := fit 64 (le 4 (3 + 16384*7) ++ le 1 2 ++ le 1 1 ++ le 2 4 ++ le 4 0 ++ le 2 0 ++ le 2 12) ++ (le 8 1 ++ zeros 4) }
def sv1 : State := { pkA with pkts := [(7, { qp := 49, gen := 4, hdr := ph 0x21 0 1 11 0 0 [], taken := true })], qps := [(49, { state := 1 })], solvers := [(0, { skels := [(3, skA)] })], hl := { state := 2, reqs := [(5, { tile := 0, chan := 4, pkt := rq0 })] }, jobs := [(5, { part := 0, entry := 2, solver := true, state := 2 })] }
def pba : Problem := { skel := 3, pkt := some 7, fn := 3, gen := 4, lc := true, method := 1, iters := 0, delta := le 8 1 ++ zeros 4 }
def sv2a : State := { pkA with pkts := [(7, { qp := 49, gen := 4, hdr := ph 0x21 0 1 11 0 0 [], taken := true })], qps := [(49, { state := 1 })], solvers := [(0, { skels := [(3, { skA with queue := [pba, {}] })] })], jobs := [(5, { part := 0, entry := 2, solver := true, state := 2 })] }
def pbb : Problem := { skel := 3, pkt := some 7, fn := 3, gen := 4, lc := false, method := 2, iters := 4, delta := le 8 1 ++ zeros 4 }
def sv2b : State := { pkA with pkts := [(7, { qp := 49, gen := 4, hdr := ph 0x21 0 1 11 0 0 [], taken := true })], qps := [(49, { state := 1 })], solvers := [(0, { skels := [(3, { skA with queue := [pbb, {}] })] })], jobs := [(5, { part := 0, entry := 2, solver := true, state := 2 })] }
def sv2j : State := { pkA with pkts := [(7, { qp := 49, gen := 4, hdr := ph 0x21 0 1 11 0 0 [], taken := true })], qps := [(49, { state := 1 })], solvers := [(0, { skels := [(3, { skA with queue := [pba, {}] })] })], jobs := [] }
def sv2d : State := { pkA with pkts := [(7, { qp := 49, gen := 4, hdr := ph 0x21 0 1 11 0 0 [], taken := true })], qps := [(49, { state := 1 })], solvers := [(0, { skels := [(3, { skA with queue := [pba, {}] })] })], parts := [(0, { qA with draining := true })], jobs := [(5, { part := 0, entry := 2, solver := true, state := 2 })] }
def ud0 : Problem := { pba with engine := 2, unitAt := 2000000, delivered := false, method := 2, iters := 4 }
def sud0 : State := { pkA with pkts := [(7, { qp := 49, gen := 4, hdr := ph 0x21 0 1 11 0 0 [], taken := true })], qps := [(49, { state := 1 })], solvers := [(0, { skels := [(3, skA)], ctxs := [(9, ud0)], busy := [(2, 9)] })], jobs := [(5, { part := 0, entry := 2, solver := true, state := 2 })] }
def uit : Problem := { pba with engine := 2, unitAt := 2000000, delivered := true, method := 2, iters := 4, unit := 2 }
def suit : State := { pkA with pkts := [(7, { qp := 49, gen := 4, hdr := ph 0x21 0 1 11 0 0 [], taken := true })], qps := [(49, { state := 1 })], solvers := [(0, { skels := [(3, skA)], ctxs := [(9, uit)], busy := [(2, 9)] })], jobs := [(5, { part := 0, entry := 2, solver := true, state := 2 })] }
def ulast : Problem := { pba with engine := 2, unitAt := 2000000, delivered := true, method := 2, iters := 4, unit := 4 }
def sulast : State := { pkA with pkts := [(7, { qp := 49, gen := 4, hdr := ph 0x21 0 1 11 0 0 [], taken := true })], qps := [(49, { state := 1 })], solvers := [(0, { skels := [(3, skA)], ctxs := [(9, ulast)], busy := [(2, 9)] })], jobs := [(5, { part := 0, entry := 2, solver := true, state := 2 })] }
def uexact : Problem := { pba with engine := 2, unitAt := 2000000, delivered := true, method := 1, iters := 0, unit := 0 }
def suexact : State := { pkA with pkts := [(7, { qp := 49, gen := 4, hdr := ph 0x21 0 1 11 0 0 [], taken := true })], qps := [(49, { state := 1 })], solvers := [(0, { skels := [(3, skA)], ctxs := [(9, uexact)], busy := [(2, 9)] })], jobs := [(5, { part := 0, entry := 2, solver := true, state := 2 })] }
def upoi : Problem := { pba with engine := 2, unitAt := 2000000, delivered := false, method := 2, iters := 4 }
def supoi : State := { pkA with pkts := [(7, { qp := 49, gen := 4, hdr := ph 0x21 0 1 11 0 0 [], taken := true })], qps := [(49, { state := 1 })], solvers := [(0, { skels := [(3, skA)], ctxs := [(9, upoi)], busy := [(2, 9)] })], jobs := [(5, { part := 0, entry := 2, solver := true, state := 2 })] }
def uhang : Problem := { pba with engine := 2, unitAt := 2000000, delivered := true, method := 2, iters := 4 }
def suhang : State := { pkA with pkts := [(7, { qp := 49, gen := 4, hdr := ph 0x21 0 1 11 0 0 [], taken := true })], qps := [(49, { state := 1 })], solvers := [(0, { skels := [(3, skA)], ctxs := [(9, uhang)], busy := [(2, 9)] })], jobs := [(5, { part := 0, entry := 2, solver := true, state := 2 })] }
def udead : Problem := { pba with engine := 2, unitAt := 2000000, delivered := true, method := 2, iters := 4, unit := 1, deadline := some 3000000 }
def sudead : State := { pkA with pkts := [(7, { qp := 49, gen := 4, hdr := ph 0x21 0 1 11 0 0 [], taken := true })], qps := [(49, { state := 1 })], solvers := [(0, { skels := [(3, skA)], ctxs := [(9, udead)], busy := [(2, 9)] })], jobs := [(5, { part := 0, entry := 2, solver := true, state := 2 })] }
def icedge0 : State := { rdy with intcs := [(1, { srcs := [(srcKey 1 0, { enable := true, edge := true })] })] }
def iclost0 : State := { rdy with intcs := [(1, { srcs := [(srcKey 1 0, { enable := true, edge := true })], service := [(1,0)] })] }
def iclv0 : State := { rdy with intcs := [(1, { srcs := [(srcKey 1 0, { enable := true, target := 1 })] })] }
def iclvc0 : State := { rdy with intcs := [(1, { srcs := [(srcKey 1 0, { enable := true, target := 1, input := true, reclaims := 3 })] })] }
def icsrc0_0 : State := { rdy with intcs := [(1, { srcs := [(srcKey 1 0, { enable := true, edge := true, pend := true, lost := true, masked := true })] })] }
def icedge70 : State := { rdy with intcs := [(1, { srcs := [(srcKey 1 70, { enable := true, edge := true })] })] }
def iclost70 : State := { rdy with intcs := [(1, { srcs := [(srcKey 1 70, { enable := true, edge := true })], service := [(1,70)] })] }
def iclv70 : State := { rdy with intcs := [(1, { srcs := [(srcKey 1 70, { enable := true, target := 1 })] })] }
def iclvc70 : State := { rdy with intcs := [(1, { srcs := [(srcKey 1 70, { enable := true, target := 1, input := true, reclaims := 3 })] })] }
def icsrc70_0x307 : State := { rdy with intcs := [(1, { srcs := [(srcKey 1 70, { enable := true, edge := true, pend := true, lost := true, masked := true })] })] }
def icc : Intc := { srcs := [(srcKey 1 3, { enable := true, edge := true, pend := true }), (srcKey 0 70, { enable := true, edge := false, input := true, target := 1 })], lostCount := 9, spurious := [(1,4)] }
def ica : State := { rdy with intcs := [(1, icc)] }
def icb : State := { rdy with intcs := [(1, { icc with srcs := [] })] }
def icd3 : State := { rdy with intcs := [(1, { icc with service := [(1,3)] })] }
def icd70 : State := { rdy with intcs := [(1, { icc with service := [(1,70)] })] }
def ich : State := { rdy with intcs := [(1, { icc with remain := [(4,1)] })] }
def icw : State := { rdy with pwr := { state := 0 }, intcs := [(1, { srcs := [(srcKey 0 70, { enable := true, wake := true })] })] }

theorem wit_FabricSlots : Obligations.FabricSlots →
    Ran (.slotSend 3 true) fidle ∧
    Ran (.slotSend 3 false) fidleM ∧
    Ran (.slotSend 3 true) fframe ∧
    Ran (.slotSend 3 true) fpaid ∧
    Ran (.slotSend 3 true) funpaid ∧
    Ran (.slotSend 3 true) fsilent ∧
    Ran (.slotSend 3 true) fplanned ∧
    Ran (.slotReceive 3 { kind := 2, credits := 9, ce := 4, ue := 2 }) frcv ∧
    Ran (.slotReceive 3 { credits := 9, checkOk := false, ce := 4, ue := 2 }) frcv ∧
    Ran (.slotReceive 3 { slot := 501, kind := 0, flow := 9, bytes := 100, payload := zeros 100 }) frp := fun h =>
  ⟨ran ((((((((h fidle 3 (by decide +kernel) (by decide +kernel)).1) (by decide +kernel) (by decide +kernel) (by decide +kernel)).1) (by decide +kernel)).1) true (by decide +kernel))),
   ran ((((((((h fidleM 3 (by decide +kernel) (by decide +kernel)).1) (by decide +kernel) (by decide +kernel) (by decide +kernel)).1) (by decide +kernel)).1) false (by decide +kernel))),
   ran ((((((((h fframe 3 (by decide +kernel) (by decide +kernel)).1) (by decide +kernel) (by decide +kernel) (by decide +kernel)).1) (by decide +kernel)).2.1) true 8 fr1 (by decide +kernel) (by decide +kernel) (by decide +kernel) (by decide +kernel))),
   ran ((((((((h fpaid 3 (by decide +kernel) (by decide +kernel)).1) (by decide +kernel) (by decide +kernel) (by decide +kernel)).1) (by decide +kernel)).2.1) true 0 fr1 (by decide +kernel) (by decide +kernel) (by decide +kernel) (by decide +kernel))),
   ran ((((((((h funpaid 3 (by decide +kernel) (by decide +kernel)).1) (by decide +kernel) (by decide +kernel) (by decide +kernel)).1) (by decide +kernel)).2.2) true 0 fr1 (by decide +kernel) (by decide +kernel) (by decide +kernel))),
   ran ((((((((h fsilent 3 (by decide +kernel) (by decide +kernel)).1) (by decide +kernel) (by decide +kernel) (by decide +kernel)).2) 0 { month := 0, first := 9, slots := 3, port := 3, flow := 7, bytes := 4100, dva := 0x100 } (by decide +kernel) (by decide +kernel)).1) true (by decide +kernel))),
   ran ((((((((h fplanned 3 (by decide +kernel) (by decide +kernel)).1) (by decide +kernel) (by decide +kernel) (by decide +kernel)).2) 0 { month := 0, first := 9, slots := 3, port := 3, flow := 7, bytes := 4100, dva := 0x100 } (by decide +kernel) (by decide +kernel)).2) (fplanned.parts.val 0 {}) (zeros 100) false (by decide +kernel) (by decide +kernel) (by decide +kernel))),
   ran ((((((h frcv 3 (by decide +kernel) (by decide +kernel)).2) { kind := 2, ce := 4, ue := 2, credits := 9 }).1) (by decide +kernel))),
   ran ((((((h frcv 3 (by decide +kernel) (by decide +kernel)).2) { kind := 3, ce := 4, ue := 2, credits := 9, checkOk := false }).1) (by decide +kernel))),
   ran ((((((h frp 3 (by decide +kernel) (by decide +kernel)).2) { kind := 0, slot := 501, flow := 9, bytes := 100, payload := zeros 100 }).2) 0 0 { month := 0, first := 500, slots := 2, port := 3, recv := true, flow := 9, bytes := 4100, dva := 0x100 } tj (by decide +kernel) (by decide +kernel) (by decide +kernel) (by decide +kernel) (by decide +kernel)))⟩

theorem wit_FabricFrames : Obligations.FabricFrames →
    Ran (.signalFrame 3 { typ := 1, src := 9, dst := 5, half := 1, sem := 3, seq := 6, value := 4 }) fa ∧
    Ran (.signalFrame 3 { typ := 1, src := 8, dst := 5, half := 1, sem := 3, seq := 6, value := 4 }) fa ∧
    Ran (.signalFrame 3 { typ := 1, src := 8, dst := 5, half := 1, sem := 4, seq := 6, value := 4 }) fa ∧
    Ran (.signalAck 3 { typ := 2, src := 9, dst := 5, seq := 44 }) fa ∧
    Ran (.semRead 3 { typ := 3, src := 9, dst := 5, half := 1, sem := 3, seq := 6 }) fa ∧
    Ran (.semRead 3 { typ := 3, src := 8, dst := 5, half := 1, sem := 3, seq := 6 }) fa ∧
    Ran (.semData 3 { typ := 4, src := 8, dst := 5, half := 1, sem := 3, seq := 6 }) fa ∧
    Ran (.almCtrl 3 { typ := 5, src := 8, value := 4 + 256 * 77, aux := 3 + 4096 * 2 }) fa ∧
    Ran (.almCtrl 3 { typ := 5, hops := 2, src := 8, value := 1 + 256 * 77 }) fa ∧
    Ran (.delayReq 3 { typ := 6, src := 8, seq := 9, aux := 5 }) fa ∧
    Ran (.delayRsp 3 { typ := 7, src := 8, seq := 9, aux := 5 }) fa ∧
    Ran (.delayReq 3 { typ := 6, src := 8, seq := 9, aux := 5 }) fa3 ∧
    Ran (.almCtrl 3 { typ := 5, hops := 2, src := 8, value := 1 + 256 * 77 }) fa3 := fun h =>
  ⟨ran ((((((h fa 3 { typ := 1, dst := 5, src := 9, half := 1, sem := 3, value := 4, seq := 6 } (by decide +kernel) (by decide +kernel)).1) (by decide +kernel) (by decide +kernel)).1) (by decide +kernel) (by decide +kernel))),
   ran ((((((h fa 3 { typ := 1, dst := 5, src := 8, half := 1, sem := 3, value := 4, seq := 6 } (by decide +kernel) (by decide +kernel)).1) (by decide +kernel) (by decide +kernel)).2) (by decide +kernel))),
   ran ((((((h fa 3 { typ := 1, dst := 5, src := 8, half := 1, sem := 4, value := 4, seq := 6 } (by decide +kernel) (by decide +kernel)).1) (by decide +kernel) (by decide +kernel)).2) (by decide +kernel))),
   ran ((((h fa 3 { typ := 2, dst := 5, src := 9, seq := 44 } (by decide +kernel) (by decide +kernel)).2.1) { fn := 3, target := 2, tag := 8, gen := 4 } (by decide +kernel) (by decide +kernel) (by decide +kernel) (by decide +kernel) (by decide +kernel) (by decide +kernel))),
   ran ((((h fa 3 { typ := 3, dst := 5, src := 9, half := 1, sem := 3, seq := 6 } (by decide +kernel) (by decide +kernel)).2.2.1) (by decide +kernel) (by decide +kernel))),
   ran ((((h fa 3 { typ := 3, dst := 5, src := 8, half := 1, sem := 3, seq := 6 } (by decide +kernel) (by decide +kernel)).2.2.1) (by decide +kernel) (by decide +kernel))),
   ⟨_, (((h fa 3 { typ := 4, dst := 5, src := 8, half := 1, sem := 3, seq := 6 } (by decide +kernel) (by decide +kernel)).2.2.2.1) (by decide +kernel) (by decide +kernel))⟩,
   ran ((((h fa 3 { typ := 5, src := 8, value := 4 + 256 * 77, aux := 3 + 4096 * 2 } (by decide +kernel) (by decide +kernel)).2.2.2.2.1) (by decide +kernel) (by decide +kernel))),
   ran ((((h fa 3 { typ := 5, src := 8, value := 1 + 256 * 77, hops := 2 } (by decide +kernel) (by decide +kernel)).2.2.2.2.2.1) 0 (by decide +kernel) (by decide +kernel) (by decide +kernel) (by decide +kernel) (by decide +kernel) (by decide +kernel) (by decide +kernel))),
   ran ((((h fa 3 { typ := 6, src := 8, seq := 9, aux := 5 } (by decide +kernel) (by decide +kernel)).2.2.2.2.2.2.1) (by decide +kernel))),
   ran ((((h fa 3 { typ := 7, src := 8, seq := 9, aux := 5 } (by decide +kernel) (by decide +kernel)).2.2.2.2.2.2.2) 2000000 (by decide +kernel) (by decide +kernel))),
   ran ((((h fa3 3 { typ := 6, src := 8, seq := 9, aux := 5 } (by decide +kernel) (by decide +kernel)).2.2.2.2.2.2.1) (by decide +kernel))),
   ran ((((h fa3 3 { typ := 5, src := 8, value := 1 + 256 * 77, hops := 2 } (by decide +kernel) (by decide +kernel)).2.2.2.2.2.1) 0 (by decide +kernel) (by decide +kernel) (by decide +kernel) (by decide +kernel) (by decide +kernel) (by decide +kernel) (by decide +kernel)))⟩

theorem wit_AlmanacAndMonths : Obligations.AlmanacAndMonths →
    Ran (.equinox (-200) 7) ain200 ∧
    Ran (.equinox 201 7) ain201 ∧
    Ran (.equinox 100 7) aback ∧
    Ran (.equinox 100 7) aalign ∧
    Ran .equinoxMissed amiss ∧
    Ran .adrift aadr ∧
    Ran .frequencyLock alock ∧
    Ran .monthBoundary amb := fun h =>
  ⟨⟨_, (((((h ain200).1) (-200) 7 (by decide +kernel) (by decide +kernel) (by decide +kernel)).1) (by decide +kernel) (by decide +kernel))⟩,
   ran ((((((h ain201).1) (201) 7 (by decide +kernel) (by decide +kernel) (by decide +kernel)).2.1) (by decide +kernel) (by decide +kernel))),
   ran ((((((h aback).1) (100) 7 (by decide +kernel) (by decide +kernel) (by decide +kernel)).2.2.1) (by decide +kernel) (by decide +kernel) (by decide +kernel))),
   ran ((((((h aalign).1) (100) 7 (by decide +kernel) (by decide +kernel) (by decide +kernel)).2.2.2) 9 1990 (by decide +kernel) (by decide +kernel) (by decide +kernel) (by decide +kernel) (by decide +kernel))),
   ran ((((h amiss).2.1) 4 (by decide +kernel) (by decide +kernel) (by decide +kernel) (by decide +kernel))),
   ran ((((h aadr).2.2.1) (by decide +kernel) (by decide +kernel) (by decide +kernel))),
   ⟨_, (((h alock).2.2.2.1) (by decide +kernel) (by decide +kernel) (by decide +kernel) (by decide +kernel))⟩,
   ran ((((h amb).2.2.2.2) (by decide +kernel) (by decide +kernel) (by decide +kernel)))⟩

theorem wit_PortsComeUpAndGoDown : Obligations.PortsComeUpAndGoDown →
    Ran (.partnerCall 3) pocall ∧
    Ran (.answerWindow 3) pocall5 ∧
    Ran (.partnerCall 3) ponowin ∧
    Ran (.trainingTimeout 3) potto ∧
    Ran (.portUp 3 1048577 true) poup ∧
    Ran (.portDown 3) podown ∧
    Ran (.portDown 3) podown2 := fun h =>
  ⟨⟨_, ((((h pocall 3).1) (by decide +kernel) (by decide +kernel) (by decide +kernel) (by decide +kernel) (by decide +kernel)).1)⟩,
   ⟨_, (((((h pocall5 3).1) (by decide +kernel) (by decide +kernel) (by decide +kernel) (by decide +kernel) (by decide +kernel)).2) (by decide +kernel))⟩,
   ⟨_, (((h ponowin 3).2.1) (by decide +kernel))⟩,
   ⟨_, (((h potto 3).2.2.1) (by decide +kernel) (by decide +kernel))⟩,
   ran ((((h poup 3).2.2.2.1) 1048577 true (by decide +kernel) (by decide +kernel))),
   ran ((((h podown 3).2.2.2.2) (by decide +kernel))),
   ran ((((h podown2 3).2.2.2.2) (by decide +kernel)))⟩

theorem wit_SolversRunProblems : Obligations.SolversRunProblems →
    Ran (.tileSolverRequest { src := 640, tag := 5 }) sv1 ∧
    Ran (.problemStart 0) sv2a ∧
    Ran (.problemStart 0) sv2b ∧
    Ran (.problemStart 0) sv2j ∧
    Ran (.problemStart 0) sv2d ∧
    Ran (.solverUnit 0 9 none) sud0 ∧
    Ran (.solverUnit 0 9 none) suit ∧
    Ran (.solverUnit 0 9 none) sulast ∧
    Ran (.solverUnit 0 9 none) suexact ∧
    Ran (.solverUnit 0 9 (some 0)) supoi ∧
    Ran (.solverHang 0 9) suhang ∧
    Ran (.solverDeadline 0 9) sudead := fun h =>
  ⟨ran ((((h sv1 0).1) { tag := 5, src := 0x280 } { tile := 0, chan := 4, pkt := rq0 } (by decide +kernel) (by decide +kernel) (by decide +kernel) (by decide +kernel) (by decide +kernel) (by decide +kernel) (by decide +kernel) (by decide +kernel) (by decide +kernel) (by decide +kernel) (by decide +kernel) (by decide +kernel) (by decide +kernel) (by decide +kernel) (by decide +kernel) (by decide +kernel) (by decide +kernel) (by decide +kernel) (by decide +kernel) (by decide +kernel) (by decide +kernel) (by decide +kernel) (by decide +kernel) (by decide +kernel))),
   ran ((((((h sv2a 0).2.1) 0 3 pba (by decide +kernel) (by decide +kernel)).1) (by decide +kernel))),
   ran ((((((h sv2b 0).2.1) 0 3 pbb (by decide +kernel) (by decide +kernel)).1) (by decide +kernel))),
   ran ((((((h sv2j 0).2.1) 0 3 pba (by decide +kernel) (by decide +kernel)).2) (stJobLost,1) 7 (by decide +kernel) (by decide +kernel))),
   ran ((((((h sv2d 0).2.1) 0 3 pba (by decide +kernel) (by decide +kernel)).2) (stDraining,1) 7 (by decide +kernel) (by decide +kernel))),
   ran ((((((((h sud0 0).2.2) 9 ud0 (by decide +kernel)).1) (by decide +kernel) (by decide +kernel)).1) (by decide +kernel))),
   ran ((((((((h suit 0).2.2) 9 uit (by decide +kernel)).1) (by decide +kernel) (by decide +kernel)).2.1) (by decide +kernel) (by decide +kernel) (by decide +kernel) (by decide +kernel) (by decide +kernel))),
   ran ((((((((h sulast 0).2.2) 9 ulast (by decide +kernel)).1) (by decide +kernel) (by decide +kernel)).2.2.1) 7 (by decide +kernel) (by decide +kernel) (by decide +kernel) (by decide +kernel) (by decide +kernel) (by decide +kernel))),
   ran ((((((((h suexact 0).2.2) 9 uexact (by decide +kernel)).1) (by decide +kernel) (by decide +kernel)).2.2.1) 7 (by decide +kernel) (by decide +kernel) (by decide +kernel) (by decide +kernel) (by decide +kernel) (by decide +kernel))),
   ran ((((((((h supoi 0).2.2) 9 upoi (by decide +kernel)).1) (by decide +kernel) (by decide +kernel)).2.2.2.1) 7 0 (by decide +kernel) (by decide +kernel) (by decide +kernel))),
   ran ((((((((h suhang 0).2.2) 9 uhang (by decide +kernel)).1) (by decide +kernel) (by decide +kernel)).2.2.2.2) (by decide +kernel) (by decide +kernel))),
   ran ((((((h sudead 0).2.2) 9 udead (by decide +kernel)).2) 7 3000000 (by decide +kernel) (by decide +kernel) (by decide +kernel) (by decide +kernel) (by decide +kernel)))⟩

theorem wit_InterruptControllers : Obligations.InterruptControllers →
    Ran (.sourceEdge 1 1 0) icedge0 ∧
    Ran (.sourceEdge 1 1 0) iclost0 ∧
    Ran (.levelInputChange 1 1 0 true) iclv0 ∧
    Ran (.levelInputChange 1 1 0 false) iclvc0 ∧
    Ran (.intcSrc 1 1 0 0#32) icsrc0_0 ∧
    Ran (.sourceEdge 1 1 70) icedge70 ∧
    Ran (.sourceEdge 1 1 70) iclost70 ∧
    Ran (.levelInputChange 1 1 70 true) iclv70 ∧
    Ran (.levelInputChange 1 1 70 false) iclvc70 ∧
    Ran (.intcSrc 1 1 70 775#32) icsrc70_0x307 ∧
    Ran (.intcClaim 1 1) ica ∧
    Ran (.intcClaim 1 1) icb ∧
    Ran (.intcClaim 1 1) icd3 ∧
    Ran (.intcComplete 1 1 9) icd3 ∧
    Ran (.intcClaim 1 1) icd70 ∧
    Ran (.intcComplete 1 1 9) icd70 ∧
    Ran (.intcComplete 1 1 3) icd3 ∧
    Ran (.intcLostCountRead 1) ica ∧
    Ran (.intcSpuriousRead 1 1) ica ∧
    Ran (.holdoffEnd 1 4) ich ∧
    Ran (.wakeLatch 1 70) icw ∧
    Ran (.intcParityError 1) rdy ∧
    Ran (.intcParityError 0) rdy := fun h =>
  ⟨⟨_, (((((((h icedge0 1 1).1) 0 (by decide +kernel) (by decide +kernel)).1) (by decide +kernel) (by decide +kernel) (by decide +kernel)).1) (by decide +kernel))⟩,
   ⟨_, (((((((h iclost0 1 1).1) 0 (by decide +kernel) (by decide +kernel)).1) (by decide +kernel) (by decide +kernel) (by decide +kernel)).2) (by decide +kernel))⟩,
   ⟨_, (((((h iclv0 1 1).1) 0 (by decide +kernel) (by decide +kernel)).2.1) (by decide +kernel))⟩,
   ⟨_, (((((h iclvc0 1 1).1) 0 (by decide +kernel) (by decide +kernel)).2.2.1) (by decide +kernel) (by decide +kernel))⟩,
   ran ((((((h icsrc0_0 1 1).1) 0 (by decide +kernel) (by decide +kernel)).2.2.2) 0#32)),
   ⟨_, (((((((h icedge70 1 1).1) 70 (by decide +kernel) (by decide +kernel)).1) (by decide +kernel) (by decide +kernel) (by decide +kernel)).1) (by decide +kernel))⟩,
   ⟨_, (((((((h iclost70 1 1).1) 70 (by decide +kernel) (by decide +kernel)).1) (by decide +kernel) (by decide +kernel) (by decide +kernel)).2) (by decide +kernel))⟩,
   ⟨_, (((((h iclv70 1 1).1) 70 (by decide +kernel) (by decide +kernel)).2.1) (by decide +kernel))⟩,
   ⟨_, (((((h iclvc70 1 1).1) 70 (by decide +kernel) (by decide +kernel)).2.2.1) (by decide +kernel) (by decide +kernel))⟩,
   ran ((((((h icsrc70_0x307 1 1).1) 70 (by decide +kernel) (by decide +kernel)).2.2.2) 0x307#32)),
   ran ((((((h ica 1 1).2.1) (by decide +kernel) (by decide +kernel) (by decide +kernel)).1) 3 (by decide +kernel) (by decide +kernel))),
   ran ((((((h icb 1 1).2.1) (by decide +kernel) (by decide +kernel) (by decide +kernel)).2.1) (by decide +kernel) (by decide +kernel))),
   ran ((((((h icd3 1 1).2.1) (by decide +kernel) (by decide +kernel) (by decide +kernel)).2.2.1) 3 (by decide +kernel))),
   ran ((((((h icd3 1 1).2.1) (by decide +kernel) (by decide +kernel) (by decide +kernel)).2.2.2.2.1) 9 (by decide +kernel))),
   ran ((((((h icd70 1 1).2.1) (by decide +kernel) (by decide +kernel) (by decide +kernel)).2.2.1) 70 (by decide +kernel))),
   ran ((((((h icd70 1 1).2.1) (by decide +kernel) (by decide +kernel) (by decide +kernel)).2.2.2.2.1) 9 (by decide +kernel))),
   ⟨_, (((((h icd3 1 1).2.1) (by decide +kernel) (by decide +kernel) (by decide +kernel)).2.2.2.1) 3 (by decide +kernel) (by decide +kernel))⟩,
   ⟨_, ((((h ica 1 1).2.1) (by decide +kernel) (by decide +kernel) (by decide +kernel)).2.2.2.2.2.1)⟩,
   ran (((((h ica 1 1).2.1) (by decide +kernel) (by decide +kernel) (by decide +kernel)).2.2.2.2.2.2)),
   ⟨_, (((h ich 1 0).2.2.1) 4 (by decide +kernel))⟩,
   ran ((((h icw 1 0).2.2.2.1) 70 (by decide +kernel) (by decide +kernel) (by decide +kernel) (by decide +kernel) (by decide +kernel) (by decide +kernel))),
   ran ((((h rdy 1 0).2.2.2.2) (by decide +kernel) (by decide +kernel) (by decide +kernel) (by decide +kernel))),
   ran ((((h rdy 0 0).2.2.2.2) (by decide +kernel) (by decide +kernel) (by decide +kernel) (by decide +kernel)))⟩

end FabricAndSolvers

namespace Health

def seS : Season := { seA with fracMax := 4, shadow := [0, 1], pairs := [(0, 1), (2, 3)] }
def qS : Part := { qA with season := some seS, fraction := 3, compares := 5 }
def bS : Job := { tj with step := 4, layer := 1 }
def shA : State := { pkA with parts := [(0, qS)], jobs := [(0, bS)], tiles := [(0, { power := 1, digest := [(32, 7)] }), (1, { power := 1, digest := [(16, 7)] })] }
def shB : State := { shA with tiles := [(0, { power := 1, digest := [(32, 7)] }), (1, { power := 1, digest := [(16, 8)] })] }
def bS0 : Job := { tj with step := 4, layer := 0 }
def shC2 : State := { shB with jobs := [(0, bS0)] }
def pr : State := { busy with parts := [], tiles := [(20, { power := 0 }), (21, { power := 0 })], health := [(20, { state := 1 }), (3, { state := 2 })], probes := [{ op := 9, tiles := [(21, 2), (22, 2)], pkg := 0, seed := 55, tick := 1000 }], jobs := [] }
def rr : ProbeRound := { pkg := 0, cycles := 4096, start := 2990000, c1 := 22, c2 := 23 }
def pe : State := { pr with tiles := [(20, { power := 0, probe := some rr })], health := [(20, { state := 0 }), (22, { state := 1, fails := 0 })] }
def rro : ProbeRound := { rr with op := some 9 }
def peo : State := { pe with tiles := [(20, { power := 0, probe := some rro })] }
def pr3 : State := { pr with health := [(20, { state := 3 })], probes := [] }
def oo : ProbeOp := { op := 9, tiles := [(21, 2), (22, 2)], pkg := 0, seed := 55, tick := 1000 }
def pt : State := { pr with clk := { rdy.clk with tick := 10001000 }, mail := { State.reset.mail with ops := [{ op := 9, opcode := 0x603 }] } }
def ot : State := { busy with health := [(20, { state := 1, nextTest := 2000, interval := 10, fails := 1, periodEnd := 2000 })] }
def ot2 : State := { ot with health := [(20, { state := 1, nextTest := 2000, interval := 10, fails := 2, periodEnd := 2000 })] }
def hb : State := { busy with pwr := { rdy.pwr with beats := [(0,65535),(1,5),(2,6),(3,7)], beatSeen := [(0,1),(1,2),(2,6),(3,3)], missed := [(2,3),(1,1)] }, clk := { rdy.clk with tick := 16000 } }
def hb2 : State := { hb with pwr := { hb.pwr with stallTicks := [3, 4] } }
def cr : State := { hb with ladder := { cpRestart := [(1, 3000)] }, mail := { State.reset.mail with boxes := [(0, { state := 1, rsp := [1,2] }), (1, { state := 1, taken := some [1] })] }, clk := { rdy.clk with tick := 203000 } }
def rsd : State := { hb with ladder := { resetDue := some 16000 } }
def mq : State := { hb with mail := { State.reset.mail with mgmtWait := some (0x101, 6000), boxes := [(5, { state := 1, taken := some [1,1,5] })] } }
def bk : Job := { tj with state := 4, killStatus := 8, killDetail := 3, killOp := some 9, killAt := 1000 }
def kl : State := { pkA with jobs := [(0, bk), (3, { part := 0, entry := 1 })], tiles := [(0, { power := 1, job := some 0, ctx := [(0, {}), (1, {})] })], mail := { State.reset.mail with ops := [{ op := 9, opcode := 0x403 }] }, clk := { rdy.clk with tick := 51000 } }
def qR : Part := { qA with resetting := true, cols := [0, 2], resetAt := 1000 }
def re : State := { kl with parts := [(0, qR)], tiles := [(0, { power := 1, store := [(3,4)], regs := [(1,2)] }), (20, { power := 1, store := [(3,4)] })], jobs := [(0, bk)] }
def qD : Part := { qA with drain := some (2000, 0), runJob := none }
def dg : State := { pkA with parts := [(0, qD)] }
def wg : State := { pkA with parts := [(0, { qA with svcs := [(0, { svcA with withdrawn := true, grace := some (2000, 9) }), (1, svcB)] })], pkts := [(5, { qp := 49, gen := 4, hdr := ph 0x12 0 1 9 (33+16384*5) 0 (le 2 3) })], qps := [(49, { state := 1 })], mail := { State.reset.mail with ops := [{ op := 9, opcode := 0x504 }] }, seqs := [] }
def cap : State := { pkA with ladder := { capture := some { mask := 7, trigger := 1, op := some 9 }, logSeq := 5 }, mail := { State.reset.mail with ops := [{ op := 9, opcode := 0x701 }] } }
def img1 : Mem := Mem.write (Mem.write (Mem.write (Mem.write [] 0 (le 4 0x53414553 ++ le 2 1 ++ le 2 3 ++ zeros 20 ++ le 4 1 ++ le 4 100 ++ zeros 28 ++ (le 2 5 ++ zeros 2 ++ le 4 0x80 ++ le 8 48) ++ (le 2 7 ++ zeros 2 ++ le 4 0xB0 ++ le 8 24) ++ (le 2 8 ++ zeros 2 ++ le 4 0x100 ++ le 8 64))) 0x80 (le 2 1 ++ zeros 14 ++ le 1 4 ++ zeros 15 ++ le 8 0x10000)) 0xB0 (le 2 0 ++ le 2 2 ++ zeros 12 ++ le 4 50 ++ le 4 100)) 0x140 (le 4 0x4B505457 ++ le 2 1 ++ zeros 2 ++ le 8 192 ++ zeros 8 ++ le 4 65536 ++ le 2 1 ++ zeros 2 ++ [1#8, 2#8])
def ldI : Load := { part := 0, bytes := 512, img := img1, got := List.range 8, key := true, setDigest := Mem.read img1 0x160 48, op := 9 }
def ins : State := { pkA with parts := [(0, { cols := [0], chans := [0], loading := some 5 })], jobs := [], loads := [(5, ldI)], mail := { State.reset.mail with ops := [{ op := 9, opcode := 0x301 }] } }
def tu : State := { busy with jobs := [], sec := { State.reset.sec with turnover := some 9, sessions := [(1,5)], unlocked := true }, fns := [(3, { vA with tdi := 2 })], tiles := [(0, { tx with store := [(4,4)] })] }

theorem wit_ShadowsProbesAndObservation : Obligations.ShadowsProbesAndObservation →
    Ran (.shadowCompare 0) shA ∧
    Ran (.shadowCompare 0) shB ∧
    Ran (.shadowCompare 0) shC2 ∧
    Ran (.probeRoundStart 20 0) pr ∧
    Ran (.probeRoundStart 21 0) pr ∧
    Ran (.probeRoundEnd 20 5#64 5#64 5#64) pe ∧
    Ran (.probeRoundEnd 20 6#64 5#64 5#64) pe ∧
    Ran (.probeRoundEnd 20 5#64 6#64 5#64) pe ∧
    Ran (.probeRoundEnd 20 5#64 5#64 6#64) pe ∧
    Ran (.probeRoundEnd 20 5#64 6#64 7#64) pe ∧
    Ran (.probeRoundTimeout 20) pe ∧
    Ran (.probeRoundTimeout 20) peo ∧
    Ran (.probeRoundStart 20 0) pr3 ∧
    Ran (.probeTimeout oo.op) pt ∧
    Ran (.observationTest 20 true false) ot ∧
    Ran (.observationTest 20 false true) ot ∧
    Ran (.observationTest 20 false false) ot ∧
    Ran (.observationTest 20 true true) ot ∧
    Ran (.observationTest 20 true true) ot2 ∧
    Ran (.observationPeriodEnd 20) ot2 := fun h =>
  ⟨⟨_, (((((h shA).1) 0 bS qS seS 0 (by decide +kernel) (by decide +kernel) (by decide +kernel) (by decide +kernel) (by decide +kernel) (by decide +kernel) (by decide +kernel) (by decide +kernel)).1) (by decide +kernel))⟩,
   ran ((((((h shB).1) 0 bS qS seS 0 (by decide +kernel) (by decide +kernel) (by decide +kernel) (by decide +kernel) (by decide +kernel) (by decide +kernel) (by decide +kernel) (by decide +kernel)).2) (by decide +kernel))),
   ran ((((((h shC2).1) 0 bS0 qS seS 1 (by decide +kernel) (by decide +kernel) (by decide +kernel) (by decide +kernel) (by decide +kernel) (by decide +kernel) (by decide +kernel) (by decide +kernel)).2) (by decide +kernel))),
   ⟨_, (((h pr).2.1) 20 0 4096 0 (by decide +kernel) (by decide +kernel) (by decide +kernel) (by decide +kernel))⟩,
   ⟨_, (((h pr).2.2.1) 21 0 4096 0 { op := 9, tiles := [(21, 2), (22, 2)], pkg := 0, seed := 55, tick := 1000 } (by decide +kernel) (by decide +kernel) (by decide +kernel) (by decide +kernel) (by decide +kernel) (by decide +kernel) (by decide +kernel))⟩,
   ran ((((((h pe).2.2.2.1) 20 rr 5#64 6#64 7#64 (by decide +kernel) (by decide +kernel) (by decide +kernel) (by decide +kernel) (by decide +kernel) (by decide +kernel)) (by decide +kernel) (by decide +kernel)).1)),
   ran ((((((h pe).2.2.2.1) 20 rr 5#64 6#64 7#64 (by decide +kernel) (by decide +kernel) (by decide +kernel) (by decide +kernel) (by decide +kernel) (by decide +kernel)) (by decide +kernel) (by decide +kernel)).2.1)),
   ran ((((((h pe).2.2.2.1) 20 rr 5#64 6#64 7#64 (by decide +kernel) (by decide +kernel) (by decide +kernel) (by decide +kernel) (by decide +kernel) (by decide +kernel)) (by decide +kernel) (by decide +kernel)).2.2.1)),
   ran ((((((h pe).2.2.2.1) 20 rr 5#64 6#64 7#64 (by decide +kernel) (by decide +kernel) (by decide +kernel) (by decide +kernel) (by decide +kernel) (by decide +kernel)) (by decide +kernel) (by decide +kernel)).2.2.2.1)),
   ran (((((((h pe).2.2.2.1) 20 rr 5#64 6#64 7#64 (by decide +kernel) (by decide +kernel) (by decide +kernel) (by decide +kernel) (by decide +kernel) (by decide +kernel)) (by decide +kernel) (by decide +kernel)).2.2.2.2) (by decide +kernel) (by decide +kernel))),
   ran ((((h pe).2.2.2.2.1) 20 rr (by decide +kernel) (by decide +kernel) (by decide +kernel))),
   ran ((((h peo).2.2.2.2.1) 20 rro (by decide +kernel) (by decide +kernel) (by decide +kernel))),
   ⟨_, (((h pr3).2.1) 20 0 4096 0 (by decide +kernel) (by decide +kernel) (by decide +kernel) (by decide +kernel))⟩,
   ran ((((h pt).2.2.2.2.2.1) oo (by decide +kernel) (by decide +kernel) (by decide +kernel) (by decide +kernel))),
   ⟨_, ((((((h ot).2.2.2.2.2.2) 20 (by decide +kernel)).1) (by decide +kernel)).1)⟩,
   ⟨_, (((((((h ot).2.2.2.2.2.2) 20 (by decide +kernel)).1) (by decide +kernel)).2.1) true)⟩,
   ⟨_, (((((((h ot).2.2.2.2.2.2) 20 (by decide +kernel)).1) (by decide +kernel)).2.1) false)⟩,
   ran ((((((((h ot).2.2.2.2.2.2) 20 (by decide +kernel)).1) (by decide +kernel)).2.2.1) (by decide +kernel))),
   ran ((((((((h ot2).2.2.2.2.2.2) 20 (by decide +kernel)).1) (by decide +kernel)).2.2.2) (by decide +kernel))),
   ran ((((((h ot2).2.2.2.2.2.2) 20 (by decide +kernel)).2) (by decide +kernel) (by decide +kernel)))⟩

theorem wit_HeartbeatsAndDeviceResets : Obligations.HeartbeatsAndDeviceResets →
    Ran (.heartbeat 0) hb ∧
    Ran (.heartbeat 3) hb ∧
    Ran .heartbeatCheck hb ∧
    Ran .heartbeatCheck hb ∧
    Ran .heartbeatCheck hb ∧
    Ran .heartbeatCheck hb2 ∧
    Ran (.cpRestartEnd 1) cr ∧
    Ran (.cpRestartTimeout 1) cr ∧
    Ran .spWatchdog hb ∧
    Ran (.warmDeviceReset 1 0 0) rsd ∧
    Ran (.mgmtQueueTimeout 257) mq := fun h =>
  ⟨⟨_, (((h hb).1) 0 (by decide +kernel) (by decide +kernel) (by decide +kernel) (by decide +kernel))⟩,
   ⟨_, (((h hb).1) 3 (by decide +kernel) (by decide +kernel) (by decide +kernel) (by decide +kernel))⟩,
   ran ((((((h hb).2.1) (by decide +kernel) (by decide +kernel) (by decide +kernel) (by decide +kernel)).1) 0 (by decide +kernel))),
   ran ((((((h hb).2.1) (by decide +kernel) (by decide +kernel) (by decide +kernel) (by decide +kernel)).1) 3 (by decide +kernel))),
   ran ((((((((h hb).2.1) (by decide +kernel) (by decide +kernel) (by decide +kernel) (by decide +kernel)).2) 2 (by decide +kernel) (by decide +kernel) (by decide +kernel) (by decide +kernel) (by decide +kernel) (by decide +kernel)).1) (by decide +kernel))),
   ran ((((((((h hb2).2.1) (by decide +kernel) (by decide +kernel) (by decide +kernel) (by decide +kernel)).2) 2 (by decide +kernel) (by decide +kernel) (by decide +kernel) (by decide +kernel) (by decide +kernel) (by decide +kernel)).2) 3 4 (by decide +kernel) (by decide +kernel) (by decide +kernel))),
   ran (((((h cr).2.2.1) 1 3000 (by decide +kernel)).1)),
   ran ((((((h cr).2.2.1) 1 3000 (by decide +kernel)).2) (by decide +kernel) (by decide +kernel))),
   ran ((((h hb).2.2.2.1) (by decide +kernel))),
   ran ((((h rsd).2.2.2.2.1) 16000 0 0 (by decide +kernel) (by decide +kernel) (by decide +kernel))),
   ran ((((h mq).2.2.2.2.2) 0x101 6000 [1,1,5] (by decide +kernel) (by decide +kernel) (by decide +kernel) (by decide +kernel)))⟩

theorem wit_KillsResetsInstallsAndTurnovers : Obligations.KillsResetsInstallsAndTurnovers →
    Ran (.jobKillComplete 0) kl ∧
    Ran (.killEscalation 0) kl ∧
    Ran (.partitionResetEnd 0) re ∧
    Ran (.partitionResetTimeout 0) re ∧
    Ran (.drainGraceExpiry 0) dg ∧
    Ran (.serviceWithdrawGrace 9) wg ∧
    Ran .dumpCaptureEnd cap ∧
    Ran (.seasonInstall 5 { sigOk := false }) ins ∧
    Ran (.seasonInstall 5 { tagsOk := false }) ins ∧
    Ran (.seasonInstall 5 { }) ins ∧
    Ran (.turnoverComplete true []) tu := fun h =>
  ⟨ran ((((((h kl).1) 0 bk qA (by decide +kernel) (by decide +kernel) (by decide +kernel) (by decide +kernel)).1) (by decide +kernel) (by decide +kernel) (by decide +kernel))),
   ran ((((((h kl).1) 0 bk qA (by decide +kernel) (by decide +kernel) (by decide +kernel) (by decide +kernel)).2) (by decide +kernel) (by decide +kernel) (by decide +kernel))),
   ran ((((((h re).2.1) 0 qR (by decide +kernel) (by decide +kernel)).1) (by decide +kernel) (by decide +kernel) (by decide +kernel) (by decide +kernel))),
   ran ((((((h re).2.1) 0 qR (by decide +kernel) (by decide +kernel)).2) (by decide +kernel) (by decide +kernel) (by decide +kernel) (by decide +kernel))),
   ran ((((h dg).2.2.1) 0 qD 2000 0 (by decide +kernel) (by decide +kernel) (by decide +kernel) (by decide +kernel) (by decide +kernel))),
   ran ((((h wg).2.2.2.1) 9 0 0 2000 9 (by decide +kernel) (by decide +kernel) (by decide +kernel) (by decide +kernel) (by decide +kernel))),
   ran ((((h cap).2.2.2.2.1) { mask := 7, trigger := 1, op := some 9 } (by decide +kernel))),
   ran ((((((h ins).2.2.2.2.2.1) 5 ldI { cols := [0], chans := [0], loading := some 5 } { sigOk := false } (by decide +kernel) (by decide +kernel) (by decide +kernel) (by decide +kernel) (by decide +kernel)).1) 3 (by decide +kernel))),
   ran ((((((((h ins).2.2.2.2.2.1) 5 ldI { cols := [0], chans := [0], loading := some 5 } { tagsOk := false } (by decide +kernel) (by decide +kernel) (by decide +kernel) (by decide +kernel) (by decide +kernel)).2) (by decide +kernel) (by decide +kernel)).1) (by decide +kernel))),
   ran ((((((((h ins).2.2.2.2.2.1) 5 ldI { cols := [0], chans := [0], loading := some 5 } {} (by decide +kernel) (by decide +kernel) (by decide +kernel) (by decide +kernel) (by decide +kernel)).2) (by decide +kernel) (by decide +kernel)).2) (by decide +kernel) (by decide +kernel) (by decide +kernel) (by decide +kernel))),
   ran ((((h tu).2.2.2.2.2.2) 9 (by decide +kernel) (by decide +kernel) (by decide +kernel) (by decide +kernel)))⟩

end Health

namespace DeviceCommands

def bz : State := { busy with parts := [], jobs := [] }
def r1 : Bytes := rq 0x101 0 (zeros 0)
def v2 : State := srv bz (.pf 0) r1
def r5 : Bytes := rq 0x101 0 (zeros 0)
def v6 : State := srv bz (.vf 3) r5
def r7 : Bytes := rq 0x102 0 (zeros 0)
def v8 : State := srv bz (.pf 0) r7
def r9 : Bytes := rq 0x102 0 (zeros 0)
def v10 : State := srv bz .mgmt r9
def r11 : Bytes := rq 0x103 0 (zeros 0 ++ zeros 0 ++ le 1 0)
def v12 : State := srv bz (.pf 0) r11
def r13 : Bytes := rq 0x103 1 (zeros 0 ++ zeros 0 ++ le 1 1)
def v14 : State := srv bz (.pf 0) r13
def r15 : Bytes := rq 0x104 0 (zeros 0 ++ zeros 0 ++ le 1 2)
def v16 : State := srv busy (.pf 0) r15
def r17 : Bytes := rq 0x104 1 (zeros 0 ++ zeros 0 ++ le 1 0 ++ zeros 3 ++ le 4 60000)
def v18 : State := srv busy (.pf 0) r17
def r19 : Bytes := rq 0x104 0 (zeros 0 ++ zeros 0 ++ le 1 0)
def v20 : State := srv pkA .mgmt r19
def opz : State := { bz with mail := { State.reset.mail with ops := [{ op := 9, opcode := 0x603 }, { op := 10, opcode := 0x603, done := true, rc := 0x107, detail := 4 }] } }
def r21 : Bytes := rq 0x105 0 (zeros 0 ++ zeros 0 ++ le 2 8)
def v22 : State := srv opz (.pf 0) r21
def r23 : Bytes := rq 0x105 0 (zeros 0 ++ zeros 0 ++ le 2 9)
def v24 : State := srv opz (.pf 0) r23
def r25 : Bytes := rq 0x105 0 (zeros 0 ++ zeros 0 ++ le 2 10)
def v26 : State := srv opz .mgmt r25
def r27 : Bytes := rq 0x106 0 (zeros 0 ++ zeros 0 ++ le 4 8190)
def v28 : State := srv bz (.pf 0) r27
def r31 : Bytes := rq 0x106 0 (zeros 0 ++ zeros 0 ++ le 4 8190)
def v32 : State := srv bz .mgmt r31
def r33 : Bytes := rq 0x107 0 (zeros 0)
def v34 : State := srv bz (.pf 0) r33
def r35 : Bytes := rq 0x201 0 (zeros 0 ++ zeros 0 ++ le 2 65535)
def v36 : State := srv pkA (.pf 0) r35
def r39 : Bytes := rq 0x201 0 (zeros 0 ++ zeros 0 ++ le 2 9)
def v40 : State := srv pkA (.pf 0) r39
def r41 : Bytes := rq 0x201 0 (zeros 0 ++ zeros 0 ++ le 2 65535)
def v42 : State := srv pkA (.vf 3) r41
def r43 : Bytes := rq 0x201 0 (zeros 0 ++ zeros 0 ++ le 2 511)
def v44 : State := srv pkA (.pf 0) r43
def r45 : Bytes := rq 0x202 0 (zeros 0 ++ zeros 0 ++ le 2 9 ++ zeros 0 ++ le 2 1)
def v46 : State := srv bz (.pf 0) r45
def r47 : Bytes := rq 0x202 0 (zeros 0 ++ zeros 0 ++ le 2 3 ++ zeros 0 ++ le 2 1)
def v48 : State := srv bz (.pf 0) r47
def bzu : State := { bz with fns := [(512, { state := 2, gen := 1 }), (3, { state := 1, gen := 4, quotas := { vec := 1 } }), (5, { state := 3, quotas := { qp := 1, vec := 2 }, deferred := some { qp := 2 } })] }
def r55 : Bytes := rq 0x202 1 (zeros 0 ++ zeros 0 ++ le 2 3 ++ zeros 2 ++ le 4 3 ++ zeros 0 ++ le 4 4 ++ zeros 0 ++ le 4 4294967295 ++ zeros 0 ++ le 4 4096 ++ zeros 0 ++ le 4 4294967295 ++ zeros 0 ++ le 4 0 ++ zeros 0 ++ le 4 128 ++ zeros 0 ++ le 4 4294967295)
def v56 : State := srv bzu (.pf 0) r55
def r57 : Bytes := rq 0x202 1 (zeros 0 ++ zeros 0 ++ le 2 5 ++ zeros 2 ++ le 4 3 ++ zeros 0 ++ le 4 4 ++ zeros 0 ++ le 4 4294967295 ++ zeros 0 ++ le 4 4096 ++ zeros 0 ++ le 4 4294967295 ++ zeros 0 ++ le 4 0 ++ zeros 0 ++ le 4 128 ++ zeros 0 ++ le 4 4294967295)
def v58 : State := srv bzu (.pf 0) r57
def r59 : Bytes := rq 0x203 0 (zeros 0 ++ zeros 0 ++ le 2 9)
def v60 : State := srv bz (.pf 0) r59
def r61 : Bytes := rq 0x203 1 (zeros 0 ++ zeros 0 ++ le 2 3 ++ zeros 0 ++ le 1 1)
def v62 : State := srv bz (.pf 0) r61
def r65 : Bytes := rq 0x203 1 (zeros 0 ++ zeros 0 ++ le 2 3 ++ zeros 0 ++ le 1 1)
def v66 : State := srv bzu (.pf 0) r65
def r67 : Bytes := rq 0x501 0 (zeros 0 ++ zeros 0 ++ le 2 1)
def v68 : State := srv pkA (.pf 0) r67
def r71 : Bytes := rq 0x501 1 (zeros 0 ++ zeros 0 ++ le 2 0 ++ zeros 0 ++ le 2 2)
def v72 : State := srv pkA (.pf 0) r71
def qcB : State := { pkA with qps := [(49, { state := 1, sqLog := 6, cqLog := 6 }), (8193, { state := 1, bulk := true })] }
def r73 : Bytes := rq 0x502 0 (zeros 0 ++ zeros 0 ++ le 2 65535 ++ zeros 0 ++ le 1 0 ++ zeros 0 ++ le 1 1 ++ zeros 0 ++ le 1 0 ++ zeros 0 ++ le 1 31 ++ zeros 0 ++ le 1 6 ++ zeros 0 ++ le 1 16 ++ zeros 0 ++ le 8 16384 ++ zeros 0 ++ le 8 20480 ++ zeros 0 ++ le 4 0)
def v74 : State := srv qcB (.pf 0) r73
def r77 : Bytes := rq 0x502 0 (zeros 0 ++ zeros 0 ++ le 2 65535 ++ zeros 0 ++ le 1 2 ++ zeros 0 ++ le 1 1 ++ zeros 0 ++ le 1 1 ++ zeros 0 ++ le 1 1 ++ zeros 0 ++ le 1 16 ++ zeros 0 ++ le 1 6 ++ zeros 0 ++ le 8 16384 ++ zeros 0 ++ le 8 20480 ++ zeros 0 ++ le 4 5)
def v78 : State := srv qcB (.vf 3) r77
def r79 : Bytes := rq 0x503 0 (zeros 0 ++ zeros 0 ++ le 2 3 ++ zeros 0 ++ le 1 1 ++ zeros 1 ++ le 4 60000)
def v80 : State := srv pkA (.pf 0) r79
def r81 : Bytes := rq 0x503 1 (zeros 0 ++ zeros 0 ++ le 2 65535 ++ zeros 0 ++ le 1 1 ++ zeros 1 ++ le 4 1 ++ zeros 0 ++ le 1 200)
def v82 : State := srv pkA (.vf 3) r81
def r83 : Bytes := rq 0x504 1 (zeros 0 ++ zeros 0 ++ le 2 65535 ++ zeros 0 ++ le 1 1 ++ zeros 0 ++ le 1 1)
def v84 : State := srv pkA (.vf 3) r83
def r85 : Bytes := rq 0x505 0 (zeros 0 ++ zeros 0 ++ le 2 3 ++ zeros 0 ++ le 1 1)
def v86 : State := srv pkA (.pf 0) r85
def r87 : Bytes := rq 0x505 0 (zeros 0 ++ zeros 0 ++ le 2 3 ++ zeros 0 ++ le 1 9)
def v88 : State := srv pkA (.pf 0) r87
def r89 : Bytes := rq 0x506 0 (zeros 0 ++ zeros 0 ++ le 2 3 ++ zeros 0 ++ le 1 63 ++ zeros 5 ++ (le 1 2 ++ le 1 1 ++ le 2 2047 ++ le 2 0 ++ zeros 2 ++ le 8 0))
def v90 : State := srv pkA (.pf 0) r89
def r91 : Bytes := rq 0x506 1 (zeros 0 ++ zeros 0 ++ le 2 65535 ++ zeros 0 ++ le 1 62 ++ zeros 0 ++ le 1 2 ++ zeros 4 ++ (le 1 2 ++ le 1 1 ++ le 2 2047 ++ le 2 0 ++ zeros 2 ++ le 8 0) ++ zeros 0 ++ (le 1 0 ++ le 1 0 ++ le 2 0 ++ le 2 0 ++ zeros 2 ++ le 8 0))
def v92 : State := srv pkA (.pf 0) r91
def r93 : Bytes := rq 0x507 1 (zeros 0 ++ zeros 0 ++ le 4 20 ++ zeros 0 ++ le 1 1)
def v94 : State := srv pkA (.pf 0) r93
def r95 : Bytes := rq 0x507 0 (zeros 0 ++ zeros 0 ++ le 4 60000)
def v96 : State := srv pkA (.pf 0) r95
def pkL : State := { pkA with parts := [(0, { qA with season := some { seA with stepCycles := 100000000 } })] }
def r97 : Bytes := rq 0x507 0 (zeros 0 ++ zeros 0 ++ le 4 10)
def v98 : State := srv pkL (.pf 0) r97
def r99 : Bytes := rq 0x508 0 (zeros 0 ++ zeros 0 ++ le 1 128)
def v100 : State := srv pkA (.pf 0) r99
def r101 : Bytes := rq 0x508 1 (zeros 0 ++ zeros 0 ++ le 2 5 ++ zeros 0 ++ le 1 7)
def v102 : State := srv pkA (.pf 0) r101

theorem wit_DeviceVfAndQueueCommands : Obligations.DeviceVfAndQueueCommands →
    Ran (.identify (Mbox.pf 0)) v2 ∧
    Ran (.identify (Mbox.vf 3)) v6 ∧
    Ran (.status (Mbox.pf 0)) v8 ∧
    Ran (.status Mbox.mgmt) v10 ∧
    Ran (.deviceReset (Mbox.pf 0)) v12 ∧
    Ran (.deviceReset (Mbox.pf 0)) v14 ∧
    Ran (.powerStateSummer (Mbox.pf 0)) v16 ∧
    Ran (.powerStateWinter (Mbox.pf 0)) v18 ∧
    Ran (.powerStateWinter Mbox.mgmt) v20 ∧
    Ran (.operationStatus (Mbox.pf 0)) v22 ∧
    Ran (.operationStatus (Mbox.pf 0)) v24 ∧
    Ran (.operationStatus Mbox.mgmt) v26 ∧
    Ran (.noticeMask (Mbox.pf 0)) v28 ∧
    Ran (.noticeMask Mbox.mgmt) v32 ∧
    Ran (.timeRead (Mbox.pf 0)) v34 ∧
    Ran (.sliceRead (Mbox.pf 0)) v36 ∧
    Ran (.sliceRead (Mbox.pf 0)) v40 ∧
    Ran (.sliceRead (Mbox.vf 3)) v42 ∧
    Ran (.sliceRead (Mbox.pf 0)) v44 ∧
    Ran (.vfQuota (Mbox.pf 0)) v46 ∧
    Ran (.vfQuota (Mbox.pf 0)) v48 ∧
    Ran (.vfQuota (Mbox.pf 0)) v56 ∧
    Ran (.vfQuota (Mbox.pf 0)) v58 ∧
    Ran (.vfReset (Mbox.pf 0)) v60 ∧
    Ran (.vfReset (Mbox.pf 0)) v62 ∧
    Ran (.vfReset (Mbox.pf 0)) v66 ∧
    Ran (.serviceList (Mbox.pf 0)) v68 ∧
    Ran (.serviceList (Mbox.pf 0)) v72 ∧
    Ran (.queueCreate (Mbox.pf 0)) v74 ∧
    Ran (.queueCreate (Mbox.vf 3)) v78 ∧
    Ran (.queueModify (Mbox.pf 0)) v80 ∧
    Ran (.queueModify (Mbox.vf 3)) v82 ∧
    Ran (.queueReset (Mbox.vf 3)) v84 ∧
    Ran (.queueDelete (Mbox.pf 0)) v86 ∧
    Ran (.queueDelete (Mbox.pf 0)) v88 ∧
    Ran (.signalTarget (Mbox.pf 0)) v90 ∧
    Ran (.signalTarget (Mbox.pf 0)) v92 ∧
    Ran (.stepLimit (Mbox.pf 0)) v94 ∧
    Ran (.stepLimit (Mbox.pf 0)) v96 ∧
    Ran (.stepLimit (Mbox.pf 0)) v98 ∧
    Ran (.fetchReserve (Mbox.pf 0)) v100 ∧
    Ran (.fetchReserve (Mbox.pf 0)) v102 := fun h =>
  ⟨ran ((((h v2 (.pf 0) r1).1) (sv (by decide +kernel)))),
   ran ((((h v6 (.vf 3) r5).1) (sv (by decide +kernel)))),
   ran ((((h v8 (.pf 0) r7).2.1) (sv (by decide +kernel)))),
   ran ((((h v10 .mgmt r9).2.1) (sv (by decide +kernel)))),
   ran ((((h v12 (.pf 0) r11).2.2.1) (sv (by decide +kernel)) (by decide +kernel) (by decide +kernel))),
   ran ((((h v14 (.pf 0) r13).2.2.1) (sv (by decide +kernel)) (by decide +kernel) (by decide +kernel))),
   ran ((((((h v16 (.pf 0) r15).2.2.2.1) (sv (by decide +kernel)) (by decide +kernel) (by decide +kernel) (by decide +kernel) (by decide +kernel)).1) (by decide +kernel))),
   ran ((((((h v18 (.pf 0) r17).2.2.2.1) (sv (by decide +kernel)) (by decide +kernel) (by decide +kernel) (by decide +kernel) (by decide +kernel)).2) (by decide +kernel) (by decide +kernel))),
   ran ((((((h v20 .mgmt r19).2.2.2.1) (sv (by decide +kernel)) (by decide +kernel) (by decide +kernel) (by decide +kernel) (by decide +kernel)).2) (by decide +kernel) (by decide +kernel))),
   ran ((((((h v22 (.pf 0) r21).2.2.2.2.1) (sv (by decide +kernel))).1) (by decide +kernel))),
   ran ((((((((h v24 (.pf 0) r23).2.2.2.2.1) (sv (by decide +kernel))).2) { op := 9, opcode := 0x603 } (by decide +kernel)).1) (by decide +kernel))),
   ran ((((((((h v26 .mgmt r25).2.2.2.2.1) (sv (by decide +kernel))).2) { op := 10, opcode := 0x603, done := true, rc := 0x107, detail := 4 } (by decide +kernel)).2) (by decide +kernel))),
   ran ((((h v28 (.pf 0) r27).2.2.2.2.2.1) (sv (by decide +kernel)) (by decide +kernel) (by decide +kernel))),
   ran ((((h v32 .mgmt r31).2.2.2.2.2.1) (sv (by decide +kernel)) (by decide +kernel) (by decide +kernel))),
   ran ((((h v34 (.pf 0) r33).2.2.2.2.2.2.1) (sv (by decide +kernel)))),
   ran ((((((h v36 (.pf 0) r35).2.2.2.2.2.2.2.1) (sv (by decide +kernel)) (by decide +kernel)).1) (by decide +kernel))),
   ran ((((((h v40 (.pf 0) r39).2.2.2.2.2.2.2.1) (sv (by decide +kernel)) (by decide +kernel)).2) (by decide +kernel))),
   ran ((((((h v42 (.vf 3) r41).2.2.2.2.2.2.2.1) (sv (by decide +kernel)) (by decide +kernel)).1) (by decide +kernel))),
   ran ((((((h v44 (.pf 0) r43).2.2.2.2.2.2.2.1) (sv (by decide +kernel)) (by decide +kernel)).2) (by decide +kernel))),
   ran ((((((h v46 (.pf 0) r45).2.2.2.2.2.2.2.2.1) (sv (by decide +kernel)) (by decide +kernel) (by decide +kernel) (by decide +kernel) (by decide +kernel)).1) (by decide +kernel))),
   ran ((((((((h v48 (.pf 0) r47).2.2.2.2.2.2.2.2.1) (sv (by decide +kernel)) (by decide +kernel) (by decide +kernel) (by decide +kernel) (by decide +kernel)).2) (by decide +kernel) (by decide +kernel) (by decide +kernel)).1) (by decide +kernel) (by decide +kernel))),
   ran ((((((((h v56 (.pf 0) r55).2.2.2.2.2.2.2.2.1) (sv (by decide +kernel)) (by decide +kernel) (by decide +kernel) (by decide +kernel) (by decide +kernel)).2) (by decide +kernel) (by decide +kernel) (by decide +kernel)).1) (by decide +kernel) (by decide +kernel))),
   ran ((((((((h v58 (.pf 0) r57).2.2.2.2.2.2.2.2.1) (sv (by decide +kernel)) (by decide +kernel) (by decide +kernel) (by decide +kernel) (by decide +kernel)).2) (by decide +kernel) (by decide +kernel) (by decide +kernel)).2) (by decide +kernel))),
   ran ((((((h v60 (.pf 0) r59).2.2.2.2.2.2.2.2.2.1) (sv (by decide +kernel)) (by decide +kernel) (by decide +kernel)).1) (by decide +kernel))),
   ran ((((((h v62 (.pf 0) r61).2.2.2.2.2.2.2.2.2.1) (sv (by decide +kernel)) (by decide +kernel) (by decide +kernel)).2) (by decide +kernel))),
   ran ((((((h v66 (.pf 0) r65).2.2.2.2.2.2.2.2.2.1) (sv (by decide +kernel)) (by decide +kernel) (by decide +kernel)).2) (by decide +kernel))),
   ran ((((h v68 (.pf 0) r67).2.2.2.2.2.2.2.2.2.2.1) (sv (by decide +kernel)) (by decide +kernel))),
   ran ((((h v72 (.pf 0) r71).2.2.2.2.2.2.2.2.2.2.1) (sv (by decide +kernel)) (by decide +kernel))),
   ran ((((h v74 (.pf 0) r73).2.2.2.2.2.2.2.2.2.2.2.1) (sv (by decide +kernel)) (by decide +kernel) (by decide +kernel) (by decide +kernel) (by decide +kernel) (by decide +kernel) (by decide +kernel) (by decide +kernel) (by decide +kernel) (by decide +kernel) (by decide +kernel) (by decide +kernel) (by decide +kernel) (by decide +kernel) (by decide +kernel) (by decide +kernel) (by decide +kernel) (by decide +kernel) (by decide +kernel) (by decide +kernel) (by decide +kernel) (by decide +kernel) (by decide +kernel) (by decide +kernel) (by decide +kernel) (by decide +kernel))),
   ran ((((h v78 (.vf 3) r77).2.2.2.2.2.2.2.2.2.2.2.1) (sv (by decide +kernel)) (by decide +kernel) (by decide +kernel) (by decide +kernel) (by decide +kernel) (by decide +kernel) (by decide +kernel) (by decide +kernel) (by decide +kernel) (by decide +kernel) (by decide +kernel) (by decide +kernel) (by decide +kernel) (by decide +kernel) (by decide +kernel) (by decide +kernel) (by decide +kernel) (by decide +kernel) (by decide +kernel) (by decide +kernel) (by decide +kernel) (by decide +kernel) (by decide +kernel) (by decide +kernel) (by decide +kernel) (by decide +kernel))),
   ran ((((((((h v80 (.pf 0) r79).2.2.2.2.2.2.2.2.2.2.2.2.1) (by decide +kernel) (by decide +kernel) (by decide +kernel) (by decide +kernel)).1) { state := 1, sqLog := 6, cqLog := 6 } (by decide +kernel)).1) (sv (by decide +kernel)) (by decide +kernel) (by decide +kernel) (by decide +kernel))),
   ran ((((((((h v82 (.vf 3) r81).2.2.2.2.2.2.2.2.2.2.2.2.1) (by decide +kernel) (by decide +kernel) (by decide +kernel) (by decide +kernel)).1) { state := 1, sqLog := 6, cqLog := 6 } (by decide +kernel)).1) (sv (by decide +kernel)) (by decide +kernel) (by decide +kernel) (by decide +kernel))),
   ran ((((((((h v84 (.vf 3) r83).2.2.2.2.2.2.2.2.2.2.2.2.1) (by decide +kernel) (by decide +kernel) (by decide +kernel) (by decide +kernel)).1) { state := 1, sqLog := 6, cqLog := 6 } (by decide +kernel)).2.1) (sv (by decide +kernel)) (by decide +kernel))),
   ran ((((((((h v86 (.pf 0) r85).2.2.2.2.2.2.2.2.2.2.2.2.1) (by decide +kernel) (by decide +kernel) (by decide +kernel) (by decide +kernel)).1) { state := 1, sqLog := 6, cqLog := 6 } (by decide +kernel)).2.2) (sv (by decide +kernel)))),
   ran ((((((h v88 (.pf 0) r87).2.2.2.2.2.2.2.2.2.2.2.2.1) (by decide +kernel) (by decide +kernel) (by decide +kernel) (by decide +kernel)).2) (by decide +kernel) (sv (by decide +kernel)))),
   ran ((((h v90 (.pf 0) r89).2.2.2.2.2.2.2.2.2.2.2.2.2.1) (sv (by decide +kernel)) (by decide +kernel) (by decide +kernel) (by decide +kernel) (by decide +kernel) (by decide +kernel) (by decide +kernel) (by decide +kernel) (by decide +kernel) (by decide +kernel) (by decide +kernel))),
   ran ((((h v92 (.pf 0) r91).2.2.2.2.2.2.2.2.2.2.2.2.2.1) (sv (by decide +kernel)) (by decide +kernel) (by decide +kernel) (by decide +kernel) (by decide +kernel) (by decide +kernel) (by decide +kernel) (by decide +kernel) (by decide +kernel) (by decide +kernel) (by decide +kernel))),
   ran ((((((h v94 (.pf 0) r93).2.2.2.2.2.2.2.2.2.2.2.2.2.2.1) (sv (by decide +kernel)) (by decide +kernel) (by decide +kernel) (by decide +kernel)).1) (by decide +kernel))),
   ran ((((((h v96 (.pf 0) r95).2.2.2.2.2.2.2.2.2.2.2.2.2.2.1) (sv (by decide +kernel)) (by decide +kernel) (by decide +kernel) (by decide +kernel)).2.1) (by decide +kernel) (by decide +kernel))),
   ran ((((((h v98 (.pf 0) r97).2.2.2.2.2.2.2.2.2.2.2.2.2.2.1) (sv (by decide +kernel)) (by decide +kernel) (by decide +kernel) (by decide +kernel)).2.2) (by decide +kernel) (by decide +kernel))),
   ran ((((h v100 (.pf 0) r99).2.2.2.2.2.2.2.2.2.2.2.2.2.2.2) (sv (by decide +kernel)) (by decide +kernel))),
   ran ((((h v102 (.pf 0) r101).2.2.2.2.2.2.2.2.2.2.2.2.2.2.2) (sv (by decide +kernel)) (by decide +kernel)))⟩

end DeviceCommands

namespace PartitionCommands

def r201 : Bytes := rq 0x301 0 (zeros 0 ++ zeros 0 ++ le 1 255 ++ zeros 0 ++ le 1 2 ++ zeros 0 ++ le 1 3)
def v202 : State := srv pkA (.pf 0) r201
def r209 : Bytes := rq 0x301 1 (zeros 0 ++ zeros 0 ++ le 1 0 ++ zeros 1 ++ le 2 0 ++ zeros 0 ++ le 4 8192 ++ zeros 0 ++ le 8 140737488355328 ++ zeros 0 ++ le 8 0 ++ zeros 0 ++ le 8 9223372036854775808)
def v210 : State := srv rdy (.pf 0) r209
def p1 : State := { pkA with jobs := [] }
def r211 : Bytes := rq 0x302 0 (zeros 0 ++ zeros 0 ++ le 1 0)
def v212 : State := srv p1 (.pf 0) r211
def r213 : Bytes := rq 0x302 0 (zeros 0 ++ zeros 0 ++ le 1 0)
def v214 : State := srv pkA (.pf 0) r213
def p3 : State := { pkA with jobs := [(0, { tj with state := 2 }), (4, { tj with state := 3, entry := 1 }), (5, { tj with state := 4, entry := 2, killStatus := 7 }), (6, { tj with part := 1 })] }
def r215 : Bytes := rq 0x302 1 (zeros 0 ++ zeros 0 ++ le 1 0 ++ zeros 0 ++ le 1 1)
def v216 : State := srv p3 .mgmt r215
def qSp : Part := { qA with cols := [0, 3] }
def p4 : State := { p3 with parts := [(0, qSp)], ladder := { pkA.ladder with spares := [(3, { state := 2, row := 4 })] } }
def r217 : Bytes := rq 0x303 0 (zeros 0 ++ zeros 0 ++ le 1 0 ++ zeros 0 ++ le 1 0)
def v218 : State := srv p4 (.pf 0) r217
def r219 : Bytes := rq 0x303 1 (zeros 0 ++ zeros 0 ++ le 1 0 ++ zeros 0 ++ le 1 1)
def v220 : State := srv p4 (.pf 0) r219
def r221 : Bytes := rq 0x304 0 (zeros 0 ++ zeros 0 ++ le 1 0)
def v222 : State := srv p3 (.pf 0) r221
def r231 : Bytes := rq 0x304 1 (zeros 0 ++ zeros 0 ++ le 1 0 ++ zeros 3 ++ le 4 60000)
def v232 : State := srv p1 (.pf 0) r231
def r233 : Bytes := rq 0x305 0 (zeros 0 ++ zeros 0 ++ le 1 0)
def v234 : State := srv p4 (.pf 0) r233
def r235 : Bytes := rq 0x306 1 (zeros 0 ++ zeros 0 ++ le 1 0 ++ zeros 0 ++ le 1 3 ++ zeros 2 ++ le 4 0 ++ zeros 0 ++ le 4 65535)
def v236 : State := srv p4 (.pf 0) r235
def qRg : Part := { qA with regs := [(0, { rate := 5, burst := 70000, bucket := 90000000 }), (2, { bucket := 7 })] }
def prg : State := { p3 with parts := [(0, qRg)] }
def r237 : Bytes := rq 0x306 1 (zeros 0 ++ zeros 0 ++ le 1 0 ++ zeros 0 ++ le 1 0 ++ zeros 2 ++ le 4 128000 ++ zeros 0 ++ le 4 1)
def v238 : State := srv prg (.pf 0) r237
def r239 : Bytes := rq 0x306 0 (zeros 0 ++ zeros 0 ++ le 1 0 ++ zeros 0 ++ le 1 100)
def v240 : State := srv prg (.pf 0) r239
def r241 : Bytes := rq 0x306 0 (zeros 0 ++ zeros 0 ++ le 1 0 ++ zeros 0 ++ le 1 1)
def v242 : State := srv prg (.pf 0) r241
def qE : Part := { cols := [0], chans := [0] }
def pE : State := { pkA with parts := [(0, qE)], jobs := [] }
def pE2 : State := { pE with loads := [(1, {}), (2, {})] }
def r243 : Bytes := rq 0x401 0 (zeros 0 ++ zeros 0 ++ le 1 0 ++ zeros 0 ++ le 1 0 ++ zeros 6 ++ le 8 512)
def v244 : State := srv pE2 (.pf 0) r243
def r245 : Bytes := rq 0x401 1 (zeros 0 ++ zeros 0 ++ le 1 0 ++ zeros 0 ++ le 1 0 ++ zeros 0 ++ le 1 1 ++ zeros 1 ++ le 4 77 ++ zeros 0 ++ le 8 512)
def v246 : State := srv pE2 .mgmt r245
def qU : Part := { qA with contentKey := true, staged := some [], runJob := none }
def pU : State := { pkA with parts := [(0, qU)], jobs := [] }
def r247 : Bytes := rq 0x402 0 (zeros 0 ++ zeros 0 ++ le 1 0)
def v248 : State := srv pU (.pf 0) r247
def r249 : Bytes := rq 0x402 0 (zeros 0 ++ zeros 0 ++ le 1 0)
def v250 : State := srv p3 (.pf 0) r249
def r251 : Bytes := rq 0x402 1 (zeros 0 ++ zeros 0 ++ le 1 0 ++ zeros 0 ++ le 1 1)
def v252 : State := srv p3 (.pf 0) r251
def r253 : Bytes := rq 0x403 0 (zeros 0 ++ zeros 0 ++ le 1 0)
def v254 : State := srv pU (.pf 0) r253
def pU2 : State := { pU with jobs := [(0, { tj with state := 1 }), (1, { tj with entry := 1, state := 1 })] }
def r255 : Bytes := rq 0x403 1 (zeros 0 ++ zeros 0 ++ le 1 0 ++ zeros 0 ++ le 1 7 ++ zeros 0 ++ le 1 1)
def v256 : State := srv pU2 .mgmt r255
def r257 : Bytes := rq 0x302 0 (zeros 0 ++ zeros 0 ++ le 1 5)
def v258 : State := srv pkA (.pf 0) r257
def r259 : Bytes := rq 0x303 0 (zeros 0 ++ zeros 0 ++ le 1 5)
def v260 : State := srv pkA (.pf 0) r259
def r261 : Bytes := rq 0x305 0 (zeros 0 ++ zeros 0 ++ le 1 5)
def v262 : State := srv pkA (.pf 0) r261
def bR : Job := { tj with state := 2 }
def bK : Job := { tj with state := 4, entry := 2, killStatus := 7 }
def r263 : Bytes := rq 0x404 1 (zeros 0 ++ zeros 0 ++ le 1 0 ++ zeros 0 ++ le 1 1)
def v264 : State := srv p3 (.pf 0) r263
def r265 : Bytes := rq 0x404 0 (zeros 0 ++ zeros 0 ++ le 1 0)
def v266 : State := srv p3 .mgmt r265
def r267 : Bytes := rq 0x405 1 (zeros 0 ++ zeros 0 ++ le 1 0 ++ zeros 0 ++ le 1 7 ++ zeros 0 ++ le 1 255)
def v268 : State := srv p3 (.pf 0) r267
def r269 : Bytes := rq 0x405 0 (zeros 0 ++ zeros 0 ++ le 1 5 ++ zeros 0 ++ le 1 7)
def v270 : State := srv p3 (.pf 0) r269
def r271 : Bytes := rq 0x406 0 (zeros 0 ++ zeros 0 ++ le 1 5)
def v272 : State := srv p3 (.pf 0) r271
def r273 : Bytes := rq 0x406 0 (zeros 0 ++ zeros 0 ++ le 1 63)
def v274 : State := srv p3 (.pf 0) r273
def vis : State := { p3 with svcGrants := [(3, 9), (4, 11)], fns := [(3, vA), (4, vA), (511, vA)] }
def r275 : Bytes := rq 0x407 0 (zeros 0 ++ zeros 0 ++ le 2 3 ++ zeros 2 ++ le 4 9 ++ zeros 0 ++ le 1 0)
def v276 : State := srv vis (.pf 0) r275
def r277 : Bytes := rq 0x407 1 (zeros 0 ++ zeros 0 ++ le 4 9 ++ zeros 0 ++ le 1 1 ++ zeros 3 ++ le 8 24 ++ zeros 48 ++ le 8 9223372036854775808)
def v278 : State := srv vis (.pf 0) r277
def r279 : Bytes := rq 0x407 0 (zeros 0 ++ zeros 0 ++ le 2 3 ++ zeros 2 ++ le 4 99 ++ zeros 0 ++ le 1 0)
def v280 : State := srv vis (.pf 0) r279
def r281 : Bytes := rq 0x408 0 (zeros 0 ++ zeros 0 ++ le 4 10 ++ zeros 0 ++ le 2 8)
def v282 : State := srv p3 (.pf 0) r281
def r283 : Bytes := rq 0x408 1 (zeros 0 ++ zeros 0 ++ le 4 9 ++ zeros 0 ++ le 2 2 ++ zeros 0 ++ le 2 8 ++ zeros 0 ++ le 2 6)
def v284 : State := srv p3 (.pf 0) r283
def qW : Part := { qA with svcs := [(1, svcB)] }
def pW : State := { pkA with parts := [(0, qW)] }
def r285 : Bytes := rq 0x409 0 (zeros 0 ++ zeros 0 ++ le 4 10 ++ zeros 0 ++ le 4 0)
def v286 : State := srv pW (.pf 0) r285
def r287 : Bytes := rq 0x409 1 (zeros 0 ++ zeros 0 ++ le 4 10 ++ zeros 0 ++ le 4 0)
def v288 : State := srv pW (.pf 0) r287
def r289 : Bytes := rq 0x409 1 (zeros 0 ++ zeros 0 ++ le 4 10 ++ zeros 0 ++ le 4 50)
def v290 : State := srv pW (.pf 0) r289

theorem wit_PartitionSeasonJobAndServiceCommands : Obligations.PartitionSeasonJobAndServiceCommands →
    Ran (.partCreate (Mbox.pf 0)) v202 ∧
    Ran (.partCreate (Mbox.pf 0)) v210 ∧
    Ran (.partDestroy (Mbox.pf 0)) v212 ∧
    Ran (.partDestroy (Mbox.pf 0)) v214 ∧
    Ran (.partDestroy Mbox.mgmt) v216 ∧
    Ran (.partReset (Mbox.pf 0)) v218 ∧
    Ran (.partReset (Mbox.pf 0)) v220 ∧
    Ran (.partDrain (Mbox.pf 0)) v222 ∧
    Ran (.partDrain (Mbox.pf 0)) v232 ∧
    Ran (.partStatus (Mbox.pf 0)) v234 ∧
    Ran (.partRegulate (Mbox.pf 0)) v236 ∧
    Ran (.partRegulate (Mbox.pf 0)) v238 ∧
    Ran (.partRegulate (Mbox.pf 0)) v240 ∧
    Ran (.partRegulate (Mbox.pf 0)) v242 ∧
    Ran (.seasonLoad (Mbox.pf 0)) v244 ∧
    Ran (.seasonLoad Mbox.mgmt) v246 ∧
    Ran (.seasonUnload (Mbox.pf 0)) v248 ∧
    Ran (.seasonUnload (Mbox.pf 0)) v250 ∧
    Ran (.seasonUnload (Mbox.pf 0)) v252 ∧
    Ran (.jobStart (Mbox.pf 0)) v254 ∧
    Ran (.jobStart Mbox.mgmt) v256 ∧
    Ran (.partDestroy (Mbox.pf 0)) v258 ∧
    Ran (.partReset (Mbox.pf 0)) v260 ∧
    Ran (.partStatus (Mbox.pf 0)) v262 ∧
    Ran (.jobKill (Mbox.pf 0)) v264 ∧
    Ran (.jobKill Mbox.mgmt) v266 ∧
    Ran (.jobModify (Mbox.pf 0)) v268 ∧
    Ran (.jobModify (Mbox.pf 0)) v270 ∧
    Ran (.jobStatus (Mbox.pf 0)) v272 ∧
    Ran (.jobStatus (Mbox.pf 0)) v274 ∧
    Ran (.serviceVisibility (Mbox.pf 0)) v276 ∧
    Ran (.serviceVisibility (Mbox.pf 0)) v278 ∧
    Ran (.serviceVisibility (Mbox.pf 0)) v280 ∧
    Ran (.servicePositions (Mbox.pf 0)) v282 ∧
    Ran (.servicePositions (Mbox.pf 0)) v284 ∧
    Ran (.serviceWithdraw (Mbox.pf 0)) v286 ∧
    Ran (.serviceWithdraw (Mbox.pf 0)) v288 ∧
    Ran (.serviceWithdraw (Mbox.pf 0)) v290 := fun h =>
  ⟨ran ((((h v202 (.pf 0) r201).1) (sv (by decide +kernel)) (by decide +kernel) (by decide +kernel) (by decide +kernel) [24, 25] [64, 80, 96] 8192 1 (by decide +kernel) (by decide +kernel) (by decide +kernel) (by decide +kernel) (by decide +kernel) (by decide +kernel) (by decide +kernel) (by decide +kernel) (by decide +kernel) (by decide +kernel))),
   ran ((((h v210 (.pf 0) r209).1) (sv (by decide +kernel)) (by decide +kernel) (by decide +kernel) (by decide +kernel) [47] [127] 8192 0 (by decide +kernel) (by decide +kernel) (by decide +kernel) (by decide +kernel) (by decide +kernel) (by decide +kernel) (by decide +kernel) (by decide +kernel) (by decide +kernel) (by decide +kernel))),
   ran ((((((((h v212 (.pf 0) r211).2.1) qA (by decide +kernel) (by decide +kernel)).1) (sv (by decide +kernel)) (by decide +kernel) (by decide +kernel)).1) (by decide +kernel))),
   ran ((((((((h v214 (.pf 0) r213).2.1) qA (by decide +kernel) (by decide +kernel)).1) (sv (by decide +kernel)) (by decide +kernel) (by decide +kernel)).2.1) (by decide +kernel) (by decide +kernel))),
   ran ((((((((h v216 .mgmt r215).2.1) qA (by decide +kernel) (by decide +kernel)).1) (sv (by decide +kernel)) (by decide +kernel) (by decide +kernel)).2.2) (by decide +kernel) (by decide +kernel))),
   ran ((((((h v218 (.pf 0) r217).2.1) qSp (by decide +kernel) (by decide +kernel)).2.1) (sv (by decide +kernel)) (by decide +kernel) (by decide +kernel) (by decide +kernel))),
   ran ((((((h v220 (.pf 0) r219).2.1) qSp (by decide +kernel) (by decide +kernel)).2.1) (sv (by decide +kernel)) (by decide +kernel) (by decide +kernel) (by decide +kernel))),
   ran ((((((h v222 (.pf 0) r221).2.1) qA (by decide +kernel) (by decide +kernel)).2.2.1) (sv (by decide +kernel)) (by decide +kernel) (by decide +kernel) (by decide +kernel) (by decide +kernel) (by decide +kernel) (by decide +kernel) (by decide +kernel))),
   ran ((((((h v232 (.pf 0) r231).2.1) qA (by decide +kernel) (by decide +kernel)).2.2.1) (sv (by decide +kernel)) (by decide +kernel) (by decide +kernel) (by decide +kernel) (by decide +kernel) (by decide +kernel) (by decide +kernel) (by decide +kernel))),
   ran ((((((h v234 (.pf 0) r233).2.1) qSp (by decide +kernel) (by decide +kernel)).2.2.2.1) (sv (by decide +kernel)))),
   ran ((((((((h v236 (.pf 0) r235).2.1) qSp (by decide +kernel) (by decide +kernel)).2.2.2.2.1) (sv (by decide +kernel))).1) (by decide +kernel) (by decide +kernel) (by decide +kernel) (by decide +kernel) (by decide +kernel) (by decide +kernel))),
   ran ((((((((h v238 (.pf 0) r237).2.1) qRg (by decide +kernel) (by decide +kernel)).2.2.2.2.1) (sv (by decide +kernel))).1) (by decide +kernel) (by decide +kernel) (by decide +kernel) (by decide +kernel) (by decide +kernel) (by decide +kernel))),
   ran ((((((((h v240 (.pf 0) r239).2.1) qRg (by decide +kernel) (by decide +kernel)).2.2.2.2.1) (sv (by decide +kernel))).2) (by decide +kernel) (by decide +kernel) (by decide +kernel))),
   ran ((((((((h v242 (.pf 0) r241).2.1) qRg (by decide +kernel) (by decide +kernel)).2.2.2.2.1) (sv (by decide +kernel))).2) (by decide +kernel) (by decide +kernel) (by decide +kernel))),
   ran ((((((h v244 (.pf 0) r243).2.1) qE (by decide +kernel) (by decide +kernel)).2.2.2.2.2.1) (sv (by decide +kernel)) (by decide +kernel) (by decide +kernel) (by decide +kernel) (by decide +kernel) (by decide +kernel) (by decide +kernel) (by decide +kernel))),
   ran ((((((h v246 .mgmt r245).2.1) qE (by decide +kernel) (by decide +kernel)).2.2.2.2.2.1) (sv (by decide +kernel)) (by decide +kernel) (by decide +kernel) (by decide +kernel) (by decide +kernel) (by decide +kernel) (by decide +kernel) (by decide +kernel))),
   ran ((((((((h v248 (.pf 0) r247).2.1) qU (by decide +kernel) (by decide +kernel)).2.2.2.2.2.2.1) (sv (by decide +kernel)) (by decide +kernel)).1) (by decide +kernel))),
   ran ((((((((h v250 (.pf 0) r249).2.1) qA (by decide +kernel) (by decide +kernel)).2.2.2.2.2.2.1) (sv (by decide +kernel)) (by decide +kernel)).2.1) (by decide +kernel) (by decide +kernel))),
   ran ((((((((h v252 (.pf 0) r251).2.1) qA (by decide +kernel) (by decide +kernel)).2.2.2.2.2.2.1) (sv (by decide +kernel)) (by decide +kernel)).2.2) (by decide +kernel) (by decide +kernel))),
   ran ((((((h v254 (.pf 0) r253).2.1) qU (by decide +kernel) (by decide +kernel)).2.2.2.2.2.2.2) (sv (by decide +kernel)) (by decide +kernel) (by decide +kernel) 0 0 (by decide +kernel) (by decide +kernel))),
   ran ((((((h v256 .mgmt r255).2.1) qU (by decide +kernel) (by decide +kernel)).2.2.2.2.2.2.2) (sv (by decide +kernel)) (by decide +kernel) (by decide +kernel) 2 2 (by decide +kernel) (by decide +kernel))),
   ran ((((((h v258 (.pf 0) r257).2.2.1) (by decide +kernel) (by decide +kernel)).1) (sv (by decide +kernel)) (by decide +kernel))),
   ran ((((((h v260 (.pf 0) r259).2.2.1) (by decide +kernel) (by decide +kernel)).2.1) (sv (by decide +kernel)) (by decide +kernel))),
   ran ((((((h v262 (.pf 0) r261).2.2.1) (by decide +kernel) (by decide +kernel)).2.2) (sv (by decide +kernel)))),
   ran ((((((h v264 (.pf 0) r263).2.2.2.1) bR (by decide +kernel) (by decide +kernel)).1) (sv (by decide +kernel)) (by decide +kernel) (by decide +kernel))),
   ran ((((((h v266 .mgmt r265).2.2.2.1) bR (by decide +kernel) (by decide +kernel)).1) (sv (by decide +kernel)) (by decide +kernel) (by decide +kernel))),
   ran ((((((((h v268 (.pf 0) r267).2.2.2.1) bR (by decide +kernel) (by decide +kernel)).2.1) (sv (by decide +kernel)) (by decide +kernel) (by decide +kernel)).1) (by decide +kernel))),
   ran ((((((((h v270 (.pf 0) r269).2.2.2.1) bK (by decide +kernel) (by decide +kernel)).2.1) (sv (by decide +kernel)) (by decide +kernel) (by decide +kernel)).2) (by decide +kernel))),
   ran ((((((h v272 (.pf 0) r271).2.2.2.1) bK (by decide +kernel) (by decide +kernel)).2.2) (sv (by decide +kernel)))),
   ran ((((h v274 (.pf 0) r273).2.2.2.2.1) (by decide +kernel) (by decide +kernel) (sv (by decide +kernel)))),
   ran ((((((h v276 (.pf 0) r275).2.2.2.2.2.1) (sv (by decide +kernel)) (by decide +kernel) (by decide +kernel) (by decide +kernel) (by decide +kernel) (by decide +kernel)).1) (by decide +kernel))),
   ran ((((((h v278 (.pf 0) r277).2.2.2.2.2.1) (sv (by decide +kernel)) (by decide +kernel) (by decide +kernel) (by decide +kernel) (by decide +kernel) (by decide +kernel)).1) (by decide +kernel))),
   ran ((((((h v280 (.pf 0) r279).2.2.2.2.2.1) (sv (by decide +kernel)) (by decide +kernel) (by decide +kernel) (by decide +kernel) (by decide +kernel) (by decide +kernel)).2) (by decide +kernel))),
   ran ((((h v282 (.pf 0) r281).2.2.2.2.2.2.1) (sv (by decide +kernel)) 0 1 svcB (by decide +kernel) (by decide +kernel) (by decide +kernel) (by decide +kernel) (by decide +kernel))),
   ran ((((h v284 (.pf 0) r283).2.2.2.2.2.2.1) (sv (by decide +kernel)) 0 0 svcA (by decide +kernel) (by decide +kernel) (by decide +kernel) (by decide +kernel) (by decide +kernel))),
   ran ((((((h v286 (.pf 0) r285).2.2.2.2.2.2.2) (sv (by decide +kernel)) 0 1 qW svcB (by decide +kernel) (by decide +kernel) (by decide +kernel) (by decide +kernel)).1) (by decide +kernel))),
   ran ((((((h v288 (.pf 0) r287).2.2.2.2.2.2.2) (sv (by decide +kernel)) 0 1 qW svcB (by decide +kernel) (by decide +kernel) (by decide +kernel) (by decide +kernel)).1) (by decide +kernel))),
   ran ((((((h v290 (.pf 0) r289).2.2.2.2.2.2.2) (sv (by decide +kernel)) 0 1 qW svcB (by decide +kernel) (by decide +kernel) (by decide +kernel) (by decide +kernel)).2) (by decide +kernel)))⟩

end PartitionCommands

namespace HealthCommands

def r401 : Bytes := rq 0x601 0 (zeros 0 ++ zeros 0 ++ le 2 0)
def v402 : State := srv pkA (.pf 0) r401
def r405 : Bytes := rq 0x601 0 (zeros 0 ++ zeros 0 ++ le 2 65535)
def v406 : State := srv pkA .mgmt r405
def seS : Season := { seA with fracMax := 4, shadow := [0, 1], pairs := [(0, 1), (2, 3)] }
def qS : Part := { qA with season := some seS, fraction := 3, compares := 5, tableValid := true }
def qN : Part := { qA with season := some seS, fraction := 3, compares := 5, tableValid := false }
def qF : Part := { cols := [0, 3] }
def sA : State := { pkA with parts := [(0, qS)], jobs := [(0, { tj with state := 1 }), (2, { tj with part := 1, state := 2 })] }
def sN : State := { pkA with parts := [(0, qN)] }
def sF : State := { pkA with parts := [(0, qF)], jobs := [], health := [(0, { state := 2 }), (1, { state := 1 }), (52, { state := 2 })] }
def r407 : Bytes := rq 0x602 0 (zeros 0 ++ zeros 0 ++ le 1 0 ++ zeros 0 ++ le 1 0)
def v408 : State := srv sA (.pf 0) r407
def r409 : Bytes := rq 0x602 0 (zeros 0 ++ zeros 0 ++ le 1 0 ++ zeros 0 ++ le 1 4)
def v410 : State := srv sA (.pf 0) r409
def r411 : Bytes := rq 0x602 0 (zeros 0 ++ zeros 0 ++ le 1 0 ++ zeros 0 ++ le 1 3)
def v412 : State := srv sN (.pf 0) r411
def r413 : Bytes := rq 0x603 0 (zeros 0 ++ zeros 0 ++ le 1 0 ++ zeros 1 ++ le 2 65535)
def v414 : State := srv sF (.pf 0) r413
def r417 : Bytes := rq 0x603 1 (zeros 0 ++ zeros 0 ++ le 1 0 ++ zeros 1 ++ le 2 0 ++ zeros 0 ++ le 4 0 ++ zeros 0 ++ le 4 99 ++ zeros 0 ++ le 2 1)
def v418 : State := srv sF .mgmt r417
def sG : State := { sF with sec := { State.reset.sec with packages := [(2, { state := 1, id := 55, flags := 1, roundCycles := 100 })] } }
def r419 : Bytes := rq 0x603 1 (zeros 0 ++ zeros 0 ++ le 1 0 ++ zeros 1 ++ le 2 2 ++ zeros 0 ++ le 4 55 ++ zeros 0 ++ le 4 99 ++ zeros 0 ++ le 2 1)
def v420 : State := srv sG .mgmt r419
def r421 : Bytes := rq 0x604 0 (zeros 0 ++ zeros 0 ++ le 2 5 ++ zeros 0 ++ le 1 1)
def v422 : State := srv sF (.pf 0) r421
def r423 : Bytes := rq 0x604 1 (zeros 0 ++ zeros 0 ++ le 2 1 ++ zeros 0 ++ le 1 1 ++ zeros 1 ++ le 2 3600 ++ zeros 0 ++ le 2 168)
def v424 : State := srv sF (.pf 0) r423
def r425 : Bytes := rq 0x604 0 (zeros 0 ++ zeros 0 ++ le 2 1 ++ zeros 0 ++ le 1 0)
def v426 : State := srv sF (.pf 0) r425
def r427 : Bytes := rq 0x604 0 (zeros 0 ++ zeros 0 ++ le 2 0 ++ zeros 0 ++ le 1 1)
def v428 : State := srv sF .mgmt r427
def r429 : Bytes := rq 0x605 0 (zeros 0 ++ zeros 0 ++ le 4 64)
def v430 : State := srv sF .mgmt r429
def r431 : Bytes := rq 0x605 1 (zeros 0 ++ zeros 0 ++ le 4 524288 ++ zeros 0 ++ le 1 7)
def v432 : State := srv sF .mgmt r431
def sU : State := { sF with sec := { State.reset.sec with uploads := [{ kind := 0x605, arg := 3 }], packages := [(2, { state := 1, id := 55, flags := 1, roundCycles := 100 })] } }
def r433 : Bytes := rq 0x605 0 (zeros 0 ++ zeros 0 ++ le 4 64)
def v434 : State := srv sU .mgmt r433
def r435 : Bytes := rq 0x606 0 (zeros 0)
def v436 : State := srv sU (.pf 0) r435
def dA : State := { pkA with ladder := { dump := some { bytes := 5000, mask := 5 }, log := [{ seq := 1, kind := 3 }, { seq := 2, kind := 9, data := 7 }], logSeq := 3, spares := [(3, { state := 2, row := 4 }), (24, { state := 3, row := 7 })] } }
def r437 : Bytes := rq 0x701 0 (zeros 0 ++ zeros 0 ++ le 4 0)
def v438 : State := srv pkA (.pf 0) r437
def r441 : Bytes := rq 0x701 1 (zeros 0 ++ zeros 0 ++ le 4 4095)
def v442 : State := srv pkA (.pf 0) r441
def r443 : Bytes := rq 0x701 0 (zeros 0)
def v444 : State := srv dA (.pf 0) r443
def r445 : Bytes := rq 0x702 0 (zeros 0 ++ zeros 0 ++ le 4 8)
def v446 : State := srv pkA (.pf 0) r445
def r447 : Bytes := rq 0x702 0 (zeros 0 ++ zeros 0 ++ le 4 0)
def v448 : State := srv dA (.pf 0) r447
def r455 : Bytes := rq 0x702 0 (zeros 0 ++ zeros 0 ++ le 4 8000)
def v456 : State := srv dA (.pf 0) r455
def r457 : Bytes := rq 0x703 0 (zeros 0)
def v458 : State := srv dA (.pf 0) r457
def r459 : Bytes := rq 0x703 0 (zeros 0)
def v460 : State := srv pkA (.pf 0) r459
def r461 : Bytes := rq 0x704 0 (zeros 0 ++ zeros 0 ++ le 4 0)
def v462 : State := srv dA (.pf 0) r461
def r469 : Bytes := rq 0x704 0 (zeros 0 ++ zeros 0 ++ le 4 9)
def v470 : State := srv dA (.pf 0) r469
def r471 : Bytes := rq 0x705 0 (zeros 0 ++ zeros 0 ++ le 1 1)
def v472 : State := srv pkA (.pf 0) r471
def r473 : Bytes := rq 0x705 1 (zeros 0 ++ zeros 0 ++ le 1 3)
def v474 : State := srv pkA .mgmt r473
def r475 : Bytes := rq 0x706 0 (zeros 0 ++ zeros 0 ++ le 1 0)
def v476 : State := srv dA (.pf 0) r475
def r477 : Bytes := rq 0x706 0 (zeros 0 ++ zeros 0 ++ le 1 1)
def v478 : State := srv dA (.pf 0) r477
def r479 : Bytes := rq 0x901 0 (zeros 0)
def v480 : State := srv busy (.pf 0) r479
def r481 : Bytes := rq 0x901 1 (zeros 0 ++ zeros 0 ++ le 1 1)
def v482 : State := srv busy (.pf 0) r481
def r483 : Bytes := rq 0x902 0 (zeros 0 ++ zeros 0 ++ le 1 0 ++ zeros 0 ++ le 1 0)
def v484 : State := srv busy (.pf 0) r483
def r485 : Bytes := rq 0x902 0 (zeros 0 ++ zeros 0 ++ le 1 1 ++ zeros 0 ++ le 1 0)
def v486 : State := srv busy (.pf 0) r485
def bo : State := { busy with ports := [(0, { state := 0, disabled := true }), (1, { state := 0, disabled := true })] }
def r487 : Bytes := rq 0x902 0 (zeros 0 ++ zeros 0 ++ le 1 1 ++ zeros 0 ++ le 1 1)
def v488 : State := srv bo (.pf 0) r487
def bV : State := { busy with ident := { State.reset.ident with variant := .A } }
def r489 : Bytes := rq 0x902 0 (zeros 0 ++ zeros 0 ++ le 1 0 ++ zeros 0 ++ le 1 0)
def v490 : State := srv bV (.pf 0) r489
def r495 : Bytes := rq 0x902 0 (zeros 0 ++ zeros 0 ++ le 1 11 ++ zeros 0 ++ le 1 0)
def v496 : State := srv bV (.pf 0) r495
def r497 : Bytes := rq 0x903 0 (zeros 0 ++ zeros 0 ++ le 4 77)
def v498 : State := srv busy (.pf 0) r497
def r499 : Bytes := rq 0x903 1 (zeros 0 ++ zeros 0 ++ le 4 77 ++ zeros 0 ++ le 2 4095)
def v500 : State := srv busy (.pf 0) r499
def r501 : Bytes := rq 0x903 1 (zeros 0 ++ zeros 0 ++ le 4 77 ++ zeros 0 ++ le 2 9 ++ zeros 0 ++ le 1 1)
def v502 : State := srv busy (.pf 0) r501
def aI : State := { busy with alm := { State.reset.alm with state := 2, domain := 5, device := 3 }, jobs := [] }
def r503 : Bytes := rq 0x903 0 (zeros 0 ++ zeros 0 ++ le 4 77)
def v504 : State := srv aI (.pf 0) r503
def r505 : Bytes := rq 0x904 0 (zeros 0)
def v506 : State := srv aI (.pf 0) r505
def qO : Part := { tq with season := some { tse with flags := 2 } }
def aJ : State := { busy with alm := { State.reset.alm with state := 2, domain := 5, device := 3 }, parts := [(0, qO)], jobs := [(0, tj), (2, { tj with part := 1 })] }
def r507 : Bytes := rq 0x904 1 (zeros 0 ++ zeros 0 ++ le 1 1)
def v508 : State := srv aJ (.pf 0) r507
def gr : State := { busy with alm := { State.reset.alm with grants := [(5, { device := 3, signal := true }), (2050, { any := true, read := true })] } }
def r509 : Bytes := rq 0x905 0 (zeros 0 ++ zeros 0 ++ le 1 0 ++ zeros 1 ++ le 2 5 ++ zeros 0 ++ le 2 4095 ++ zeros 0 ++ le 1 3)
def v510 : State := srv gr (.pf 0) r509
def r513 : Bytes := rq 0x905 1 (zeros 0 ++ zeros 0 ++ le 1 1 ++ zeros 1 ++ le 2 2 ++ zeros 0 ++ le 2 65535 ++ zeros 0 ++ le 1 0 ++ zeros 1 ++ le 2 1)
def v514 : State := srv gr (.pf 0) r513

theorem wit_HealthRecoveryAndFabricCommands : Obligations.HealthRecoveryAndFabricCommands →
    Ran (.healthRead (Mbox.pf 0)) v402 ∧
    Ran (.healthRead Mbox.mgmt) v406 ∧
    Ran (.shadowSet (Mbox.pf 0)) v408 ∧
    Ran (.shadowSet (Mbox.pf 0)) v410 ∧
    Ran (.shadowSet (Mbox.pf 0)) v412 ∧
    Ran (.probe (Mbox.pf 0)) v414 ∧
    Ran (.probe Mbox.mgmt) v418 ∧
    Ran (.probe Mbox.mgmt) v420 ∧
    Ran (.observeAdd (Mbox.pf 0)) v422 ∧
    Ran (.observeAdd (Mbox.pf 0)) v424 ∧
    Ran (.observeRemove (Mbox.pf 0)) v426 ∧
    Ran (.observeAdd Mbox.mgmt) v428 ∧
    Ran (.patternInstall Mbox.mgmt) v430 ∧
    Ran (.patternInstall Mbox.mgmt) v432 ∧
    Ran (.patternInstall Mbox.mgmt) v434 ∧
    Ran (.patternList (Mbox.pf 0)) v436 ∧
    Ran (.dumpCapture (Mbox.pf 0)) v438 ∧
    Ran (.dumpCapture (Mbox.pf 0)) v442 ∧
    Ran (.dumpCapture (Mbox.pf 0)) v444 ∧
    Ran (.dumpRead (Mbox.pf 0)) v446 ∧
    Ran (.dumpRead (Mbox.pf 0)) v448 ∧
    Ran (.dumpRead (Mbox.pf 0)) v456 ∧
    Ran (.dumpClear (Mbox.pf 0)) v458 ∧
    Ran (.dumpClear (Mbox.pf 0)) v460 ∧
    Ran (.errlogRead (Mbox.pf 0)) v462 ∧
    Ran (.errlogRead (Mbox.pf 0)) v470 ∧
    Ran (.cpRestart (Mbox.pf 0)) v472 ∧
    Ran (.cpRestart Mbox.mgmt) v474 ∧
    Ran (.spareMapRead (Mbox.pf 0)) v476 ∧
    Ran (.spareMapRead (Mbox.pf 0)) v478 ∧
    Ran (.fabStatus (Mbox.pf 0)) v480 ∧
    Ran (.fabStatus (Mbox.pf 0)) v482 ∧
    Ran (.fabPort (Mbox.pf 0)) v484 ∧
    Ran (.fabPort (Mbox.pf 0)) v486 ∧
    Ran (.fabPort (Mbox.pf 0)) v488 ∧
    Ran (.fabPort (Mbox.pf 0)) v490 ∧
    Ran (.fabPort (Mbox.pf 0)) v496 ∧
    Ran (.almanacJoin (Mbox.pf 0)) v498 ∧
    Ran (.almanacJoin (Mbox.pf 0)) v500 ∧
    Ran (.almanacJoin (Mbox.pf 0)) v502 ∧
    Ran (.almanacJoin (Mbox.pf 0)) v504 ∧
    Ran (.almanacLeave (Mbox.pf 0)) v506 ∧
    Ran (.almanacLeave (Mbox.pf 0)) v508 ∧
    Ran (.semaphoreGrant (Mbox.pf 0)) v510 ∧
    Ran (.semaphoreGrant (Mbox.pf 0)) v514 := fun h =>
  ⟨ran ((((h v402 (.pf 0) r401).1) (sv (by decide +kernel)))),
   ran ((((h v406 .mgmt r405).1) (sv (by decide +kernel)))),
   ran ((((((((h v408 (.pf 0) r407).2.1) qS (by decide +kernel) (by decide +kernel)).1) (sv (by decide +kernel)) seS (by decide +kernel) (by decide +kernel) (by decide +kernel)).1) (by decide +kernel) (by decide +kernel))),
   ran ((((((((h v410 (.pf 0) r409).2.1) qS (by decide +kernel) (by decide +kernel)).1) (sv (by decide +kernel)) seS (by decide +kernel) (by decide +kernel) (by decide +kernel)).1) (by decide +kernel) (by decide +kernel))),
   ran ((((((((h v412 (.pf 0) r411).2.1) qN (by decide +kernel) (by decide +kernel)).1) (sv (by decide +kernel)) seS (by decide +kernel) (by decide +kernel) (by decide +kernel)).2) (by decide +kernel))),
   ran ((((((((h v414 (.pf 0) r413).2.1) qF (by decide +kernel) (by decide +kernel)).2) (sv (by decide +kernel)) (by decide +kernel) (by decide +kernel) (by decide +kernel) (by decide +kernel) (by decide +kernel) 4096 0 (by decide +kernel) (by decide +kernel)).1) (by decide +kernel))),
   ran ((((((((h v418 .mgmt r417).2.1) qF (by decide +kernel) (by decide +kernel)).2) (sv (by decide +kernel)) (by decide +kernel) (by decide +kernel) (by decide +kernel) (by decide +kernel) (by decide +kernel) 4096 0 (by decide +kernel) (by decide +kernel)).2) (by decide +kernel))),
   ran ((((((((h v420 .mgmt r419).2.1) qF (by decide +kernel) (by decide +kernel)).2) (sv (by decide +kernel)) (by decide +kernel) (by decide +kernel) (by decide +kernel) (by decide +kernel) (by decide +kernel) 100 1 (by decide +kernel) (by decide +kernel)).1) (by decide +kernel))),
   ran ((((((h v422 (.pf 0) r421).2.2.1) (sv (by decide +kernel)) 5 (by decide +kernel) (by decide +kernel) (by decide +kernel) (by decide +kernel) (by decide +kernel) (by decide +kernel)).1) (by decide +kernel) (by decide +kernel))),
   ran ((((((h v424 (.pf 0) r423).2.2.1) (sv (by decide +kernel)) 1 (by decide +kernel) (by decide +kernel) (by decide +kernel) (by decide +kernel) (by decide +kernel) (by decide +kernel)).1) (by decide +kernel) (by decide +kernel))),
   ran ((((((h v426 (.pf 0) r425).2.2.1) (sv (by decide +kernel)) 1 (by decide +kernel) (by decide +kernel) (by decide +kernel) (by decide +kernel) (by decide +kernel) (by decide +kernel)).2.1) (by decide +kernel) (by decide +kernel))),
   ran ((((((h v428 .mgmt r427).2.2.1) (sv (by decide +kernel)) 0 (by decide +kernel) (by decide +kernel) (by decide +kernel) (by decide +kernel) (by decide +kernel) (by decide +kernel)).2.2) (by decide +kernel) (by decide +kernel))),
   ran ((((((h v430 .mgmt r429).2.2.2.1) (sv (by decide +kernel)) (by decide +kernel) (by decide +kernel) (by decide +kernel)).1) (by decide +kernel))),
   ran ((((((h v432 .mgmt r431).2.2.2.1) (sv (by decide +kernel)) (by decide +kernel) (by decide +kernel) (by decide +kernel)).1) (by decide +kernel))),
   ran ((((((h v434 .mgmt r433).2.2.2.1) (sv (by decide +kernel)) (by decide +kernel) (by decide +kernel) (by decide +kernel)).2) (by decide +kernel))),
   ran ((((h v436 (.pf 0) r435).2.2.2.2.1) (sv (by decide +kernel)))),
   ran ((((((h v438 (.pf 0) r437).2.2.2.2.2.1) (sv (by decide +kernel)) (by decide +kernel)).1) (by decide +kernel) (by decide +kernel))),
   ran ((((((h v442 (.pf 0) r441).2.2.2.2.2.1) (sv (by decide +kernel)) (by decide +kernel)).1) (by decide +kernel) (by decide +kernel))),
   ran ((((((h v444 (.pf 0) r443).2.2.2.2.2.1) (sv (by decide +kernel)) (by decide +kernel)).2) { bytes := 5000, mask := 5 } (by decide +kernel))),
   ran ((((((h v446 (.pf 0) r445).2.2.2.2.2.2.1) (sv (by decide +kernel)) (by decide +kernel)).1) (by decide +kernel))),
   ran ((((((h v448 (.pf 0) r447).2.2.2.2.2.2.1) (sv (by decide +kernel)) (by decide +kernel)).2) { bytes := 5000, mask := 5 } (by decide +kernel))),
   ran ((((((h v456 (.pf 0) r455).2.2.2.2.2.2.1) (sv (by decide +kernel)) (by decide +kernel)).2) { bytes := 5000, mask := 5 } (by decide +kernel))),
   ran ((((h v458 (.pf 0) r457).2.2.2.2.2.2.2.1) (sv (by decide +kernel)))),
   ran ((((h v460 (.pf 0) r459).2.2.2.2.2.2.2.1) (sv (by decide +kernel)))),
   ran ((((h v462 (.pf 0) r461).2.2.2.2.2.2.2.2.1) (sv (by decide +kernel)))),
   ran ((((h v470 (.pf 0) r469).2.2.2.2.2.2.2.2.1) (sv (by decide +kernel)))),
   ran ((((h v472 (.pf 0) r471).2.2.2.2.2.2.2.2.2.1) (sv (by decide +kernel)) (by decide +kernel))),
   ran ((((h v474 .mgmt r473).2.2.2.2.2.2.2.2.2.1) (sv (by decide +kernel)) (by decide +kernel))),
   ran ((((h v476 (.pf 0) r475).2.2.2.2.2.2.2.2.2.2.1) (sv (by decide +kernel)) (by decide +kernel))),
   ran ((((h v478 (.pf 0) r477).2.2.2.2.2.2.2.2.2.2.1) (sv (by decide +kernel)) (by decide +kernel))),
   ran ((((h v480 (.pf 0) r479).2.2.2.2.2.2.2.2.2.2.2.1) (sv (by decide +kernel)) (by decide +kernel))),
   ran ((((h v482 (.pf 0) r481).2.2.2.2.2.2.2.2.2.2.2.1) (sv (by decide +kernel)) (by decide +kernel))),
   ran ((((((((h v484 (.pf 0) r483).2.2.2.2.2.2.2.2.2.2.2.2.1) (sv (by decide +kernel)) (by decide +kernel) (by decide +kernel)).1) (by decide +kernel)).1) (by decide +kernel))),
   ran ((((((((h v486 (.pf 0) r485).2.2.2.2.2.2.2.2.2.2.2.2.1) (sv (by decide +kernel)) (by decide +kernel) (by decide +kernel)).1) (by decide +kernel)).1) (by decide +kernel))),
   ran ((((((((h v488 (.pf 0) r487).2.2.2.2.2.2.2.2.2.2.2.2.1) (sv (by decide +kernel)) (by decide +kernel) (by decide +kernel)).1) (by decide +kernel)).2) (by decide +kernel) (by decide +kernel) (by decide +kernel) (by decide +kernel))),
   ran ((((((h v490 (.pf 0) r489).2.2.2.2.2.2.2.2.2.2.2.2.1) (sv (by decide +kernel)) (by decide +kernel) (by decide +kernel)).2) (by decide +kernel))),
   ran ((((((h v496 (.pf 0) r495).2.2.2.2.2.2.2.2.2.2.2.2.1) (sv (by decide +kernel)) (by decide +kernel) (by decide +kernel)).2) (by decide +kernel))),
   ran ((((((((h v498 (.pf 0) r497).2.2.2.2.2.2.2.2.2.2.2.2.2.1) (sv (by decide +kernel)) (by decide +kernel) (by decide +kernel) (by decide +kernel)).1) (by decide +kernel) (by decide +kernel)).1) (by decide +kernel))),
   ran ((((((((h v500 (.pf 0) r499).2.2.2.2.2.2.2.2.2.2.2.2.2.1) (sv (by decide +kernel)) (by decide +kernel) (by decide +kernel) (by decide +kernel)).1) (by decide +kernel) (by decide +kernel)).1) (by decide +kernel))),
   ran ((((((((h v502 (.pf 0) r501).2.2.2.2.2.2.2.2.2.2.2.2.2.1) (sv (by decide +kernel)) (by decide +kernel) (by decide +kernel) (by decide +kernel)).1) (by decide +kernel) (by decide +kernel)).2) (by decide +kernel) (by decide +kernel))),
   ran ((((((h v504 (.pf 0) r503).2.2.2.2.2.2.2.2.2.2.2.2.2.1) (sv (by decide +kernel)) (by decide +kernel) (by decide +kernel) (by decide +kernel)).2) (by decide +kernel))),
   ran ((((((h v506 (.pf 0) r505).2.2.2.2.2.2.2.2.2.2.2.2.2.2.1) (sv (by decide +kernel)) (by decide +kernel) (by decide +kernel) (by decide +kernel)).1) (by decide +kernel) (by decide +kernel))),
   ran ((((((h v508 (.pf 0) r507).2.2.2.2.2.2.2.2.2.2.2.2.2.2.1) (sv (by decide +kernel)) (by decide +kernel) (by decide +kernel) (by decide +kernel)).2) (by decide +kernel))),
   ran ((((h v510 (.pf 0) r509).2.2.2.2.2.2.2.2.2.2.2.2.2.2.2) (sv (by decide +kernel)) (by decide +kernel) (by decide +kernel) (by decide +kernel) (by decide +kernel) (by decide +kernel) (by decide +kernel) (by decide +kernel) (by decide +kernel))),
   ran ((((h v514 (.pf 0) r513).2.2.2.2.2.2.2.2.2.2.2.2.2.2.2) (sv (by decide +kernel)) (by decide +kernel) (by decide +kernel) (by decide +kernel) (by decide +kernel) (by decide +kernel) (by decide +kernel) (by decide +kernel) (by decide +kernel)))⟩

end HealthCommands

namespace SecurityCommands

def su : State := { pkA with sec := { State.reset.sec with epoch := 7, unlocked := true, sessions := [(1, 5)], ownerKey := some [1], challenge := some (99, 1000), uploads := [] }, fns := [(3, { vA with tdi := 2 }), (4, { vA with tdi := 1 })] }
def r601 : Bytes := rq 0x801 0 (zeros 0)
def v602 : State := srv su .sec r601
def r603 : Bytes := rq 0x801 0 (zeros 0)
def v604 : State := srv su .mgmt r603
def kl : State := { su with jobs := [(0, { tj with state := 2 }), (4, { tj with state := 3, entry := 1 }), (5, { tj with state := 4, entry := 2, killStatus := 7 }), (6, { tj with part := 1 })] }
def r605 : Bytes := rq 0x802 0 (zeros 0 ++ zeros 0 ++ le 4 0)
def v606 : State := srv kl .mgmt r605
def r607 : Bytes := rq 0x802 1 (zeros 0 ++ zeros 0 ++ le 4 7)
def v608 : State := srv kl .mgmt r607
def r609 : Bytes := rq 0x802 1 (zeros 0 ++ zeros 0 ++ le 4 6)
def v610 : State := srv kl .mgmt r609
def ldK : Load := { part := 0, bytes := 512, op := 9 }
def lk : State := { su with loads := [(4, {}), (5, ldK)] }
def r611 : Bytes := rq 0x803 0 (zeros 0 ++ zeros 0 ++ le 4 5 ++ zeros 0 ++ le 2 244 ++ zeros 0 ++ (le 2 1 ++ le 2 0 ++ le 4 7 ++ List.replicate 48 5#8 ++ zeros 145 ++ zeros 3 ++ zeros 40))
def v612 : State := srv lk .mgmt r611
def r613 : Bytes := rq 0x803 0 (zeros 0 ++ zeros 0 ++ le 4 5 ++ zeros 0 ++ le 2 244 ++ zeros 0 ++ (le 2 1 ++ le 2 0 ++ le 4 7 ++ List.replicate 48 5#8 ++ zeros 145 ++ zeros 3 ++ zeros 40))
def v614 : State := srv lk .sec r613
def r615 : Bytes := rq 0x803 0 (zeros 0 ++ zeros 0 ++ le 4 5 ++ zeros 0 ++ le 2 244 ++ zeros 0 ++ (le 2 1 ++ le 2 0 ++ le 4 6 ++ List.replicate 48 5#8 ++ zeros 145 ++ zeros 3 ++ zeros 40))
def v616 : State := srv lk .sec r615
def lo : State := { su with mail := { State.reset.mail with lockout := 4 } }
def r617 : Bytes := rq 0x804 0 (zeros 0 ++ zeros 0 ++ le 1 1)
def v618 : State := srv lo .mgmt r617
def r619 : Bytes := rq 0x804 1 (zeros 0 ++ zeros 0 ++ le 1 1 ++ zeros 1 ++ le 2 2)
def v620 : State := srv lo .mgmt r619
def r621 : Bytes := rq 0x804 0 (zeros 0 ++ zeros 0 ++ le 1 0)
def v622 : State := srv lo .mgmt r621
def r623 : Bytes := rq 0x805 0 (zeros 0 ++ zeros 0 ++ le 1 0)
def v624 : State := srv su .mgmt r623
def suN : State := { su with sec := { su.sec with ownerKey := none } }
def r625 : Bytes := rq 0x805 0 (zeros 0 ++ zeros 0 ++ le 1 0)
def v626 : State := srv suN .mgmt r625
def r627 : Bytes := rq 0x805 0 (zeros 0 ++ zeros 0 ++ le 1 1 ++ zeros 1 ++ le 2 160 ++ zeros 0 ++ (su.challengeBlob 99 ++ zeros 96))
def v628 : State := srv su .mgmt r627
def r629 : Bytes := rq 0x805 0 (zeros 0 ++ zeros 0 ++ le 1 1 ++ zeros 1 ++ le 2 160 ++ zeros 0 ++ (su.challengeBlob 99 ++ zeros 96))
def v630 : State := srv su .mgmt r629
def r631 : Bytes := rq 0x805 0 (zeros 0 ++ zeros 0 ++ le 1 1 ++ zeros 1 ++ le 2 160)
def v632 : State := srv su .mgmt r631
def sud : State := { su with dbg := { State.reset.dbg with faultStop := true, bps := [(0, { enable := true }), (1, { enable := false, pc := 4 })] }, tiles := [(0, { trace := some 5 }), (9, {})] }
def r633 : Bytes := rq 0x805 0 (zeros 0 ++ zeros 0 ++ le 1 2)
def v634 : State := srv sud .mgmt r633
def r635 : Bytes := rq 0x806 1 (zeros 0 ++ zeros 0 ++ le 4 5000 ++ zeros 0 ++ le 1 1)
def v636 : State := srv su .mgmt r635
def suU : State := { su with sec := { su.sec with uploads := [{ kind := 0x806 }] } }
def r637 : Bytes := rq 0x806 0 (zeros 0 ++ zeros 0 ++ le 4 5000)
def v638 : State := srv suU .mgmt r637
def r639 : Bytes := rq 0x807 0 (zeros 0)
def v640 : State := srv su .sec r639
def qH : Part := { tq with season := some seA }
def jH : Job := { tj with state := 2 }
def hA : State := { busy with parts := [(0, qH)], jobs := [(0, jH)], tiles := [(0, tx), (1, { tx with run := 3 }), (2, { tx with run := 1 }), (17, tx)], sec := su.sec }
def r641 : Bytes := rq 0xA01 0 (zeros 0 ++ zeros 0 ++ le 2 0)
def v642 : State := srv hA (.pf 0) r641
def lkS : LockState := { pc := 64, saved := [(1, 77)], count := 2 }
def qHw : Part := { qH with stop := { state := 1, lockWait := true } }
def hL : State := { hA with parts := [(0, qHw)], tiles := [(0, { tx with lock := some lkS, haltReq := some 100 }), (1, { tx with run := 3 })] }
def r643 : Bytes := rq 0xA01 1 (zeros 0 ++ zeros 0 ++ le 2 0 ++ zeros 0 ++ le 1 1)
def v644 : State := srv hL (.pf 0) r643
def hT : State := { hA with tiles := [(0, { tx with haltReq := some 100 }), (1, { tx with lock := some lkS, haltReq := some 100 })] }
def zz : Bytes := []
def hB : State := { hA with dbg := { State.reset.dbg with bps := [(3, { enable := true, tile := 0, pc := tx.pc })] } }
def qHs : Part := { qH with stop := { state := 2, cause := 1 } }
def hR : State := { hA with parts := [(0, qHs)], tiles := [(0, { tx with run := 2 }), (1, { tx with run := 3 }), (16, { tx with run := 2 })] }
def r645 : Bytes := rq 0xA02 0 (zeros 0 ++ zeros 0 ++ le 2 0)
def v646 : State := srv hR (.pf 0) r645
def r647 : Bytes := rq 0xA02 1 (zeros 0 ++ zeros 0 ++ le 2 0 ++ zeros 0 ++ le 2 1)
def v648 : State := srv hR (.pf 0) r647
def r649 : Bytes := rq 0xA02 1 (zeros 0 ++ zeros 0 ++ le 2 0 ++ zeros 0 ++ le 2 4096)
def v650 : State := srv hR (.pf 0) r649
def r651 : Bytes := rq 0xA05 0 (zeros 0 ++ zeros 0 ++ le 2 0 ++ zeros 0 ++ le 1 0 ++ zeros 1 ++ le 4 255)
def v652 : State := srv hR (.pf 0) r651
def r653 : Bytes := rq 0xA05 1 (zeros 0 ++ zeros 0 ++ le 2 0 ++ zeros 0 ++ le 1 1 ++ zeros 1 ++ le 4 255)
def v654 : State := srv hR (.pf 0) r653
def r655 : Bytes := rq 0xA03 1 (zeros 0 ++ zeros 0 ++ le 2 0 ++ zeros 0 ++ le 2 64 ++ zeros 0 ++ le 2 56)
def v656 : State := srv hR (.pf 0) r655
def r661 : Bytes := rq 0xA03 0 (zeros 0 ++ zeros 0 ++ le 2 5 ++ zeros 0 ++ le 2 32768 ++ zeros 0 ++ le 2 0)
def v662 : State := srv hA (.pf 0) r661
def r663 : Bytes := rq 0xA04 0 (zeros 0 ++ zeros 0 ++ le 2 0 ++ zeros 0 ++ le 2 64 ++ zeros 0 ++ le 2 0)
def v664 : State := srv hR (.pf 0) r663
def r669 : Bytes := rq 0xA04 0 (zeros 0 ++ zeros 0 ++ le 2 61441 ++ zeros 0 ++ le 2 4095 ++ zeros 0 ++ le 2 0)
def v670 : State := srv hA (.pf 0) r669

theorem wit_SecurityAndDebugCommands : Obligations.SecurityAndDebugCommands →
    Ran (.secStatus Mbox.sec) v602 ∧
    Ran (.secStatus Mbox.mgmt) v604 ∧
    Ran (.tenantTurnover Mbox.mgmt) v606 ∧
    Ran (.tenantTurnover Mbox.mgmt) v608 ∧
    Ran (.tenantTurnover Mbox.mgmt) v610 ∧
    Ran (.weightKeyImport Mbox.mgmt true) v612 ∧
    Ran (.weightKeyImport Mbox.sec false) v614 ∧
    Ran (.weightKeyImport Mbox.sec false) v616 ∧
    Ran (.hostLockout Mbox.mgmt) v618 ∧
    Ran (.hostLockout Mbox.mgmt) v620 ∧
    Ran (.hostLockout Mbox.mgmt) v622 ∧
    Ran (.debugUnlockChallenge Mbox.mgmt) v624 ∧
    Ran (.debugUnlockChallenge Mbox.mgmt) v626 ∧
    Ran (.debugUnlockResponse Mbox.mgmt true) v628 ∧
    Ran (.debugUnlockResponse Mbox.mgmt false) v630 ∧
    Ran (.debugUnlockResponse Mbox.mgmt false) v632 ∧
    Ran (.debugRelock Mbox.mgmt) v634 ∧
    Ran (.fwUpdate Mbox.mgmt) v636 ∧
    Ran (.fwUpdate Mbox.mgmt) v638 ∧
    Ran (.ownershipRead Mbox.sec) v640 ∧
    Ran (.dbgHalt (Mbox.pf 0)) v642 ∧
    Ran (.dbgHalt (Mbox.pf 0)) v644 ∧
    Ran (.tileHalt 0) hT ∧
    Ran (.lockWait 1) hT ∧
    Ran (.haltTimeout 0) hT ∧
    Ran (.breakpointHit 0) hB ∧
    Ran (.dbgResume (Mbox.pf 0)) v646 ∧
    Ran (.dbgResume (Mbox.pf 0)) v648 ∧
    Ran (.dbgResume (Mbox.pf 0)) v650 ∧
    Ran (.dbgTrace (Mbox.pf 0)) v652 ∧
    Ran (.dbgTrace (Mbox.pf 0)) v654 ∧
    Ran (.dbgPeek (Mbox.pf 0)) v656 ∧
    Ran (.dbgPeek (Mbox.pf 0)) v662 ∧
    Ran (.dbgTake (Mbox.pf 0)) v664 ∧
    Ran (.dbgTake (Mbox.pf 0)) v670 := fun h =>
  ⟨ran ((((h v602 .sec r601).1) (sv (by decide +kernel)))),
   ran ((((h v604 .mgmt r603).1) (sv (by decide +kernel)))),
   ran ((((((h v606 .mgmt r605).2.1) (sv (by decide +kernel))).1) (by decide +kernel))),
   ran ((((((h v608 .mgmt r607).2.1) (sv (by decide +kernel))).1) (by decide +kernel))),
   ran ((((((h v610 .mgmt r609).2.1) (sv (by decide +kernel))).2) (by decide +kernel) (by decide +kernel))),
   ran ((((((h v612 .mgmt r611).2.2.1) (sv (by decide +kernel)) ldK (by decide +kernel) (by decide +kernel) (by decide +kernel) (by decide +kernel) (by decide +kernel) (by decide +kernel)).1) (by decide +kernel) (by decide +kernel))),
   ran (((((h v614 .sec r613).2.2.1) (sv (by decide +kernel)) ldK (by decide +kernel) (by decide +kernel) (by decide +kernel) (by decide +kernel) (by decide +kernel) (by decide +kernel)).2)),
   ran (((((h v616 .sec r615).2.2.1) (sv (by decide +kernel)) ldK (by decide +kernel) (by decide +kernel) (by decide +kernel) (by decide +kernel) (by decide +kernel) (by decide +kernel)).2)),
   ran ((((((h v618 .mgmt r617).2.2.2.1) (sv (by decide +kernel)) (by decide +kernel) (by decide +kernel) (by decide +kernel)).1) (by decide +kernel) (by decide +kernel))),
   ran ((((((h v620 .mgmt r619).2.2.2.1) (sv (by decide +kernel)) (by decide +kernel) (by decide +kernel) (by decide +kernel)).1) (by decide +kernel) (by decide +kernel))),
   ran ((((((h v622 .mgmt r621).2.2.2.1) (sv (by decide +kernel)) (by decide +kernel) (by decide +kernel) (by decide +kernel)).2) (by decide +kernel))),
   ran ((((((((h v624 .mgmt r623).2.2.2.2.1) (sv (by decide +kernel)) (by decide +kernel)).1) (by decide +kernel) (by decide +kernel)).1) (by decide +kernel))),
   ran ((((((((h v626 .mgmt r625).2.2.2.2.1) (sv (by decide +kernel)) (by decide +kernel)).1) (by decide +kernel) (by decide +kernel)).2) (by decide +kernel))),
   ran ((((((((h v628 .mgmt r627).2.2.2.2.1) (sv (by decide +kernel)) (by decide +kernel)).2.1) (by decide +kernel) (by decide +kernel) 99 1000 (by decide +kernel) (by decide +kernel)).1) (by decide +kernel))),
   ran (((((((h v630 .mgmt r629).2.2.2.2.1) (sv (by decide +kernel)) (by decide +kernel)).2.1) (by decide +kernel) (by decide +kernel) 99 1000 (by decide +kernel) (by decide +kernel)).2)),
   ran (((((((h v632 .mgmt r631).2.2.2.2.1) (sv (by decide +kernel)) (by decide +kernel)).2.1) (by decide +kernel) (by decide +kernel) 99 1000 (by decide +kernel) (by decide +kernel)).2)),
   ran ((((((h v634 .mgmt r633).2.2.2.2.1) (sv (by decide +kernel)) (by decide +kernel)).2.2) (by decide +kernel) (by decide +kernel) (by decide +kernel))),
   ran ((((((h v636 .mgmt r635).2.2.2.2.2.1) (sv (by decide +kernel)) (by decide +kernel)).1) (by decide +kernel))),
   ran ((((((h v638 .mgmt r637).2.2.2.2.2.1) (sv (by decide +kernel)) (by decide +kernel)).2) (by decide +kernel))),
   ran ((((h v640 .sec r639).2.2.2.2.2.2.1) (sv (by decide +kernel)))),
   ran ((((((h v642 (.pf 0) r641).2.2.2.2.2.2.2.1) (sv (by decide +kernel)) 0 0 qH 0 jH (by decide +kernel) (by decide +kernel) (by decide +kernel) (by decide +kernel) (by decide +kernel) (by decide +kernel) (by decide +kernel) (by decide +kernel)).1) (by decide +kernel) (by decide +kernel))),
   ran ((((((h v644 (.pf 0) r643).2.2.2.2.2.2.2.1) (sv (by decide +kernel)) 0 0 qHw 0 jH (by decide +kernel) (by decide +kernel) (by decide +kernel) (by decide +kernel) (by decide +kernel) (by decide +kernel) (by decide +kernel) (by decide +kernel)).2) 0 lkS (by decide +kernel) (by decide +kernel) (by decide +kernel) (by decide +kernel) (by decide +kernel) (by decide +kernel) (by decide +kernel))),
   ran ((((((h hT (.pf 0) zz).2.2.2.2.2.2.2.2.1) 0 100 (by decide +kernel)).1) (by decide +kernel) (by decide +kernel) (by decide +kernel) (by decide +kernel))),
   ⟨_, (((((h hT (.pf 0) zz).2.2.2.2.2.2.2.2.1) 1 100 (by decide +kernel)).2.1) 0 (by decide +kernel) (by decide +kernel) (by decide +kernel))⟩,
   ran ((((((h hT (.pf 0) zz).2.2.2.2.2.2.2.2.1) 0 100 (by decide +kernel)).2.2) 0 0 jH (by decide +kernel) (by decide +kernel) (by decide +kernel) (by decide +kernel) (by decide +kernel) (by decide +kernel))),
   ran ((((h hB (.pf 0) zz).2.2.2.2.2.2.2.2.2.1) 0 0 qH 3 (by decide +kernel) (by decide +kernel) (by decide +kernel) (by decide +kernel) (by decide +kernel) (by decide +kernel) (by decide +kernel) (by decide +kernel))),
   ran ((((((((h v646 (.pf 0) r645).2.2.2.2.2.2.2.2.2.2.1) 0 0 qHs (by decide +kernel)).1) (sv (by decide +kernel)) (by decide +kernel) (by decide +kernel) (by decide +kernel) (by decide +kernel) (by decide +kernel)).1) (by decide +kernel))),
   ran ((((((((h v648 (.pf 0) r647).2.2.2.2.2.2.2.2.2.2.1) 0 0 qHs (by decide +kernel)).1) (sv (by decide +kernel)) (by decide +kernel) (by decide +kernel) (by decide +kernel) (by decide +kernel) (by decide +kernel)).2) 0 jH (by decide +kernel) (by decide +kernel) (by decide +kernel) (by decide +kernel) (by decide +kernel))),
   ran ((((((((h v650 (.pf 0) r649).2.2.2.2.2.2.2.2.2.2.1) 0 0 qHs (by decide +kernel)).1) (sv (by decide +kernel)) (by decide +kernel) (by decide +kernel) (by decide +kernel) (by decide +kernel) (by decide +kernel)).2) 0 jH (by decide +kernel) (by decide +kernel) (by decide +kernel) (by decide +kernel) (by decide +kernel))),
   ran ((((((((h v652 (.pf 0) r651).2.2.2.2.2.2.2.2.2.2.1) 0 0 qHs (by decide +kernel)).2) (sv (by decide +kernel)) (by decide +kernel) (by decide +kernel)).2) (by decide +kernel))),
   ran ((((((((h v654 (.pf 0) r653).2.2.2.2.2.2.2.2.2.2.1) 0 0 qHs (by decide +kernel)).2) (sv (by decide +kernel)) (by decide +kernel) (by decide +kernel)).1) (by decide +kernel) (by decide +kernel))),
   ran ((((((h v656 (.pf 0) r655).2.2.2.2.2.2.2.2.2.2.2) false (by decide +kernel) (by decide +kernel)).1) (sv (by decide +kernel)) (by decide +kernel) (by decide +kernel) (by decide +kernel) (Or.inr (Or.inl ⟨0, 0, by decide +kernel, by decide +kernel, by decide +kernel⟩)))),
   ran ((((((h v662 (.pf 0) r661).2.2.2.2.2.2.2.2.2.2.2) false (by decide +kernel) (by decide +kernel)).1) (sv (by decide +kernel)) (by decide +kernel) (by decide +kernel) (by decide +kernel) (Or.inr (Or.inr (by decide +kernel))))),
   ran ((((((h v664 (.pf 0) r663).2.2.2.2.2.2.2.2.2.2.2) false (by decide +kernel) (by decide +kernel)).2) (sv (by decide +kernel)) (by decide +kernel) (Or.inr (Or.inl ⟨0, 0, by decide +kernel, by decide +kernel, by decide +kernel⟩)))),
   ran ((((((h v670 (.pf 0) r669).2.2.2.2.2.2.2.2.2.2.2) true (by decide +kernel) (by decide +kernel)).2) (sv (by decide +kernel)) (by decide +kernel) (Or.inl rfl)))⟩

end SecurityCommands

namespace Registers

def lo : State := { pkA with mail := { State.reset.mail with lockout := 0x7FE } }
def st : State := { pkA with start := { rdy.start with stage := 3 } }
def f7 : State := { pkA with start := { rdy.start with stage := 7 } }
def b801 : State := { pkA with mail := { pkA.mail with boxes := [(0, { state := 2, req := Mem.write [] 0 (rq 0x999 0 ([])) })] } }
def b810 : State := { f7 with mail := { f7.mail with boxes := [(0, { state := 2, req := Mem.write [] 0 (rq 0x301 0 ([])) })] } }
def b811 : State := { pkA with mail := { pkA.mail with boxes := [(0, { state := 2, req := Mem.write [] 0 (rq 0x301 0 ([])) })] } }
def b817 : State := { f7 with mail := { f7.mail with boxes := [(0, { state := 2, req := Mem.write [] 0 (rq 0x704 0 ([])) })] } }
def b818 : State := { pkA with mail := { pkA.mail with boxes := [(0, { state := 2, req := Mem.write [] 0 (rq 0x10A 0 ([])) })] } }
def b819 : State := { f7 with mail := { f7.mail with boxes := [(4, { state := 2, req := Mem.write [] 0 (rq 0x999 0 ([])) })] } }
def b820 : State := { pkA with mail := { pkA.mail with boxes := [(0, { state := 2, req := Mem.write [] 0 (rq 0x802 0 ([])) })] } }
def b821 : State := { lo with mail := { lo.mail with boxes := [(4, { state := 2, req := Mem.write [] 0 (rq 0x301 0 ([])) })] } }
def b822 : State := { lo with mail := { lo.mail with boxes := [(0, { state := 2, req := Mem.write [] 0 (rq 0x301 0 ([])) })] } }
def b824 : State := { lo with mail := { lo.mail with boxes := [(0, { state := 2, req := Mem.write [] 0 (rq 0x103 0 ([])) })] } }
def b825 : State := { st with mail := { st.mail with boxes := [(0, { state := 2, req := Mem.write [] 0 (rq 0x301 0 ([])) })] } }
def cr : State := { pkA with ladder := { cpRestart := [(1, 3000)] } }
def b826 : State := { cr with mail := { cr.mail with boxes := [(0, { state := 2, req := Mem.write [] 0 (rq 0x301 0 ([])) })] } }
def b827 : State := { pkA with mail := { pkA.mail with boxes := [(0, { state := 2, req := Mem.write [] 0 (rq 0x301 0 ([])), taken := some [1], discard := true })] } }
def wi : State := { rdy with pwr := { rdy.pwr with state := 0, ready := false, cpClock := false }, intcs := [(0, { srcs := [(srcKey 0 66, { enable := true, wake := true })] })] }
def b828 : State := { wi with mail := { wi.mail with boxes := [(0, { state := 2, req := Mem.write [] 0 (rq 0x301 0 ([])) })] } }
def b829 : State := { pkA with mail := { pkA.mail with boxes := [(9, { state := 2, req := Mem.write [] 0 (rq 0x301 0 ([])) })] } }
def b830 : State := { pkA with mail := { pkA.mail with boxes := [(0, { state := 2, req := Mem.write [] 0 (rq 0x301 0 ([])), head := 14, tail := 2 })] } }
def cq : State := { pkA with sec := { State.reset.sec with unlocked := true }, intcs := [(0, { srcs := [(srcKey 0 6, { enable := true, edge := true })] }), (1, { srcs := [(srcKey 1 6, { enable := true, edge := true })] })] }
def ra : State := { pkA with ports := [(0, { state := 3, ce := 5, ue := 3, silent := 9, discard := 2 }), (2, { ue := 1 })], regs := { writeHold := [(latchKey 512 2 0x400410, 9)], readLatch := [(latchKey 512 2 0x400410, 77)] }, alm := { State.reset.alm with month := 0x123456789AB, sems := [(5, 6)] } }
def a78 : RegAccess := { off := 3, size := 4 }
def a86 : RegAccess := { fn := 3, bar := 2, off := 2, size := 4 }
def a88 : RegAccess := { off := 0x410028, size := 4, write := true, data := 0x1234567899 }
def a90 : RegAccess := { off := 0x41002C, size := 4, write := true, data := 0x1234567899 }
def ra2 : State := { ra with regs := { writeHold := [(latchKey 512 2 0x410028, 9)], readLatch := [(latchKey 512 2 0x410028, 77)] } }
def a93 : RegAccess := { off := 0x41002C, size := 4, write := true, data := 0x1234567899 }
def a95 : RegAccess := { off := 0x400010, size := 4 }
def ra3 : State := { ra with regs := { readLatch := [(latchKey 512 2 0x400010, 0xFFFFFFFF)] } }
def a106 : RegAccess := { off := 0x400014, size := 4 }
def a108 : RegAccess := { fn := 3, bar := 4, off := 0x800, size := 4, master := 3 }
def a110 : RegAccess := { off := 0x410028, size := 8, master := 3, write := true }
def a122 : RegAccess := { fn := 3, bar := 2, off := 0x14, size := 4, master := 4, write := true }
def rb : State := { pkA with mail := { State.reset.mail with boxes := [(0, { lostCount := 5 }), (9, { lostCount := 0x100000007 })] }, buildMax := [(0, 7), (1, 9)], hl := { rdy.hl with ce := 4, ue := 5, nackDark := [(0, 4), (1, 65535)], nackReset := [(0, 3)], nackRoute := [(1, 9)], meshAudit := [1], meshCe := [(0, 6)], meshUeData := [(1, 5)], meshUeHead := [(0, 1)] }, solvers := [(0, { partials := 5, pivot := 4, poisoned := 3, latency := 99 })], parts := [(0, { qA with switchMax := 9, nackDark := 3, nackReset := 4, nackRoute := 5, holds := 4, maxTicks := 5, faults := 6, memCe := 3, memUe := 4, retired := 5, compares := 9, mismatches := 8, lastLayer := 7 })], jobs := [(0, { tj with silentTotal := 5, peers := [(4, 2)] })], ports := [(0, { state := 3, ce := 5, ue := 3, silent := 9, discard := 2 })], alm := { State.reset.alm with skewLast := -5, skewMax := 9 }, pwr := { rdy.pwr with quietLate := 3, unplannedWakes := 4, gateDeferred := 5, tempMax := 90, auditMonths := 4, auditFails := 5, lastBook := 6 }, start := { rdy.start with earlyWrites := 7 }, sec := { State.reset.sec with violations := 3, vMaster := 5, vTarget := 6, vNeed := 1, unlocked := true }, dbg := { State.reset.dbg with next := 5, wrapped := true, lost := 9 } }
def qrb : Part := rb.parts.val 0 {}
def jrb : Job := rb.jobs.val 0 {}

theorem wit_MailboxProtocol : Obligations.MailboxProtocol →
    Ran (.go (Mbox.pf 0)) b801 ∧
    Ran (.go (Mbox.pf 0)) b810 ∧
    Ran (.go (Mbox.pf 0)) b811 ∧
    Ran (.go (Mbox.pf 0)) b817 ∧
    Ran (.go (Mbox.pf 0)) b818 ∧
    Ran (.go Mbox.sec) b819 ∧
    Ran (.go (Mbox.pf 0)) b820 ∧
    Ran (.go Mbox.sec) b821 ∧
    Ran (.go (Mbox.pf 0)) b822 ∧
    Ran (.go (Mbox.pf 0)) b824 ∧
    Ran (.go (Mbox.pf 0)) b825 ∧
    Ran (.go (Mbox.pf 0)) b826 ∧
    Ran (.go (Mbox.pf 0)) b827 ∧
    Ran (.go (Mbox.pf 0)) b828 ∧
    Ran (.ack (Mbox.vf 3)) b829 ∧
    Ran (.ack (Mbox.vf 3)) pkA ∧
    Ran (.ack (Mbox.vf 3)) b829 ∧
    Ran (.mbNoticeHead (Mbox.pf 0) 14) b830 ∧
    Ran (.mbNoticeHead (Mbox.pf 0) 2) b830 ∧
    Ran (.cpReq 0) cq ∧
    Ran (.cpReq 3) cq ∧
    Ran (.cpReq 2) pkA ∧
    Ran (.cpReq 9) pkA := fun h =>
  ⟨ran ((((((((((h b801 (.pf 0)).1) (by decide +kernel) (by decide +kernel) (by decide +kernel) (by decide +kernel) (by decide +kernel) (by decide +kernel)).1) (by decide +kernel) (by decide +kernel) (by decide +kernel)).1) (by decide +kernel)).1) 0x100 0 (by decide +kernel))),
   ran ((((((((((h b810 (.pf 0)).1) (by decide +kernel) (by decide +kernel) (by decide +kernel) (by decide +kernel) (by decide +kernel) (by decide +kernel)).1) (by decide +kernel) (by decide +kernel) (by decide +kernel)).1) (by decide +kernel)).1) 0x107 0 (by decide +kernel))),
   ran ((((((((((h b811 (.pf 0)).1) (by decide +kernel) (by decide +kernel) (by decide +kernel) (by decide +kernel) (by decide +kernel) (by decide +kernel)).1) (by decide +kernel) (by decide +kernel) (by decide +kernel)).1) (by decide +kernel)).2.1) (by decide +kernel))),
   ran ((((((((((h b817 (.pf 0)).1) (by decide +kernel) (by decide +kernel) (by decide +kernel) (by decide +kernel) (by decide +kernel) (by decide +kernel)).1) (by decide +kernel) (by decide +kernel) (by decide +kernel)).1) (by decide +kernel)).2.1) (by decide +kernel))),
   ran ((((((((((h b818 (.pf 0)).1) (by decide +kernel) (by decide +kernel) (by decide +kernel) (by decide +kernel) (by decide +kernel) (by decide +kernel)).1) (by decide +kernel) (by decide +kernel) (by decide +kernel)).1) (by decide +kernel)).2.2.1) (by decide +kernel))),
   ran ((((((((((h b819 .sec).1) (by decide +kernel) (by decide +kernel) (by decide +kernel) (by decide +kernel) (by decide +kernel) (by decide +kernel)).1) (by decide +kernel) (by decide +kernel) (by decide +kernel)).1) (by decide +kernel)).2.2.1) (by decide +kernel))),
   ran ((((((((((h b820 (.pf 0)).1) (by decide +kernel) (by decide +kernel) (by decide +kernel) (by decide +kernel) (by decide +kernel) (by decide +kernel)).1) (by decide +kernel) (by decide +kernel) (by decide +kernel)).1) (by decide +kernel)).2.2.2.1) (by decide +kernel) (by decide +kernel))),
   ran ((((((((((h b821 .sec).1) (by decide +kernel) (by decide +kernel) (by decide +kernel) (by decide +kernel) (by decide +kernel) (by decide +kernel)).1) (by decide +kernel) (by decide +kernel) (by decide +kernel)).1) (by decide +kernel)).2.2.2.1) (by decide +kernel) (by decide +kernel))),
   ran ((((((((((((h b822 (.pf 0)).1) (by decide +kernel) (by decide +kernel) (by decide +kernel) (by decide +kernel) (by decide +kernel) (by decide +kernel)).1) (by decide +kernel) (by decide +kernel) (by decide +kernel)).1) (by decide +kernel)).2.2.2.2) 0 1 (by decide +kernel) (by decide +kernel) (by decide +kernel) (by decide +kernel) (by decide +kernel) (by decide +kernel)).1) (by decide +kernel))),
   ran ((((((((((((h b824 (.pf 0)).1) (by decide +kernel) (by decide +kernel) (by decide +kernel) (by decide +kernel) (by decide +kernel) (by decide +kernel)).1) (by decide +kernel) (by decide +kernel) (by decide +kernel)).1) (by decide +kernel)).2.2.2.2) 0 1 (by decide +kernel) (by decide +kernel) (by decide +kernel) (by decide +kernel) (by decide +kernel) (by decide +kernel)).1) (by decide +kernel))),
   ran ((((((((((((h b825 (.pf 0)).1) (by decide +kernel) (by decide +kernel) (by decide +kernel) (by decide +kernel) (by decide +kernel) (by decide +kernel)).1) (by decide +kernel) (by decide +kernel) (by decide +kernel)).1) (by decide +kernel)).2.2.2.2) 0 1 (by decide +kernel) (by decide +kernel) (by decide +kernel) (by decide +kernel) (by decide +kernel) (by decide +kernel)).2) (by decide +kernel) (by decide +kernel))),
   ran ((((((((h b826 (.pf 0)).1) (by decide +kernel) (by decide +kernel) (by decide +kernel) (by decide +kernel) (by decide +kernel) (by decide +kernel)).1) (by decide +kernel) (by decide +kernel) (by decide +kernel)).2) (by decide +kernel) (by decide +kernel))),
   ran ((((((h b827 (.pf 0)).1) (by decide +kernel) (by decide +kernel) (by decide +kernel) (by decide +kernel) (by decide +kernel) (by decide +kernel)).2.1) [1] (by decide +kernel) (by decide +kernel))),
   ran ((((((h b828 (.pf 0)).1) (by decide +kernel) (by decide +kernel) (by decide +kernel) (by decide +kernel) (by decide +kernel) (by decide +kernel)).2.2) 0 (by decide +kernel) (by decide +kernel) (by decide +kernel) (by decide +kernel) (by decide +kernel))),
   ⟨_, (((h b829 (.vf 3)).2.1) (by decide +kernel))⟩,
   ⟨_, (((h pkA (.vf 3)).2.2.1) (by decide +kernel))⟩,
   ⟨_, (((h b829 (.vf 3)).2.1) (by decide +kernel))⟩,
   ⟨_, (((h b830 (.pf 0)).2.2.2.1) 14 (by decide +kernel) (by decide +kernel) (by decide +kernel) (by decide +kernel))⟩,
   ⟨_, (((h b830 (.pf 0)).2.2.2.1) 2 (by decide +kernel) (by decide +kernel) (by decide +kernel) (by decide +kernel))⟩,
   ran ((((h cq (.pf 0)).2.2.2.2.1) 0 (by decide +kernel) (by decide +kernel) (by decide +kernel) (by decide +kernel) (by decide +kernel) (by decide +kernel) (by decide +kernel) (by decide +kernel) (by decide +kernel))),
   ran ((((h cq (.pf 0)).2.2.2.2.1) 3 (by decide +kernel) (by decide +kernel) (by decide +kernel) (by decide +kernel) (by decide +kernel) (by decide +kernel) (by decide +kernel) (by decide +kernel) (by decide +kernel))),
   ⟨_, (((h pkA (.pf 0)).2.2.2.2.2) 2 (by decide +kernel))⟩,
   ⟨_, (((h pkA (.pf 0)).2.2.2.2.2) 9 (by decide +kernel))⟩⟩

theorem wit_RegisterAccesses : Obligations.RegisterAccesses →
    Ran (.misalignedAccess a78) ra ∧
    Ran (.misalignedAccess a86) ra ∧
    Ran (.lowHalfWrite a88) ra ∧
    Ran (.highHalfWrite a90) ra ∧
    Ran (.highHalfWrite a93) ra2 ∧
    Ran (.lowHalfRead a95) ra ∧
    Ran (.highHalfRead a106) ra3 ∧
    Ran (.lowHalfRead a108) ra3 ∧
    Ran (.registerWrite a110) ra ∧
    Ran (.registerWrite a122) ra ∧
    Ran (.registerWrite { off := 4096 * 3 + 20, write := true, data := 68719476735#64 }) ra ∧
    Ran (.registerWrite { off := 4096 * 3 + 256 + 4 * 127, write := true, data := 68719476735#64 }) ra ∧
    Ran (.registerWrite { off := 3145824, write := true, data := 261#64 }) ra ∧
    Ran (.registerWrite { off := 4259840 + 8 * 4095, size := 8, write := true, data := 261#64 }) ra ∧
    Ran (.registerWrite { off := 4259840 + 8 * 5, size := 8, write := true, data := 0#64 }) ra ∧
    Ran (.mbNoticeLostRead (Mbox.pf 0)) rb ∧
    Ran (.mbNoticeLostRead (Mbox.pf 3)) rb ∧
    Ran (.mbNoticeLostRead (Mbox.vf 3)) rb ∧
    Ran (.seqBuildRead 0) rb ∧
    Ran (.fabMeshNackRead 0) rb ∧
    Ran (.fabMeshErrRead 0) rb ∧
    Ran (.seqSolverStatsRead 0) rb ∧
    Ran (.seqSolverMaxRead 0) rb ∧
    Ran (.seqBuildRead 1) rb ∧
    Ran (.fabMeshNackRead 1) rb ∧
    Ran (.fabMeshErrRead 1) rb ∧
    Ran (.seqSolverStatsRead 1) rb ∧
    Ran (.seqSolverMaxRead 1) rb ∧
    Ran (.partSwitchMaxRead 0) rb ∧
    Ran (.partUcNackRead 0) rb ∧
    Ran (.partHoldRead 0) rb ∧
    Ran (.partMemerrRead 0) rb ∧
    Ran (.partShadowStatsRead 0) rb ∧
    Ran .fabHlErrRead rb ∧
    Ran (.fabPortErrRead 0) rb ∧
    Ran (.fabPortErrRead 11) rb ∧
    Ran .fabAlmSkewRead rb ∧
    Ran (.fabJobSilentRead 0) rb ∧
    Ran .pwrStatsRead rb ∧
    Ran .pwrThermalRead rb ∧
    Ran .pwrStartRead rb ∧
    Ran .pwrAuditRead rb ∧
    Ran .secViolationRead rb ∧
    Ran .dbgTracePtrRead rb := fun h =>
  ⟨⟨_, (((((h ra).1) a78 (by decide +kernel)).1) (by decide +kernel))⟩,
   ⟨_, (((((h ra).1) a86 (by decide +kernel)).1) (by decide +kernel))⟩,
   ran ((((((((((h ra).1) a88 (by decide +kernel)).2.1) (by decide +kernel) (by decide +kernel) (by decide +kernel) (by decide +kernel)).1) (by decide +kernel) (by decide +kernel)).1) (by decide +kernel))),
   ran ((((((((((h ra).1) a90 (by decide +kernel)).2.1) (by decide +kernel) (by decide +kernel) (by decide +kernel) (by decide +kernel)).1) (by decide +kernel) (by decide +kernel)).2.1) (by decide +kernel) (by decide +kernel))),
   ran ((((((((((h ra2).1) a93 (by decide +kernel)).2.1) (by decide +kernel) (by decide +kernel) (by decide +kernel) (by decide +kernel)).1) (by decide +kernel) (by decide +kernel)).2.2) 9 (by decide +kernel) (by decide +kernel))),
   ran ((((((((((h ra).1) a95 (by decide +kernel)).2.1) (by decide +kernel) (by decide +kernel) (by decide +kernel) (by decide +kernel)).2) (by decide +kernel)).1) (by decide +kernel))),
   ran ((((((((((h ra3).1) a106 (by decide +kernel)).2.1) (by decide +kernel) (by decide +kernel) (by decide +kernel) (by decide +kernel)).2) (by decide +kernel)).2) 0xFFFFFFFF (by decide +kernel) (by decide +kernel))),
   ran ((((((((((h ra3).1) a108 (by decide +kernel)).2.1) (by decide +kernel) (by decide +kernel) (by decide +kernel) (by decide +kernel)).2) (by decide +kernel)).1) (by decide +kernel))),
   ran ((((((h ra).1) a110 (by decide +kernel)).2.2) 6 (by decide +kernel) (by decide +kernel) (by decide +kernel) (by decide +kernel) (by decide +kernel))),
   ran ((((((h ra).1) a122 (by decide +kernel)).2.2) 3 (by decide +kernel) (by decide +kernel) (by decide +kernel) (by decide +kernel) (by decide +kernel))),
   ⟨_, (((((h ra).2.1) (by decide +kernel) (by decide +kernel) (by decide +kernel)).1) 3 0xFFFFFFFFF#64 (by decide +kernel))⟩,
   ⟨_, (((((h ra).2.1) (by decide +kernel) (by decide +kernel) (by decide +kernel)).2.1) 3 127 0xFFFFFFFFF#64 (by decide +kernel) (by decide +kernel))⟩,
   ⟨_, (((((h ra).2.1) (by decide +kernel) (by decide +kernel) (by decide +kernel)).2.2.1) 0x105#64)⟩,
   ran ((((((h ra).2.1) (by decide +kernel) (by decide +kernel) (by decide +kernel)).2.2.2) 4095 0x105#64 (by decide +kernel))),
   ran ((((((h ra).2.1) (by decide +kernel) (by decide +kernel) (by decide +kernel)).2.2.2) 5 0#64 (by decide +kernel))),
   ran ((((((h rb).2.2) (by decide +kernel) (by decide +kernel)).1) 0 (by decide +kernel))),
   ran ((((((h rb).2.2) (by decide +kernel) (by decide +kernel)).1) 3 (by decide +kernel))),
   ran ((((((h rb).2.2) (by decide +kernel) (by decide +kernel)).2.1) 3 (by decide +kernel) (by decide +kernel))),
   ran (((((((h rb).2.2) (by decide +kernel) (by decide +kernel)).2.2.1) 0 (by decide +kernel)).1)),
   ran (((((((h rb).2.2) (by decide +kernel) (by decide +kernel)).2.2.1) 0 (by decide +kernel)).2.1)),
   ran (((((((h rb).2.2) (by decide +kernel) (by decide +kernel)).2.2.1) 0 (by decide +kernel)).2.2.1)),
   ran (((((((h rb).2.2) (by decide +kernel) (by decide +kernel)).2.2.1) 0 (by decide +kernel)).2.2.2.1)),
   ran (((((((h rb).2.2) (by decide +kernel) (by decide +kernel)).2.2.1) 0 (by decide +kernel)).2.2.2.2)),
   ran (((((((h rb).2.2) (by decide +kernel) (by decide +kernel)).2.2.1) 1 (by decide +kernel)).1)),
   ran (((((((h rb).2.2) (by decide +kernel) (by decide +kernel)).2.2.1) 1 (by decide +kernel)).2.1)),
   ran (((((((h rb).2.2) (by decide +kernel) (by decide +kernel)).2.2.1) 1 (by decide +kernel)).2.2.1)),
   ran (((((((h rb).2.2) (by decide +kernel) (by decide +kernel)).2.2.1) 1 (by decide +kernel)).2.2.2.1)),
   ran (((((((h rb).2.2) (by decide +kernel) (by decide +kernel)).2.2.1) 1 (by decide +kernel)).2.2.2.2)),
   ran (((((((h rb).2.2) (by decide +kernel) (by decide +kernel)).2.2.2.1) 0 qrb (by decide +kernel) (by decide +kernel)).1)),
   ran (((((((h rb).2.2) (by decide +kernel) (by decide +kernel)).2.2.2.1) 0 qrb (by decide +kernel) (by decide +kernel)).2.1)),
   ran (((((((h rb).2.2) (by decide +kernel) (by decide +kernel)).2.2.2.1) 0 qrb (by decide +kernel) (by decide +kernel)).2.2.1)),
   ran (((((((h rb).2.2) (by decide +kernel) (by decide +kernel)).2.2.2.1) 0 qrb (by decide +kernel) (by decide +kernel)).2.2.2.1)),
   ran (((((((h rb).2.2) (by decide +kernel) (by decide +kernel)).2.2.2.1) 0 qrb (by decide +kernel) (by decide +kernel)).2.2.2.2)),
   ran (((((h rb).2.2) (by decide +kernel) (by decide +kernel)).2.2.2.2.1)),
   ran ((((((h rb).2.2) (by decide +kernel) (by decide +kernel)).2.2.2.2.2.1) 0 (by decide +kernel))),
   ran ((((((h rb).2.2) (by decide +kernel) (by decide +kernel)).2.2.2.2.2.1) 11 (by decide +kernel))),
   ran (((((h rb).2.2) (by decide +kernel) (by decide +kernel)).2.2.2.2.2.2.1)),
   ran ((((((h rb).2.2) (by decide +kernel) (by decide +kernel)).2.2.2.2.2.2.2.1) 0 jrb (by decide +kernel) (by decide +kernel))),
   ran (((((h rb).2.2) (by decide +kernel) (by decide +kernel)).2.2.2.2.2.2.2.2.1)),
   ran (((((h rb).2.2) (by decide +kernel) (by decide +kernel)).2.2.2.2.2.2.2.2.2.1)),
   ran (((((h rb).2.2) (by decide +kernel) (by decide +kernel)).2.2.2.2.2.2.2.2.2.2.1)),
   ran (((((h rb).2.2) (by decide +kernel) (by decide +kernel)).2.2.2.2.2.2.2.2.2.2.2.1)),
   ran (((((h rb).2.2) (by decide +kernel) (by decide +kernel)).2.2.2.2.2.2.2.2.2.2.2.2.1)),
   ran ((((((h rb).2.2) (by decide +kernel) (by decide +kernel)).2.2.2.2.2.2.2.2.2.2.2.2.2) (by decide +kernel)))⟩

end Registers

namespace SecurityMessages

def ms : State := { pkA with sec := { State.reset.sec with mgmt := some { lastTick := 1500, enrolled := true }, ownerKey := some [4], sessions := [(0, 1000), (2, 5)], linkIde := some 2, selIde := [(1, 2), (2, 0), (3, 2)], eid := 9 }, fns := [(3, { vA with tdi := 2, tdiStream := 1 }), (4, { vA with tdi := 1, tdiStream := 2 }), (5, { vA with tdi := 1, tdiStream := 3 }), (6, vA)] }
def mn : State := { ms with sec := { State.reset.sec with ownerKey := some [4] } }
def mold : State := { ms with sec := { ms.sec with mgmt := some { lastTick := 1000 } }, clk := { ms.clk with tick := 30001000 } }
def rqA : Bytes := rq 0x101 0 []
def rqB : Bytes := rq 0x301 0 (zeros 3)
def mU : State := { ms with sec := { State.reset.sec with mgmt := some { lastTick := 1500 } }, pins := { rdy.pins with enroll := true } }
def mB : State := { ms with mail := { State.reset.mail with boxes := [(5, { state := 1, taken := some [9] })] } }
def u8 : Upload := { op := 9, kind := 0x806, bytes := 20, got := 8 }
def u6 : Upload := { op := 9, kind := 0x605, bytes := 20, got := 8, arg := 0 }
def mku8 : State := { ms with sec := { ms.sec with uploads := [u8] }, mail := { State.reset.mail with ops := [{ op := 9, opcode := 0x806 }] } }
def mku6 : State := { ms with sec := { ms.sec with uploads := [u6] }, mail := { State.reset.mail with ops := [{ op := 9, opcode := 0x605 }] } }
def mr : State := { ms with pwr := { rdy.pwr with ready := false } }
def m4 : State := { ms with sec := { ms.sec with sessions := [(0,1),(1,2),(2,3),(3,4)] } }
def mtt : State := { ms with sec := { ms.sec with turnover := some 9 } }
def mh : State := { ms with clk := { ms.clk with tick := 10001000 } }
def ipk : Mem := Mem.write [] 0 (le 4 0x50544B50 ++ le 2 1 ++ le 2 1 ++ le 4 55 ++ le 4 3 ++ le 1 31 ++ zeros 3 ++ le 4 1024 ++ le 4 16 ++ zeros 36)
def u9 : Upload := { op := 9, kind := 0x605, bytes := 80, got := 68, img := ipk, arg := 0 }
def mk9 : State := { ms with sec := { ms.sec with uploads := [u9] }, mail := { State.reset.mail with ops := [{ op := 9, opcode := 0x605 }] } }
def u9b : Upload := { u9 with bytes := 79 }
def mk8 : State := { ms with sec := { ms.sec with uploads := [u9b] }, mail := { State.reset.mail with ops := [{ op := 9, opcode := 0x605 }] } }

theorem wit_MessagesToTheSecurityProcessor : Obligations.MessagesToTheSecurityProcessor →
    Ran (.mgmtHandshake false) ms ∧
    Ran (.mgmtHandshake false) mn ∧
    Ran (.mgmtHandshake true) mn ∧
    Ran (.mgmtHandshake true) mold ∧
    Ran (.mgmtHandshake true) ms ∧
    Ran (.mgmtHandshake false) ms ∧
    Ran (.request rqA) ms ∧
    Ran (.request rqA) mU ∧
    Ran (.request rqB) mB ∧
    Ran (.request rqB) mU ∧
    Ran .keepalive ms ∧
    Ran (.bulk u8.op u8.got [1, 2] { }) mku8 ∧
    Ran (.bulk u8.op u8.got (List.replicate 12 3#8) { sigOk := false }) mku8 ∧
    Ran (.bulk u8.op u8.got (List.replicate 12 3#8) { svn := ms.ident.minSvn, level := ms.ident.level, version := 77 }) mku8 ∧
    Ran (.bulk u6.op u6.got (List.replicate 12 3#8) { sigOk := false }) mku6 ∧
    Ran (.enroll [7, 8] true) mU ∧
    Ran (.enroll [7, 8] true) ms ∧
    Ran (.enroll [7, 8] false) ms ∧
    Ran (.ownerUpdate [7, 8] true true) ms ∧
    Ran (.ownerUpdate [7, 8] true true) mB ∧
    Ran (.ownerUpdate [7, 8] false true) ms ∧
    Ran (.setEndpointId 1) ms ∧
    Ran (.setEndpointId 254) ms ∧
    Ran (.setEndpointId 0) ms ∧
    Ran .getEndpointId ms ∧
    Ran .getMctpVersionSupport ms ∧
    Ran .getMessageTypeSupport ms ∧
    Ran (.getPdr 0) ms ∧
    Ran (.getPdr 26) ms ∧
    Ran (.getSensorReading 27) ms ∧
    Ran (.getSensorReading 300) ms ∧
    Ran .getStateSensorReadings ms ∧
    Ran .getStateSensorReadings mr ∧
    Ran .managementSessionEnd ms ∧
    Ran .keyExchange ms ∧
    Ran .keyExchange m4 ∧
    Ran (.getMeasurements 1) ms ∧
    Ran (.getMeasurements 23) ms ∧
    Ran .keyExchange mtt ∧
    Ran (.endSession 0) ms ∧
    Ran (.spdmHeartbeat 0) ms ∧
    Ran (.ideKm 0 3) ms ∧
    Ran (.ideKm 0 4) ms ∧
    Ran (.endSession 2) ms ∧
    Ran (.spdmHeartbeat 2) ms ∧
    Ran (.ideKm 2 3) ms ∧
    Ran (.ideKm 2 4) ms ∧
    Ran (.lockInterface 6 1) ms ∧
    Ran (.lockInterface 3 1) ms ∧
    Ran (.startInterface 4) ms ∧
    Ran (.startInterface 3) ms ∧
    Ran (.startInterface 6) ms ∧
    Ran (.stopInterface 3) ms ∧
    Ran (.stopInterface 6) ms ∧
    Ran (.spdmHeartbeatTimeout 0) mh ∧
    Ran (.spdmHeartbeatTimeout 2) mh ∧
    Ran (.ideCheckFailed 4 1 5) ms ∧
    Ran (.ideCheckFailed 2 1 5) ms ∧
    Ran (.bulk u9.op u9.got (List.replicate 12 3#8) { }) mk9 ∧
    Ran (.bulk u9b.op u9b.got (List.replicate 11 3#8) { sigOk := false }) mk8 ∧
    Ran (.getSensorReading 24) ms := fun h =>
  ⟨ran ((((((h ms).1) (by decide +kernel)).1) false (by decide +kernel) (by decide +kernel))),
   ran ((((((h mn).1) (by decide +kernel)).1) false (by decide +kernel) (by decide +kernel))),
   ran ((((((h mn).1) (by decide +kernel)).2.1) true (by decide +kernel) (by decide +kernel))),
   ran ((((((h mold).1) (by decide +kernel)).2.1) true (by decide +kernel) (by decide +kernel))),
   ran ((((((h ms).1) (by decide +kernel)).2.2.1) true { lastTick := 1500, enrolled := true } (by decide +kernel) (by decide +kernel))),
   ran ((((((h ms).1) (by decide +kernel)).2.2.1) false { lastTick := 1500, enrolled := true } (by decide +kernel) (by decide +kernel))),
   ran ((((((((h ms).1) (by decide +kernel)).2.2.2.1) { lastTick := 1500, enrolled := true } (by decide +kernel)).1) rqA (by decide +kernel) (by decide +kernel) (by decide +kernel) (by decide +kernel) (by decide +kernel) (by decide +kernel))),
   ran ((((((((h mU).1) (by decide +kernel)).2.2.2.1) { lastTick := 1500 } (by decide +kernel)).1) rqA (by decide +kernel) (by decide +kernel) (by decide +kernel) (by decide +kernel) (by decide +kernel) (by decide +kernel))),
   ran ((((((((h mB).1) (by decide +kernel)).2.2.2.1) { lastTick := 1500, enrolled := true } (by decide +kernel)).2.1) rqB [9] (by decide +kernel) (by decide +kernel))),
   ran ((((((((h mU).1) (by decide +kernel)).2.2.2.1) { lastTick := 1500 } (by decide +kernel)).2.2.1) rqB (by decide +kernel) (by decide +kernel) (by decide +kernel))),
   ran (((((((h ms).1) (by decide +kernel)).2.2.2.1) { lastTick := 1500, enrolled := true } (by decide +kernel)).2.2.2.1)),
   ran ((((((((((h mku8).1) (by decide +kernel)).2.2.2.1) { lastTick := 1500, enrolled := true } (by decide +kernel)).2.2.2.2.1) u8 {} [1,2] (by decide +kernel) (by decide +kernel) (by decide +kernel)).1) (by decide +kernel))),
   ran ((((((((((((h mku8).1) (by decide +kernel)).2.2.2.1) { lastTick := 1500, enrolled := true } (by decide +kernel)).2.2.2.2.1) u8 { sigOk := false } (List.replicate 12 3#8) (by decide +kernel) (by decide +kernel) (by decide +kernel)).2.1) (by decide +kernel) (by decide +kernel) (by decide +kernel)).1) (by decide +kernel))),
   ran ((((((((((((h mku8).1) (by decide +kernel)).2.2.2.1) { lastTick := 1500, enrolled := true } (by decide +kernel)).2.2.2.2.1) u8 { sigOk := true, svn := ms.ident.minSvn, level := ms.ident.level, written := true, version := 77 } (List.replicate 12 3#8) (by decide +kernel) (by decide +kernel) (by decide +kernel)).2.1) (by decide +kernel) (by decide +kernel) (by decide +kernel)).2) (by decide +kernel) (by decide +kernel) (by decide +kernel) (by decide +kernel) (by decide +kernel) (by decide +kernel))),
   ran ((((((((((((h mku6).1) (by decide +kernel)).2.2.2.1) { lastTick := 1500, enrolled := true } (by decide +kernel)).2.2.2.2.1) u6 { sigOk := false } (List.replicate 12 3#8) (by decide +kernel) (by decide +kernel) (by decide +kernel)).2.2) (by decide +kernel) (by decide +kernel) (by decide +kernel)).1) (by decide +kernel))),
   ran ((((((((((h mU).1) (by decide +kernel)).2.2.2.1) { lastTick := 1500 } (by decide +kernel)).2.2.2.2.2) [7,8] (by decide +kernel)).1) (by decide +kernel) (by decide +kernel))),
   ran ((((((((((h ms).1) (by decide +kernel)).2.2.2.1) { lastTick := 1500, enrolled := true } (by decide +kernel)).2.2.2.2.2) [7,8] (by decide +kernel)).2.1) true [4] (by decide +kernel))),
   ran ((((((((((h ms).1) (by decide +kernel)).2.2.2.1) { lastTick := 1500, enrolled := true } (by decide +kernel)).2.2.2.2.2) [7,8] (by decide +kernel)).2.1) false [4] (by decide +kernel))),
   ran ((((((((((((h ms).1) (by decide +kernel)).2.2.2.1) { lastTick := 1500, enrolled := true } (by decide +kernel)).2.2.2.2.2) [7,8] (by decide +kernel)).2.2) [4] (by decide +kernel) (by decide +kernel)).1) (by decide +kernel))),
   ran ((((((((((((h mB).1) (by decide +kernel)).2.2.2.1) { lastTick := 1500, enrolled := true } (by decide +kernel)).2.2.2.2.2) [7,8] (by decide +kernel)).2.2) [4] (by decide +kernel) (by decide +kernel)).2.1) [9] (by decide +kernel))),
   ran (((((((((((h ms).1) (by decide +kernel)).2.2.2.1) { lastTick := 1500, enrolled := true } (by decide +kernel)).2.2.2.2.2) [7,8] (by decide +kernel)).2.2) [4] (by decide +kernel) (by decide +kernel)).2.2)),
   ran ((((((h ms).1) (by decide +kernel)).2.2.2.2.1) 1 (by decide +kernel) (by decide +kernel))),
   ran ((((((h ms).1) (by decide +kernel)).2.2.2.2.1) 254 (by decide +kernel) (by decide +kernel))),
   ran (((((h ms).1) (by decide +kernel)).2.2.2.2.2.1)),
   ran (((((h ms).1) (by decide +kernel)).2.2.2.2.2.2.1)),
   ran (((((h ms).1) (by decide +kernel)).2.2.2.2.2.2.2.1)),
   ran (((((h ms).1) (by decide +kernel)).2.2.2.2.2.2.2.2.1)),
   ran ((((((((h ms).1) (by decide +kernel)).2.2.2.2.2.2.2.2.2.1) (by decide +kernel)).1) 0 (by decide +kernel))),
   ran ((((((((h ms).1) (by decide +kernel)).2.2.2.2.2.2.2.2.2.1) (by decide +kernel)).1) 26 (by decide +kernel))),
   ran (((((((((h ms).1) (by decide +kernel)).2.2.2.2.2.2.2.2.2.1) (by decide +kernel)).2.2.1) 27 (by decide +kernel))).1),
   ran (((((((((h ms).1) (by decide +kernel)).2.2.2.2.2.2.2.2.2.1) (by decide +kernel)).2.2.1) 300 (by decide +kernel))).1),
   ran (((((((h ms).1) (by decide +kernel)).2.2.2.2.2.2.2.2.2.1) (by decide +kernel)).2.2.2)),
   ran (((((((h mr).1) (by decide +kernel)).2.2.2.2.2.2.2.2.2.2) (by decide +kernel))).1),
   ⟨_, ((h ms).2.1)⟩,
   ran ((((((((h ms).2.2.1) (by decide +kernel)).1) (by decide +kernel)).1) 1 (by decide +kernel))),
   ran ((((((((h m4).2.2.1) (by decide +kernel)).1) (by decide +kernel)).2.1) (by decide +kernel))),
   ⟨_, (((((((h ms).2.2.1) (by decide +kernel)).1) (by decide +kernel)).2.2) 1 (by decide +kernel))⟩,
   ⟨_, (((((((h ms).2.2.1) (by decide +kernel)).1) (by decide +kernel)).2.2) 23 (by decide +kernel))⟩,
   ran (((((((h mtt).2.2.1) (by decide +kernel)).2.1) 9 (by decide +kernel))).1),
   ran (((((((h ms).2.2.1) (by decide +kernel)).2.2.1) 0 1000 (by decide +kernel)).1)),
   ran (((((((h ms).2.2.1) (by decide +kernel)).2.2.1) 0 1000 (by decide +kernel)).2.1)),
   ran ((((((((h ms).2.2.1) (by decide +kernel)).2.2.1) 0 1000 (by decide +kernel)).2.2.1) 3 (by decide +kernel))),
   ran (((((((h ms).2.2.1) (by decide +kernel)).2.2.1) 0 1000 (by decide +kernel)).2.2.2)),
   ran (((((((h ms).2.2.1) (by decide +kernel)).2.2.1) 2 5 (by decide +kernel)).1)),
   ran (((((((h ms).2.2.1) (by decide +kernel)).2.2.1) 2 5 (by decide +kernel)).2.1)),
   ran ((((((((h ms).2.2.1) (by decide +kernel)).2.2.1) 2 5 (by decide +kernel)).2.2.1) 3 (by decide +kernel))),
   ran (((((((h ms).2.2.1) (by decide +kernel)).2.2.1) 2 5 (by decide +kernel)).2.2.2)),
   ran ((((((((h ms).2.2.1) (by decide +kernel)).2.2.2) 6 1 (by decide +kernel) (by decide +kernel)).1) (by decide +kernel) (by decide +kernel))),
   ran ((((((((h ms).2.2.1) (by decide +kernel)).2.2.2) 3 1 (by decide +kernel) (by decide +kernel)).2.1) (by decide +kernel))),
   ran ((((((((h ms).2.2.1) (by decide +kernel)).2.2.2) 4 1 (by decide +kernel) (by decide +kernel)).2.2.1) (by decide +kernel))),
   ran ((((((((h ms).2.2.1) (by decide +kernel)).2.2.2) 3 1 (by decide +kernel) (by decide +kernel)).2.2.2.1) (by decide +kernel))),
   ran ((((((((h ms).2.2.1) (by decide +kernel)).2.2.2) 6 1 (by decide +kernel) (by decide +kernel)).2.2.2.1) (by decide +kernel))),
   ran (((((((h ms).2.2.1) (by decide +kernel)).2.2.2) 3 1 (by decide +kernel) (by decide +kernel)).2.2.2.2)),
   ran (((((((h ms).2.2.1) (by decide +kernel)).2.2.2) 6 0 (by decide +kernel) (by decide +kernel)).2.2.2.2)),
   ran ((((h mh).2.2.2.1) 0 1000 (by decide +kernel) (by decide +kernel))),
   ran ((((h mh).2.2.2.1) 2 5 (by decide +kernel) (by decide +kernel))),
   ran ((((h ms).2.2.2.2) 4 1 5 (by decide +kernel))),
   ran ((((h ms).2.2.2.2) 2 1 5 (by decide +kernel))),
   ran ((((((((((((h mk9).1) (by decide +kernel)).2.2.2.1) { lastTick := 1500, enrolled := true } (by decide +kernel)).2.2.2.2.1) u9 { sigOk := true, written := true } (List.replicate 12 3#8) (by decide +kernel) (by decide +kernel) (by decide +kernel)).2.2) (by decide +kernel) (by decide +kernel) (by decide +kernel)).2) (by decide +kernel) (by decide +kernel) (by decide +kernel) (by decide +kernel) (by decide +kernel))),
   ran ((((((((((((h mk8).1) (by decide +kernel)).2.2.2.1) { lastTick := 1500, enrolled := true } (by decide +kernel)).2.2.2.2.1) u9b { sigOk := false, written := true } (List.replicate 11 3#8) (by decide +kernel) (by decide +kernel) (by decide +kernel)).2.2) (by decide +kernel) (by decide +kernel) (by decide +kernel)).1) (by decide +kernel))),
   ran ((((((((h ms).1) (by decide +kernel)).2.2.2.2.2.2.2.2.2.1) (by decide +kernel)).2.1) 24 ((ms.sensor 24).getD 0) (by decide +kernel)))⟩

end SecurityMessages

theorem wit_TileRegistersHoldTheirValues : Obligations.TileRegistersHoldTheirValues → (tx.setReg 3 77).reg 3 = 77 ∧ (tx.setReg 23 77).reg 22 = tx.reg 22 ∧
    tx.setReg 24 77 = tx ∧ tx.reg 24 = 0 := fun h =>
  ⟨((h tx 3 3 77 (by decide) (by decide)).1).trans (by decide), ((h tx 23 22 77 (by decide) (by decide)).1).trans (by decide),
   (h tx 0 0 77 (by decide) (by decide)).2, by decide⟩

theorem wit_TileStoreWriteFrame : Obligations.TileStoreWriteFrame → Memory.wf (({ tx with store := [(0x1010, 9#8)] } : Tile).storeClean 0x1010 [0, 5, 0, 7]).store = true := fun h =>
  (h { tx with store := [(0x1010, 9#8)] } 0x1010 [0, 5, 0, 7] (by decide)).2.2.2

theorem wit_WindowsPassArgumentsAndResults : Obligations.WindowsPassArgumentsAndResults → (({ tx with depth := 6 } : Tile).enter 0x444).depth = 7 ∧
    ({ tx with depth := 6 } : Tile).leave.depth = 5 := fun h =>
  ⟨(h { tx with depth := 6 } 0x444 (by decide)).1, ((h { tx with depth := 6 } 0x444 (by decide)).2.2.2.2 (by decide)).1⟩

end Sys2Proof.Tests
end

section
/-! Doorbells and moderation (O26): the rule of each ring register by the case that its value falls in, and what a queue error and a vector message leave
in the queue pairs' table. -/

namespace Sys2Proof.Machine

open Sys2Proof

/-! ## What the queue pairs are after an event is told -/

theorem State.Told.qps_eq {s s' : State} (h : s.Told s') : s'.qps = s.qps := by
  obtain ⟨-, -, -, -, -, -, hqps, -⟩ := h.rest
  exact hqps

/-- The first queue error of a queue pair (R91). -/
theorem look_queueError {s : State} {k : Nat} {q : QueuePair} (hq : s.qps.look k = some q) (hs : q.state ≠ 2) (reason : Nat) :
    (queueError k reason s).qps.look k = some { q with state := 2, errReason := reason } := by
  simp [queueError, hq, hs, (notice_told _ _ _ _).qps_eq]

/-- A vector message leaves nothing unsignalled (R74). -/
theorem look_signalCq {s : State} {k : Nat} {q : QueuePair} (hq : s.qps.look k = some q) :
    (signalCq k s).qps.look k = some { q with unsig := 0 } := by
  simp [signalCq, hq, (msix_told _ _ _).qps_eq]

theorem look_signalCq_setQp (s : State) (k : Nat) (q : QueuePair) :
    (signalCq k (s.setQp k q)).qps.look k = some { q with unsig := 0 } :=
  look_signalCq (Tab.look_put_same s.qps k q)

/-! ## The four commands, as the dispatcher runs them -/

theorem exec_lqiSqTail (f n val : Nat) (s : State) : exec (.lqiSqTail f n val) s = execLqiSqTail f n val s := rfl
theorem exec_lqiCqHead (f n val : Nat) (s : State) : exec (.lqiCqHead f n val) s = execLqiCqHead f n val s := rfl
theorem exec_lqiCqMod (f n val : Nat) (s : State) : exec (.lqiCqMod f n val) s = execLqiCqMod f n val s := rfl
theorem exec_cqModTimer (f n : Nat) (s : State) : exec (.cqModTimer f n) s = execCqModTimer f n s := rfl

/-! ## Before readiness (R697) -/

section Unready
variable {s : State} (hr : s.isReady = false) (f n val : Nat)
include hr

theorem execLqiSqTail_unready : execLqiSqTail f n val s = .next (earlyWrite s) := by simp [execLqiSqTail, hr]
theorem execLqiCqHead_unready : execLqiCqHead f n val s = .next (earlyWrite s) := by simp [execLqiCqHead, hr]
theorem execLqiCqMod_unready : execLqiCqMod f n val s = .next (earlyWrite s) := by simp [execLqiCqMod, hr]

end Unready

/-! ## Once ready, at a queue pair that exists -/

section Ready
variable {s : State} {f n val : Nat} {q : QueuePair} (hr : s.isReady = true) (hq : s.qps.look (qpKey f n) = some q)
include hr hq

theorem execLqiSqTail_within (hs : q.state = 1) (ht : val % 65536 < q.sqSize) :
    execLqiSqTail f n val s = .next (s.setQp (qpKey f n) { q with sqTail := val % 65536 }) := by
  simp [execLqiSqTail, hr, hq, hs, Nat.not_le.2 ht]

theorem execLqiSqTail_beyond (hs : q.state = 1) (ht : q.sqSize ≤ val % 65536) :
    execLqiSqTail f n val s = .next (queueError (qpKey f n) 1 s) := by
  simp [execLqiSqTail, hr, hq, hs, ht]

theorem execLqiCqHead_within (hs : q.state = 1 ∨ q.state = 2) (ht : val % 65536 < q.cqSize)
    (hw : (val % 65536 + q.cqSize - q.cqHead) % q.cqSize ≤ (q.cqTail + q.cqSize - q.cqHead) % q.cqSize) :
    execLqiCqHead f n val s = .next (s.setQp (qpKey f n) { q with cqHead := val % 65536 }) := by
  have counts : ¬ (q.state = 0 ∨ q.state = 3) := by omega
  simp [execLqiCqHead, hr, hq, counts, Nat.not_le.2 ht, Nat.not_lt.2 hw]

theorem execLqiCqHead_beyond (hs : q.state = 1) (ht : q.cqSize ≤ val % 65536 ∨
      (q.cqTail + q.cqSize - q.cqHead) % q.cqSize < (val % 65536 + q.cqSize - q.cqHead) % q.cqSize) :
    execLqiCqHead f n val s = .next (queueError (qpKey f n) 2 s) := by
  simp [execLqiCqHead, hr, hq, hs, ht]

theorem execLqiCqMod_quiet (hc : val % 256 ≠ 0) (hu : q.unsig = 0) :
    execLqiCqMod f n val s = .next (s.setQp (qpKey f n) { q with modCount := val % 256, modTime := bits val 31 16 }) := by
  simp [execLqiCqMod, hr, hq, hc, hu]

theorem execLqiCqMod_due (hc : val % 256 ≠ 0) (hu : q.unsig ≠ 0) (hd : bits val 31 16 = 0 ∨ val % 256 ≤ q.unsig) :
    execLqiCqMod f n val s =
      .next (signalCq (qpKey f n) (s.setQp (qpKey f n) { q with modCount := val % 256, modTime := bits val 31 16 })) := by
  have due : bits val 31 16 = 0 ∨ val % 256 ≤ q.unsig ∨ q.unsigTick + bits val 31 16 ≤ s.clk.tick := hd.imp_right .inl
  simp [execLqiCqMod, hr, hq, hc, hu, due]

end Ready

theorem execCqModTimer_due {s : State} {f n : Nat} {q : QueuePair} (hq : s.qps.look (qpKey f n) = some q) (hu : q.unsig ≠ 0)
    (hm : q.modTime ≠ 0) (ht : q.unsigTick + q.modTime ≤ s.clk.tick) : execCqModTimer f n s = .next (signalCq (qpKey f n) s) := by
  simp [execCqModTimer, hq, hu, hm, ht]

/-- Settles O26: each clause is the case of its register's rule, with what a queue error or a vector message leaves in the queue pair. -/
theorem doorbellsAndModeration : Obligations.DoorbellsAndModeration := by
  intro s f n val q hq
  simp only [State.Does, exec_lqiSqTail, exec_lqiCqHead, exec_lqiCqMod, exec_cqModTimer]
  refine ⟨fun hr hs => ⟨execLqiSqTail_within hr hq hs, fun ht => ?sqBeyond⟩, fun hr => execLqiCqHead_within hr hq, fun hr hs ht => ?cqBeyond,
    fun hr => execLqiCqMod_quiet hr hq, fun hr hc hu hd => ?modDue, fun hu hm ht => ?timerDue, fun hr => ?unready⟩
  case sqBeyond => exact ⟨_, execLqiSqTail_beyond hr hq hs ht, look_queueError hq (by simp [hs]) 1⟩
  case cqBeyond => exact ⟨_, execLqiCqHead_beyond hr hq hs ht, look_queueError hq (by simp [hs]) 2⟩
  case modDue => exact ⟨_, execLqiCqMod_due hr hq hc hu hd, look_signalCq_setQp s _ _⟩
  case timerDue => exact ⟨_, execCqModTimer_due hq hu hm ht, look_signalCq hq⟩
  case unready => exact ⟨execLqiSqTail_unready hr f n val, execLqiCqHead_unready hr f n val, execLqiCqMod_unready hr f n val⟩

end Sys2Proof.Machine
end

section
/-! Calls, returns and window traps (O12): what the transfer of CALL, RET and TRET comes to in each case of the window file, and how a traced transfer
completes its instruction. -/

namespace Sys2Proof.Machine

open Sys2Proof

/-! ## Completion up to the debugger's records -/

/-- A completed instruction whose state is `e'` has completed with any `e` that only the debugger's records tell from it. -/
theorem State.Completes.of_like {s e e' : State} {c : Instr} {t pc : Nat} (hl : e.Like e') (h : s.Completes c t e' pc) : s.Completes c t e pc := by
  obtain ⟨s', hx, hs', hpc, hrun⟩ := h
  exact ⟨s', hx, hl.trans hs', hpc, hrun⟩

/-- A transfer that is also traced (R885) completes as the transfer alone does. -/
theorem completes_tracedJump {s e : State} {t g p kind data : Nat} {i : TInst} {c : Instr} {op : TOp} {body : TCtx → TRes}
    (hc : exec c s = runTile t .none op body s) (h : s.stands t 0 i = true) (hop : i.op = op) (hk : op ≠ .blk)
    (hb : body (s.ctxAt t 0 i) = .jump (traceEv p kind data e) g) : s.Completes c t e g :=
  (completes_jump hc h hop hk hb).of_like (traceEv_still p kind data e).1

/-! ## The four commands, as the dispatcher runs them -/

theorem exec_call (t : Nat) (u : Upset) (s : State) : exec (.call t u) s = runTile t u .call bodyCall s := rfl
theorem exec_callr (t : Nat) (u : Upset) (s : State) : exec (.callr t u) s = runTile t u .callr bodyCallr s := rfl
theorem exec_ret (t : Nat) (u : Upset) (s : State) : exec (.ret t u) s = runTile t u .ret bodyRet s := rfl
theorem exec_tret (t : Nat) (u : Upset) (s : State) : exec (.tret t u) s = runTile t u .tret bodyTret s := rfl

/-! ## What the transfers come to -/

/-- The tile in the trap window (R330): w12-w15 hold the save address and the window of the depth that the handler moves, the cause and the address of the
trapping instruction. -/
def Tile.trapped (x : Tile) (cause depth : Nat) (jump : Option Nat) : Tile :=
  { (((x.setWreg 7 12 (BitVec.ofNat 64 (x.spillBase.toNat + 128 * depth))).setWreg 7 13 (BitVec.ofNat 64 (depth % 7))).setWreg 7 14
      (BitVec.ofNat 64 cause)).setWreg 7 15 (BitVec.ofNat 64 x.pc) with inTrap := true, trapPc := x.pc, trapJump := jump }

/-- A window trap is traced and transfers to the handler of its cause (R330). -/
theorem TCtx.windowTrap_eq (c : TCtx) (cause depth : Nat) (jump : Option Nat) :
    c.windowTrap cause depth jump =
      .jump (traceEv c.p 4 cause (c.s.setTile c.p (c.x.trapped cause depth jump))) (c.x.trapVec.toNat + 64 * cause) := rfl

section Call
variable {c : TCtx} {g : Nat} (hg : g < storeBytes ∧ g % 4 = 0) (ht : c.x.inTrap = false)
include hg ht

/-- CALL with a free window (R329). -/
theorem TCtx.callTo_enter (hw : c.x.depth + 1 - c.x.low ≠ 7) : c.callTo g = .jump (c.s.setTile c.p (c.x.enter (c.x.pc + 4))) g := by
  simp [callTo, Nat.not_le.2 hg.1, hg.2, ht, hw]

/-- CALL with the window file full and room in the save area (R330, R332). -/
theorem TCtx.callTo_trap (hw : c.x.depth + 1 - c.x.low = 7) (hr : 128 * c.x.low < c.x.spillBytes.toNat) :
    c.callTo g = c.windowTrap 0 c.x.low (some g) := by
  simp [callTo, Nat.not_le.2 hg.1, hg.2, ht, hw, Nat.not_le.2 hr]

end Call

section Ret
variable {c : TCtx} (ht : c.x.inTrap = false) (hd : 0 < c.x.depth)
  (hg : (c.x.wreg (c.x.depth % 7) 15).toNat < storeBytes ∧ (c.x.wreg (c.x.depth % 7) 15).toNat % 4 = 0)
include ht hd hg

/-- RET to a resident window (R329). -/
theorem TCtx.retTo_leave (hl : c.x.low ≤ c.x.depth - 1) : c.retTo = .jump (c.s.setTile c.p c.x.leave) (c.x.wreg (c.x.depth % 7) 15).toNat := by
  simp [retTo, ht, hd.ne', Nat.not_le.2 hg.1, hg.2, Nat.not_lt.2 hl]

/-- RET to a spilled window (R330). -/
theorem TCtx.retTo_trap (hl : c.x.depth - 1 < c.x.low) : c.retTo = c.windowTrap 1 (c.x.depth - 1) none := by
  simp [retTo, ht, hd.ne', Nat.not_le.2 hg.1, hg.2, hl]

end Ret

section Tret
variable {c : TCtx} (ht : c.x.inTrap = true)
include ht

/-- TRET completes the CALL that trapped (R331). -/
theorem TCtx.tretTo_call {g : Nat} (hj : c.x.trapJump = some g) :
    c.tretTo = .jump (traceEv c.p 2 g (c.s.setTile c.p
      (({ c.x with inTrap := false, low := c.x.low + 1 } : Tile).enter (c.x.trapPc + 4)))) g := by
  simp [tretTo, ht, hj]

/-- TRET completes the RET that trapped (R331). -/
theorem TCtx.tretTo_ret (hj : c.x.trapJump = none) :
    c.tretTo = .jump (traceEv c.p 3 (c.x.wreg (c.x.depth % 7) 15).toNat (c.s.setTile c.p
      ({ c.x with inTrap := false, low := c.x.low - 1 } : Tile).leave)) (c.x.wreg (c.x.depth % 7) 15).toNat := by
  simp [tretTo, ht, hj, Tile.wreg]

end Tret

/-! ## How the instructions complete -/

section Complete
variable {s : State} {t : Nat} {i : TInst} {c : Instr} {op : TOp} {body : TCtx → TRes} (hc : exec c s = runTile t .none op body s)
  (h : s.stands t 0 i = true) (hop : i.op = op) (hk : op ≠ .blk)
include hc h hop hk

/-- An effect that takes a window trap: the handler runs in the trap window. -/
theorem completes_windowTrap {cause depth : Nat} {jump : Option Nat} (hb : body (s.ctxAt t 0 i) = (s.ctxAt t 0 i).windowTrap cause depth jump) :
    s.Completes c t (s.setTile t ((s.tile t).trapped cause depth jump)) ((s.tile t).trapVec.toNat + 64 * cause) :=
  completes_tracedJump hc h hop hk (hb.trans (TCtx.windowTrap_eq _ _ _ _))

/-- An effect that calls a target, as those of CALL and CALLR do. -/
theorem completes_callTo {g : Nat} (hb : body (s.ctxAt t 0 i) = (s.ctxAt t 0 i).callTo g) (hg : g < storeBytes ∧ g % 4 = 0)
    (ht : (s.tile t).inTrap = false) :
    ((s.tile t).depth + 1 - (s.tile t).low ≠ 7 → s.Completes c t (s.setTile t ((s.tile t).enter ((s.tile t).pc + 4))) g) ∧
    ((s.tile t).depth + 1 - (s.tile t).low = 7 → 128 * (s.tile t).low < (s.tile t).spillBytes.toNat →
      s.Completes c t (s.setTile t ((s.tile t).trapped 0 (s.tile t).low (some g))) (s.tile t).trapVec.toNat) :=
  ⟨fun hw => completes_jump hc h hop hk (hb.trans (TCtx.callTo_enter hg ht hw)),
   fun hw hr => completes_windowTrap hc h hop hk (hb.trans (TCtx.callTo_trap hg ht hw hr))⟩

end Complete

/-- Settles O12: each clause is the case of CALL's, RET's or TRET's transfer, completed with its trace event or without one. -/
theorem callsReturnsAndWindowTraps : Obligations.CallsReturnsAndWindowTraps := by
  intro s t i h
  refine ⟨fun hop => ?call, fun hop => ?callr, fun hop ht hd hg => ⟨fun hl => ?retLeave, fun hl => ?retTrap⟩,
    fun hop ht => ⟨fun g hj => ?tretCall, fun hj => ?tretRet⟩⟩
  case call => exact completes_callTo (exec_call t .none s) h hop (by decide) rfl
  case callr => exact completes_callTo (exec_callr t .none s) h hop (by decide) rfl
  case retLeave => exact completes_jump (exec_ret t .none s) h hop (by decide) (TCtx.retTo_leave (c := s.ctxAt t 0 i) ht hd hg hl)
  case retTrap => exact completes_windowTrap (exec_ret t .none s) h hop (by decide) (TCtx.retTo_trap (c := s.ctxAt t 0 i) ht hd hg hl)
  case tretCall => exact completes_tracedJump (exec_tret t .none s) h hop (by decide) (TCtx.tretTo_call (c := s.ctxAt t 0 i) ht hj)
  case tretRet => exact completes_tracedJump (exec_tret t .none s) h hop (by decide) (TCtx.tretTo_ret (c := s.ctxAt t 0 i) ht hj)

end Sys2Proof.Machine
end

section
/-! The interrupt controllers (O48): what the withdrawal of a level input does to a source, and the source that its statement gets wrong, one whose complete
found RECLAIMS at 1,024 (R640). -/

namespace Sys2Proof.Machine

open Sys2Proof

/-! ## A withdrawn level -/

@[simp] theorem State.intc_setIntc_same (s : State) (h : Nat) (c : Intc) : (s.setIntc h c).intc h = c := Tab.val_put_same s.intcs h c {}

/-- The withdrawal of a level clears RECLAIMS outside service (R625) and releases a held source (R640, log 94). -/
theorem intcLevel_withdrawn (h k : Nat) (s : State) :
    let c := s.intc h
    let x := c.srcs.val k {}
    intcLevel h k false s = s.setIntc h { c with
      srcs := c.srcs.put k { x with input := false, held := false, reclaims := if !c.inService k && !x.edge then 0 else x.reclaims } } := by
  simp [intcLevel]

theorem exec_levelInputChange {s : State} {h t n : Nat} (hsrc : s.srcOk h t n = true) (active : Bool) :
    exec (.levelInputChange h t n active) s = .next (intcLevel h (srcKey t n) active s) := by
  change execLevelInputChange h t n active s = _
  simp [execLevelInputChange, hsrc]

/-- Outside service, a withdrawal changes the input and RECLAIMS alone exactly when the source is not held. -/
theorem exec_withdrawn_only_input_reclaims_iff {s : State} {h t n : Nat} (hsrc : s.srcOk h t n = true)
    (hlevel : ((s.intc h).srcs.val (srcKey t n) {}).edge = false) (hidle : (s.intc h).inService (srcKey t n) = false) :
    exec (.levelInputChange h t n false) s = .next (s.setIntc h { s.intc h with
      srcs := (s.intc h).srcs.put (srcKey t n) { (s.intc h).srcs.val (srcKey t n) {} with input := false, reclaims := 0 } }) ↔
    ((s.intc h).srcs.val (srcKey t n) {}).held = false := by
  rw [exec_levelInputChange hsrc, intcLevel_withdrawn]
  constructor
  · intro heq
    have hheld := congrArg (fun u => ((u.intc h).srcs.val (srcKey t n) {}).held) (Host.Outcome.next.inj heq)
    simpa using hheld.symm
  · intro hheld
    simp [hlevel, hidle, hheld]

/-! ## A source held at the threshold -/

/-- Source 0 of target 0 is a level still active, in service for the 1,024th time in a row. -/
def lastReclaim : State :=
  { pwr := { cpClock := true }, intcs := [(0, { service := [(0, 0)], srcs := [(0, { enable := true, input := true, reclaims := 1023 })] })] }

/-- The controller after that service's complete: the source is auto-masked and held (R626, R640). -/
def autoMasked : State := complete 0 0 0 lastReclaim

theorem exec_complete_lastReclaim : exec (.intcComplete 0 0 0) lastReclaim = .next autoMasked := rfl

/-- The auto-masked source: connected, in level mode, out of service, held. -/
theorem autoMasked_source : autoMasked.srcOk 0 0 0 = true ∧ autoMasked.pwr.cpClock = true ∧ (autoMasked.intc 0).inService (srcKey 0 0) = false ∧
    ((autoMasked.intc 0).srcs.val (srcKey 0 0) {}).edge = false ∧ ((autoMasked.intc 0).srcs.val (srcKey 0 0) {}).held = true := by
  decide

/-- Refutes O48: its clause for a withdrawn level says that only the input and RECLAIMS change, but the auto-masked source, which a complete at the threshold
holds, is released as its input falls (log 94). -/
theorem not_interruptControllers : ¬ Obligations.InterruptControllers := by
  intro h
  obtain ⟨hok, hclock, hidle, hlevel, hheld⟩ := autoMasked_source
  obtain ⟨hsources, -⟩ := h autoMasked 0 0
  obtain ⟨-, -, hwithdrawn, -⟩ := hsources 0 hok hclock
  have hfree := (exec_withdrawn_only_input_reclaims_iff hok hlevel hidle).1 (hwithdrawn hlevel hidle)
  exact Bool.false_ne_true (hfree.symm.trans hheld)

end Sys2Proof.Machine
end
